-- ==== Sys2Proof/Word.lean ====
section
/-! DEFINITION. Word types, the eight instruction formats as records of raw fields (R157 to R165), and the
identifiers by which events name units (R2, R24, R140, R273). -/

namespace Sys2Proof

/-- A byte of memory (R3). -/
abbrev Byte := BitVec 8
/-- A 64-bit word: scalar registers, instruction words (R3, R155). -/
abbrev W64 := BitVec 64
/-- Vector register contents (R228). -/
abbrev VReg := BitVec 1024
/-- A 256-byte tile line (R78). -/
abbrev Line := BitVec 2048
/-- A die coordinate: x 16:11, y 10:5, z 4:0 (R2). -/
abbrev DieId := BitVec 17

/-- Data by key, each key at most once; a key that is not listed has the default its reader names. -/
abbrev AMap (κ α : Type) := List (κ × α)

/-- A strand of a core (R8). -/
inductive Strand | as | xs
  deriving DecidableEq, Repr

/-- A logical core of a die, 0 to 39 (R24). -/
structure CoreId where
  die : DieId
  core : Nat
  deriving DecidableEq, Repr

/-- A logical cluster of a die, 0 to 9 (R24). -/
structure ClusterId where
  die : DieId
  clus : Nat
  deriving DecidableEq, Repr

/-- A slab of a die, 0 or 1 (R26). -/
structure SlabId where
  die : DieId
  slab : Nat
  deriving DecidableEq, Repr

/-- The engine queues of R273; the lode is not one of them. -/
inductive EngQ | ce0 | ce1 | ge | ae | he | le | rs | su
  deriving DecidableEq, Repr

/-- One command queue: for a cluster's queue `unit` is the logical cluster, for a slab's it is the slab (R273). -/
structure QueueId where
  die : DieId
  unit : Nat
  q : EngQ
  deriving DecidableEq, Repr

/-- The tag of a tile line: partition, object, facet die and line number (R78, R29). -/
structure LineKey where
  pid : BitVec 32
  oid : BitVec 32
  facet : DieId
  line : Nat
  deriving DecidableEq, Repr

/-- A firmware image (R364), its parts in order; each part's bits numbered as the part's own map numbers them. -/
structure FwImage where
  header : BitVec 1024
  keyBlock : BitVec 4096
  body : List Byte
  rsaSig : List Byte
  slhSig : List Byte
  deriving DecidableEq, Repr

/-- Format R (R157). -/
structure FmtR where
  (dst sa sb sc : BitVec 6)
  fn : BitVec 8
  ty : BitVec 4
  zero : BitVec 20
  deriving DecidableEq, Repr

/-- Format I (R158). -/
structure FmtI where
  (dst sa : BitVec 6)
  ty : BitVec 4
  fn : BitVec 8
  imm : BitVec 32
  deriving DecidableEq, Repr

/-- Format B (R159). -/
structure FmtB where
  (dst sa sb : BitVec 6)
  cond : BitVec 4
  zero : BitVec 2
  off : BitVec 32
  deriving DecidableEq, Repr

/-- Format M (R160). -/
structure FmtM where
  (dst sa sb : BitVec 6)
  ty : BitVec 4
  ord : BitVec 2
  scope : BitVec 3
  fn : BitVec 5
  disp : BitVec 24
  deriving DecidableEq, Repr

/-- Format V (R161). -/
structure FmtV where
  (dst sa sb sc : BitVec 6)
  lat : BitVec 5
  pred : BitVec 3
  fmt : BitVec 4
  rm : BitVec 3
  fn : BitVec 5
  aux : BitVec 12
  deriving DecidableEq, Repr

/-- Format T (R163). -/
structure FmtT where
  (dst sa sb sc : BitVec 6)
  lat : BitVec 5
  (fa fb : BitVec 4)
  fn : BitVec 3
  imm : BitVec 16
  deriving DecidableEq, Repr

/-- Format E (R164). -/
structure FmtE where
  (dst sa sb sc : BitVec 6)
  (wv sv : BitVec 1)
  (wsem ssem : BitVec 8)
  fn : BitVec 4
  wcnt : BitVec 10
  deriving DecidableEq, Repr

/-- Format S (R165). -/
structure FmtS where
  (dst sa : BitVec 6)
  csr : BitVec 12
  scope : BitVec 3
  ord : BitVec 2
  fn : BitVec 3
  imm : BitVec 24
  deriving DecidableEq, Repr

end Sys2Proof
end

