-- ==== Sys2Proof/Config.lean ====
section
/-! DEFINITION. What one implementation fixes and the values that the spec leaves free. An opaque constant has no body:
no proof sees its value, so a claim holds for every value (log 8, 9, 10, 13). -/

namespace Sys2Proof.Config

/-- A fresh undefined value (R7), one for each value of the state's counter (log 8). -/
opaque freeBits : Nat → Nat → W64
/-- The old or the new word of an unordered scratch access (R123, R166, R251), one choice for each counter (log 8). -/
opaque freePick : Nat → Nat → Bool
/-- The undefined byte of a bank that entered SCRATCH: by entry epoch and scratch address (R80, log 8). -/
opaque scratchByte : Nat → Nat → Byte
/-- The bits of the bounded approximations of R235: by form major, format code and input bits (log 9). -/
opaque approx : Nat → Nat → W64 → W64
/-- The L1 set of a line, one of the 1,024 frames of a bank (R79 gives no index function; log 10). -/
opaque l1Set : Nat → Fin 1024
/-- The set of an L2 slice that holds a physical line: 1 MiB in 16 ways are 256 sets (R21 gives no index function; log 70). -/
opaque l2Set : Nat → Fin 256
/-- SHA-384 (FIPS 180-4; log 13). -/
opaque sha384 : List Byte → BitVec 384
/-- RSASSA-PSS-SHA-384 verification: modulus and exponent field, message, signature (RFC 8017; log 13). -/
opaque rsaVerify : BitVec 3104 → List Byte → List Byte → Bool
/-- SLH-DSA-SHA2-192s verification: key, message, signature (FIPS 205; log 13). -/
opaque slhVerify : BitVec 384 → List Byte → List Byte → Bool
/-- An operator certificate chains to the root in the running firmware (SPDM 1.3; log 13). -/
opaque certChains : BitVec 384 → Bool
/-- HKDF-Expand-SHA384 of secret and label to a 256-bit link key (R372; log 13). -/
opaque hkdf : BitVec 384 → BitVec 104 → BitVec 256

/-- The key of firmware traffic that the SPDM session of a link exports, from what the packages at its ends drew and the coordinates of
the dies that it joins (R372; log 13). -/
opaque spdmExport : BitVec 384 → BitVec 384 → BitVec 34 → BitVec 384
/-- The operation byte of a packet's descriptor, from the atomic's function and type (R347 gives no layout within it; log 14). -/
opaque opByte : Nat → Nat → BitVec 8

/-- A secret drawn from an entropy source: a partition's when a WRAPS count is spent, a package's at boot (R372, R373; log 8). -/
opaque entropy : Nat → BitVec 384
/-- The rate a queue pair keeps after a congestion notification (R354 names DCQCN, no amount; log 8). -/
opaque cnpRate : Nat → Nat

/-- Physical die positions by logical die number (R17). -/
def posOf (n : Nat) : Nat := match n with | 0 => 0 | 1 => 1 | 2 => 3 | 3 => 2 | 4 => 4 | 5 => 5 | 6 => 7 | _ => 6
/-- SYS.HARVEST of every die: cluster 5 the unused spare (DESIGN CHOICE, log 4; R23). -/
def harvest : W64 := 0xF7DF
/-- The wrap bits set by link training (DESIGN CHOICE, log 4; R15): package-closed. -/
def wrap : BitVec 3 := 0b111
/-- HBM bytes of a slab (R66). -/
def hbmBytes : Nat := 48000000000
/-- First expander address of a slab (R66). -/
def cxlBase : Nat := 0x100000000000
/-- Physical address of the supervisor's firmware entry inside its slab (DESIGN CHOICE, log 6; R323 names no place). -/
def supEntry : Nat := 0x10000
/-- Physical address inside a slab at which firmware places a partition's object table, and its LOG2N (DESIGN CHOICE, log 4; R70). -/
def otAddr : Nat := 0x100000000
def otLog2 : Nat := 10
/-- LIMIT of a partition's launch object (DESIGN CHOICE, log 4; the supervisor's choice, R135). -/
def launchLimit : Nat := 64
/-- The partition that withFetchWord installs (log 3). -/
def firstPid : BitVec 32 := 1

end Sys2Proof.Config
end

