-- ==== Sys2Proof/Machine/Bits.lean ====
section
/-! DEFINITION. Finite maps, bit fields, byte order, lanes, and integer readings (R3, R9, R228). -/

namespace Sys2Proof.Machine

variable {κ α : Type} [DecidableEq κ]

/-- The value at a key, if listed. -/
def lkp (m : AMap κ α) (k : κ) : Option α :=
  match m with
  | [] => none
  | (k', v) :: r => if k' = k then some v else lkp r k
/-- The value at a key, or the default. -/
def lkpD (m : AMap κ α) (k : κ) (d : α) : α := (lkp m k).getD d
/-- The map with the key set: in place when listed, at the end otherwise. -/
def ins (m : AMap κ α) (k : κ) (v : α) : AMap κ α :=
  match m with
  | [] => [(k, v)]
  | (k', v') :: r => if k' = k then (k, v) :: r else (k', v') :: ins r k v
/-- The map without the key. -/
def del (m : AMap κ α) (k : κ) : AMap κ α :=
  match m with
  | [] => []
  | (k', v') :: r => if k' = k then r else (k', v') :: del r k
/-- The map with a function applied at a key (from the default when not listed). -/
def upd (m : AMap κ α) (k : κ) (d : α) (f : α → α) : AMap κ α := ins m k (f (lkpD m k d))

/-- Bits lo + len − 1 : lo as a number. -/
def bitsN {w : Nat} (b : BitVec w) (lo len : Nat) : Nat := (b.extractLsb' lo len).toNat

/-- b with bits lo + len − 1 : lo replaced by v mod 2^len. -/
def setBits {w : Nat} (b : BitVec w) (lo len v : Nat) : BitVec w :=
  (b &&& ~~~(BitVec.ofNat w ((2 ^ len - 1) * 2 ^ lo))) ||| BitVec.ofNat w ((v % 2 ^ len) * 2 ^ lo)

/-- The n low bits read as a signed or unsigned integer (ReadInt of R181). -/
def readInt (signed : Bool) (n : Nat) (v : Nat) : Int :=
  let u := v % 2 ^ n
  if signed && decide (2 ^ n ≤ 2 * u) then (u : Int) - (2 ^ n : Nat) else u

/-- r mod 2^n as a number (R41). -/
def wrapN (n : Nat) (r : Int) : Nat := (r % (2 ^ n : Nat)).toNat

/-- The n-bit value extended to 64 bits by signedness (R181). -/
def extend64 (signed : Bool) (n : Nat) (v : Nat) : W64 := BitVec.ofInt 64 (readInt signed n v)

/-- Signed type codes (R36). -/
def tySigned (c : BitVec 4) : Bool := decide (8 ≤ c.toNat ∧ c.toNat ≤ 11)

/-- Little-endian bytes of a number (R3). -/
def bytesOf (n : Nat) (v : Nat) : List Byte := (List.range n).map fun k => BitVec.ofNat 8 (v / 2 ^ (8 * k))

/-- The number that little-endian bytes hold (R3). -/
def ofBytes (b : List Byte) : Nat := b.foldr (fun x acc => x.toNat + 256 * acc) 0

/-- Lane i, of w bits (R228). -/
def lane {n : Nat} (w : Nat) (v : BitVec n) (i : Nat) : Nat := bitsN v (w * i) w
/-- The register with lane i replaced. -/
def setLane {n : Nat} (w : Nat) (v : BitVec n) (i : Nat) (x : Nat) : BitVec n := setBits v (w * i) w x
/-- A register from its lanes, lane 0 first. -/
def ofLanes (n w : Nat) (l : List Nat) : BitVec n :=
  BitVec.ofNat n (l.foldr (fun x acc => x % 2 ^ w + 2 ^ w * acc) 0)
/-- The lanes of a register, lane 0 first. -/
def toLanes {n : Nat} (w : Nat) (v : BitVec n) : List Nat := (List.range (n / w)).map (lane w v)

/-- Bits of one word merged over another by a byte mask of 4-byte words (R78). -/
def wordMaskBits (mask : BitVec 64) : Line :=
  ofLanes 2048 32 ((List.range 64).map fun i => if mask.getLsbD i then 2 ^ 32 - 1 else 0)
/-- The line whose masked words come from b and the others from a. -/
def mergeWords (a b : Line) (mask : BitVec 64) : Line :=
  (a &&& ~~~ wordMaskBits mask) ||| (b &&& wordMaskBits mask)
/-- The mask of the words that n bytes at byte off of a line touch. -/
def wordsTouched (off n : Nat) : BitVec 64 :=
  BitVec.ofNat 64 (((List.range 64).foldl (fun acc i => if off < 4 * i + 4 && 4 * i < off + n then acc + 2 ^ i else acc) 0))
/-- The mask of the 32-byte granules that n bytes at byte off touch (R72). -/
def granulesTouched (off n : Nat) : BitVec 8 :=
  BitVec.ofNat 8 (((List.range 8).foldl (fun acc i => if off < 32 * i + 32 && 32 * i < off + n then acc + 2 ^ i else acc) 0))
/-- n bytes at byte off of a line, as a number. -/
def lineGet (d : Line) (off n : Nat) : Nat := bitsN d (8 * off) (8 * n)
/-- The line with n bytes at byte off replaced. -/
def lineSet (d : Line) (off n v : Nat) : Line := setBits d (8 * off) (8 * n) v
/-- A granule mask's words: eight for each granule. -/
def granuleWords (g : BitVec 8) : BitVec 64 :=
  BitVec.ofNat 64 ((List.range 8).foldl (fun acc i => if g.getLsbD i then acc + 255 * 2 ^ (8 * i) else acc) 0)
/-- The granules all of whose words lie in the mask. -/
def wholeGranules (m : BitVec 64) : BitVec 8 :=
  BitVec.ofNat 8 ((List.range 8).foldl (fun acc i => if bitsN m (8 * i) 8 = 255 then acc + 2 ^ i else acc) 0)
/-- The granules with a word in the mask. -/
def someGranules (m : BitVec 64) : BitVec 8 :=
  BitVec.ofNat 8 ((List.range 8).foldl (fun acc i => if bitsN m (8 * i) 8 ≠ 0 then acc + 2 ^ i else acc) 0)

/-- The bytes of a line's words. -/
def wordBytes (m : BitVec 64) : BitVec 256 := ofLanes 256 4 ((List.range 64).map fun i => if m.getLsbD i then 15 else 0)
/-- The mask of n bytes at byte off. -/
def byteMask (off n : Nat) : BitVec 256 := BitVec.ofNat 256 ((2 ^ n - 1) * 2 ^ off)
/-- The line whose masked bytes come from b and the others from a. -/
def mergeBytes (a b : Line) (mask : BitVec 256) : Line :=
  let m : Line := ofLanes 2048 8 ((List.range 256).map fun i => if mask.getLsbD i then 255 else 0)
  (a &&& ~~~ m) ||| (b &&& m)

/-- Ceiling of a quotient. -/
def cdiv (a b : Nat) : Nat := (a + b - 1) / b

/-- x, y, z of a die coordinate (R2). -/
def dx (d : DieId) : Nat := bitsN d 11 6
def dy (d : DieId) : Nat := bitsN d 5 6
def dz (d : DieId) : Nat := bitsN d 0 5
def mkDie (x y z : Nat) : DieId := BitVec.ofNat 17 (x % 64 * 2048 + y % 64 * 32 + z % 32)
/-- Logical die number within the package (R2). -/
def ldie (d : DieId) : Nat := dx d % 2 + 2 * (dy d % 2) + 4 * (dz d % 2)
/-- The package of a die, named by the coordinate of its logical die 0 (R361). -/
def pkgOf (d : DieId) : DieId := mkDie (dx d - dx d % 2) (dy d - dy d % 2) (dz d - dz d % 2)
/-- The die of a package with logical number n. -/
def dieOfPkg (p : DieId) (n : Nat) : DieId := mkDie (dx p + n % 2) (dy p + n / 2 % 2) (dz p + n / 4 % 2)
/-- The coordinate lies in the domain: the model installs every die of the largest domain, 48×48×32 (R2; DESIGN CHOICE, log 69). -/
def dieExists (d : DieId) : Bool := decide (dx d < 48 ∧ dy d < 48 ∧ dz d < 32)
/-- InBox (R137). -/
def inBox (d lo hi : DieId) : Bool :=
  decide (dx lo ≤ dx d ∧ dx d ≤ dx hi ∧ dy lo ≤ dy d ∧ dy d ≤ dy hi ∧ dz lo ≤ dz d ∧ dz d ≤ dz hi)

/-- The slab of a logical cluster, and of a core (R21, R24). -/
def slabOfClus (c : Nat) : Nat := c / 5
def CoreId.cluster (c : CoreId) : ClusterId := { die := c.die, clus := c.core / 4 }
def clusterSlab (c : ClusterId) : SlabId := { die := c.die, slab := slabOfClus c.clus }
def coreSlab (c : CoreId) : SlabId := clusterSlab (CoreId.cluster c)
def cix (c : CoreId) : Nat := c.core % 4
def coreOf (c : ClusterId) (k : Nat) : CoreId := { die := c.die, core := 4 * c.clus + k }

end Sys2Proof.Machine
end

