-- ==== Sys2Proof/Syntax.lean ====
section
/-! DEFINITION. The table of operations: one constructor per row of spec/opcode_table.json. An instruction form
carries the raw fields of its format; an event carries the unit, the message or the datum that it names. -/

namespace Sys2Proof

/-- Every step of the part: the instruction forms of R169 and the events of the table. -/
inductive Instr where
  /-- ADD (R182), major 0x00. -/
  | add (f : FmtR)
  /-- ADDI (R182), major 0x01. -/
  | addi (f : FmtI)
  /-- SUB (R182), major 0x02. -/
  | sub (f : FmtR)
  /-- MUL (R182), major 0x03. -/
  | mul (f : FmtR)
  /-- MULH (R182), major 0x04. -/
  | mulh (f : FmtR)
  /-- MULHZ (R182), major 0x05. -/
  | mulhz (f : FmtR)
  /-- DIV (R184), major 0x06. -/
  | div (f : FmtR)
  /-- DIVZ (R184), major 0x07. -/
  | divz (f : FmtR)
  /-- REM (R184), major 0x08. -/
  | rem (f : FmtR)
  /-- REMZ (R184), major 0x09. -/
  | remz (f : FmtR)
  /-- AND (R182), major 0x0A. -/
  | and (f : FmtR)
  /-- ANDI (R182), major 0x0B. -/
  | andi (f : FmtI)
  /-- OR (R182), major 0x0C. -/
  | or (f : FmtR)
  /-- ORI (R182), major 0x0D. -/
  | ori (f : FmtI)
  /-- XOR (R182), major 0x0E. -/
  | xor (f : FmtR)
  /-- XORI (R182), major 0x0F. -/
  | xori (f : FmtI)
  /-- SHL (R183), major 0x10. -/
  | shl (f : FmtR)
  /-- SHLI (R183), major 0x11. -/
  | shli (f : FmtI)
  /-- SHR (R183), major 0x12. -/
  | shr (f : FmtR)
  /-- SHRI (R183), major 0x13. -/
  | shri (f : FmtI)
  /-- SRA (R183), major 0x14. -/
  | sra (f : FmtR)
  /-- SRAI (R183), major 0x15. -/
  | srai (f : FmtI)
  /-- MIN (R182), major 0x16. -/
  | min (f : FmtR)
  /-- MAX (R182), major 0x17. -/
  | max (f : FmtR)
  /-- MINZ (R182), major 0x18. -/
  | minz (f : FmtR)
  /-- MAXZ (R182), major 0x19. -/
  | maxz (f : FmtR)
  /-- SLT (R182), major 0x1A. -/
  | slt (f : FmtR)
  /-- SLTZ (R182), major 0x1B. -/
  | sltz (f : FmtR)
  /-- SEQ (R182), major 0x1C. -/
  | seq (f : FmtR)
  /-- SEL (R182), major 0x1D. -/
  | sel (f : FmtR)
  /-- CLZ (R185), major 0x1E. -/
  | clz (f : FmtR)
  /-- CTZ (R185), major 0x1E. -/
  | ctz (f : FmtR)
  /-- POPC (R185), major 0x1E. -/
  | popc (f : FmtR)
  /-- MOV (R185), major 0x1E. -/
  | mov (f : FmtR)
  /-- EXT (R185), major 0x1E. -/
  | ext (f : FmtR)
  /-- LI (R186), major 0x1F. -/
  | li (f : FmtI)
  /-- LIH (R186), major 0x1F. -/
  | lih (f : FmtI)
  /-- BC (R188), major 0x20. -/
  | bc (f : FmtB)
  /-- J (R189), major 0x21. -/
  | j (f : FmtB)
  /-- CALL (R189), major 0x22. -/
  | call (f : FmtB)
  /-- RET (R189), major 0x23. -/
  | ret (f : FmtB)
  /-- LOOPB (R190), major 0x24. -/
  | loopb (f : FmtB)
  /-- LOOPE (R190), major 0x25. -/
  | loope (f : FmtB)
  /-- BQP (R194), major 0x26. -/
  | bqp (f : FmtB)
  /-- END (R196), major 0x27. -/
  | endS (f : FmtR)
  /-- QPUSH (R193), major 0x28. -/
  | qpush (f : FmtR)
  /-- QPOP (R193), major 0x29. -/
  | qpop (f : FmtR)
  /-- QPEEK (R193), major 0x2A. -/
  | qpeek (f : FmtR)
  /-- QCNT (R193), major 0x2B. -/
  | qcnt (f : FmtR)
  /-- BQPUSH (R194), major 0x2C. -/
  | bqpush (f : FmtR)
  /-- VPOPQ (R252), major 0x2D. -/
  | vpopq (f : FmtV)
  /-- VPUSHQ (R253), major 0x2E. -/
  | vpushq (f : FmtV)
  /-- CLD (R204), major 0x30. -/
  | cld (f : FmtM)
  /-- CST (R204), major 0x31. -/
  | cst (f : FmtM)
  /-- CNARROW (R199), major 0x32. -/
  | cnarrow (f : FmtR)
  /-- CRIGHTS (R200), major 0x33. -/
  | crights (f : FmtR)
  /-- COFF (R201), major 0x34. -/
  | coff (f : FmtR)
  /-- CGET (R202), major 0x35. -/
  | cget (f : FmtR)
  /-- CLGEN (R203), major 0x36. -/
  | clgen (f : FmtR)
  /-- LD (R210), major 0x40. -/
  | ld (f : FmtM)
  /-- ST (R210), major 0x41. -/
  | st (f : FmtM)
  /-- LDT (R212), major 0x42. -/
  | ldt (f : FmtM)
  /-- STT (R212), major 0x43. -/
  | stt (f : FmtM)
  /-- PF_L1 (R213), major 0x44. -/
  | pfL1 (f : FmtM)
  /-- PF_L2 (R213), major 0x44. -/
  | pfL2 (f : FmtM)
  /-- CBO_CLEAN (R213), major 0x45. -/
  | cboClean (f : FmtM)
  /-- CBO_INVAL (R213), major 0x45. -/
  | cboInval (f : FmtM)
  /-- CBO_FLUSH (R213), major 0x45. -/
  | cboFlush (f : FmtM)
  /-- OTQ_ATTR (R214), major 0x46. -/
  | otqAttr (f : FmtM)
  /-- OTQ_CNT (R214), major 0x46. -/
  | otqCnt (f : FmtM)
  /-- OTQ_DIMS (R214), major 0x46. -/
  | otqDims (f : FmtM)
  /-- OTQ_LAYOUT (R214), major 0x46. -/
  | otqLayout (f : FmtM)
  /-- OTQ_PLANES (R214), major 0x46. -/
  | otqPlanes (f : FmtM)
  /-- OTQ_EXT (R214), major 0x46. -/
  | otqExt (f : FmtM)
  /-- LDV (R215), major 0x47. -/
  | ldv (f : FmtM)
  /-- VALS (R216), major 0x48. -/
  | vals (f : FmtM)
  /-- AMO (R220), major 0x49. -/
  | amo (f : FmtM)
  /-- AMO_REDUCE (R220), major 0x49. -/
  | amoReduce (f : FmtM)
  /-- AMOF_FADD (R222), major 0x4A. -/
  | amofFadd (f : FmtM)
  /-- AMOF_FMAX (R222), major 0x4A. -/
  | amofFmax (f : FmtM)
  /-- CAS (R223), major 0x4B. -/
  | cas (f : FmtM)
  /-- CASV (R217), major 0x4C. -/
  | casv (f : FmtM)
  /-- FENCE (R224), major 0x4D. -/
  | fence (f : FmtS)
  /-- ACQ (R211), major 0x4E. -/
  | acq (f : FmtM)
  /-- REL (R211), major 0x4F. -/
  | rel (f : FmtM)
  /-- SWAIT (R225), major 0x50. -/
  | swait (f : FmtS)
  /-- SWAIT_TAKE (R225), major 0x50. -/
  | swaitTake (f : FmtS)
  /-- SSIG (R225), major 0x51. -/
  | ssig (f : FmtS)
  /-- SADD (R225), major 0x52. -/
  | sadd (f : FmtS)
  /-- BARA (R226), major 0x53. -/
  | bara (f : FmtS)
  /-- BARW (R226), major 0x54. -/
  | barw (f : FmtS)
  /-- EVPOP (R227), major 0x55. -/
  | evpop (f : FmtS)
  /-- EVPOP_POLL (R227), major 0x55. -/
  | evpopPoll (f : FmtS)
  /-- VADD (R232), major 0x60. -/
  | vadd (f : FmtV)
  /-- VSUB (R232), major 0x61. -/
  | vsub (f : FmtV)
  /-- VMUL (R232), major 0x62. -/
  | vmul (f : FmtV)
  /-- VFMA (R232), major 0x63. -/
  | vfma (f : FmtV)
  /-- VFMS (R232), major 0x64. -/
  | vfms (f : FmtV)
  /-- VNFMA (R232), major 0x65. -/
  | vnfma (f : FmtV)
  /-- VMIN (R233), major 0x66. -/
  | vmin (f : FmtV)
  /-- VMAX (R233), major 0x67. -/
  | vmax (f : FmtV)
  /-- VABS (R234), major 0x68. -/
  | vabs (f : FmtV)
  /-- VNEG (R234), major 0x69. -/
  | vneg (f : FmtV)
  /-- VRCP (R235), major 0x6A. -/
  | vrcp (f : FmtV)
  /-- VRSQ (R235), major 0x6B. -/
  | vrsq (f : FmtV)
  /-- VSQRT (R235), major 0x6C. -/
  | vsqrt (f : FmtV)
  /-- VEXP2 (R235), major 0x6D. -/
  | vexp2 (f : FmtV)
  /-- VLOG2 (R235), major 0x6E. -/
  | vlog2 (f : FmtV)
  /-- VTANH (R235), major 0x6F. -/
  | vtanh (f : FmtV)
  /-- VSIN (R235), major 0x70. -/
  | vsin (f : FmtV)
  /-- VCOS (R235), major 0x71. -/
  | vcos (f : FmtV)
  /-- VCVT (R237), major 0x72. -/
  | vcvt (f : FmtV)
  /-- VSCALE (R239), major 0x73. -/
  | vscale (f : FmtV)
  /-- VSCALE_VEC (R239), major 0x73. -/
  | vscaleVec (f : FmtV)
  /-- VSEED (R240), major 0x74. -/
  | vseed (f : FmtV)
  /-- VCMP (R241), major 0x75. -/
  | vcmp (f : FmtV)
  /-- VSEL (R242), major 0x76. -/
  | vsel (f : FmtV)
  /-- VAND (R242), major 0x77. -/
  | vand (f : FmtV)
  /-- VOR (R242), major 0x78. -/
  | vor (f : FmtV)
  /-- VXOR (R242), major 0x79. -/
  | vxor (f : FmtV)
  /-- VNOT (R242), major 0x7A. -/
  | vnot (f : FmtV)
  /-- VSHL (R243), major 0x7B. -/
  | vshl (f : FmtV)
  /-- VSHR (R243), major 0x7C. -/
  | vshr (f : FmtV)
  /-- VSRA (R243), major 0x7D. -/
  | vsra (f : FmtV)
  /-- VIADD (R243), major 0x7E. -/
  | viadd (f : FmtV)
  /-- VISUB (R243), major 0x7F. -/
  | visub (f : FmtV)
  /-- VIMUL (R243), major 0x80. -/
  | vimul (f : FmtV)
  /-- VIMIN (R243), major 0x81. -/
  | vimin (f : FmtV)
  /-- VIMAX (R243), major 0x82. -/
  | vimax (f : FmtV)
  /-- VRED (R244), major 0x83. -/
  | vred (f : FmtV)
  /-- VPERM (R245), major 0x84. -/
  | vperm (f : FmtV)
  /-- VBCAST (R246), major 0x85. -/
  | vbcast (f : FmtV)
  /-- VBCAST_LANE (R246), major 0x85. -/
  | vbcastLane (f : FmtV)
  /-- VINS (R246), major 0x86. -/
  | vins (f : FmtV)
  /-- VEXT (R246), major 0x87. -/
  | vext (f : FmtV)
  /-- VMOV (R247), major 0x88. -/
  | vmov (f : FmtV)
  /-- VMOV_P (R247), major 0x88. -/
  | vmovP (f : FmtV)
  /-- VMOV_V (R247), major 0x88. -/
  | vmovV (f : FmtV)
  /-- VLDS (R249), major 0x89. -/
  | vlds (f : FmtV)
  /-- VLDS_FIFO (R250), major 0x89. -/
  | vldsFifo (f : FmtV)
  /-- VSTS (R249), major 0x8A. -/
  | vsts (f : FmtV)
  /-- VSTS_FIFO (R250), major 0x8A. -/
  | vstsFifo (f : FmtV)
  /-- VLDSX (R249), major 0x8B. -/
  | vldsx (f : FmtV)
  /-- VSMAX (R254), major 0x8C. -/
  | vsmax (f : FmtV)
  /-- VMERGE (R255), major 0x8D. -/
  | vmerge (f : FmtV)
  /-- VQUANT (R256), major 0x8E. -/
  | vquant (f : FmtV)
  /-- VDEQ (R257), major 0x8F. -/
  | vdeq (f : FmtV)
  /-- MXLEASE (R261), major 0xA0. -/
  | mxlease (f : FmtT)
  /-- MXFREE (R261), major 0xA1. -/
  | mxfree (f : FmtT)
  /-- MXMUL (R263), major 0xA2. -/
  | mxmul (f : FmtT)
  /-- MXMULC (R265), major 0xA3. -/
  | mxmulc (f : FmtT)
  /-- MXZERO (R267), major 0xA4. -/
  | mxzero (f : FmtT)
  /-- MXZERO_BLK (R267), major 0xA4. -/
  | mxzeroBlk (f : FmtT)
  /-- MXRD (R268), major 0xA5. -/
  | mxrd (f : FmtT)
  /-- MXRD_BAND (R268), major 0xA5. -/
  | mxrdBand (f : FmtT)
  /-- MXWR (R267), major 0xA6. -/
  | mxwr (f : FmtT)
  /-- TLD (R269), major 0xA7. -/
  | tld (f : FmtT)
  /-- TST (R269), major 0xA8. -/
  | tst (f : FmtT)
  /-- TSL (R270), major 0xA9. -/
  | tsl (f : FmtT)
  /-- TTRAN (R270), major 0xAA. -/
  | ttran (f : FmtT)
  /-- CPY (R280), major 0xB0. -/
  | cpy (f : FmtE)
  /-- CPY_ST (R280), major 0xB0. -/
  | cpySt (f : FmtE)
  /-- CPYL (R281), major 0xB1. -/
  | cpyl (f : FmtE)
  /-- CPYL_ST (R281), major 0xB1. -/
  | cpylSt (f : FmtE)
  /-- CPYL_OO (R281), major 0xB1. -/
  | cpylOo (f : FmtE)
  /-- GATH (R283), major 0xB2. -/
  | gath (f : FmtE)
  /-- SCAT (R283), major 0xB3. -/
  | scat (f : FmtE)
  /-- HALO (R285), major 0xB4. -/
  | halo (f : FmtE)
  /-- RESHD (R286), major 0xB5. -/
  | reshd (f : FmtE)
  /-- RESHD_INST (R287), major 0xB5. -/
  | reshdInst (f : FmtE)
  /-- SEND (R288), major 0xB6. -/
  | send (f : FmtE)
  /-- SENDT (R289), major 0xB7. -/
  | sendt (f : FmtE)
  /-- MCAST (R290), major 0xB8. -/
  | mcast (f : FmtE)
  /-- RECVADD (R291), major 0xB9. -/
  | recvadd (f : FmtE)
  /-- ATTN (R298), major 0xBA. -/
  | attn (f : FmtE)
  /-- ATTNC (R298), major 0xBB. -/
  | attnc (f : FmtE)
  /-- KVMAP (R295), major 0xBC. -/
  | kvmap (f : FmtE)
  /-- KVMAP_LEN (R295), major 0xBC. -/
  | kvmapLen (f : FmtE)
  /-- KVUNMAP (R295), major 0xBD. -/
  | kvunmap (f : FmtE)
  /-- CURS_RD (R303), major 0xBE. -/
  | cursRd (f : FmtE)
  /-- CURS_PLAY (R336), major 0xBE. -/
  | cursPlay (f : FmtE)
  /-- CURS_GEN (R336), major 0xBE. -/
  | cursGen (f : FmtE)
  /-- CURS_INIT (R303), major 0xBE. -/
  | cursInit (f : FmtE)
  /-- CURS_FREE (R303), major 0xBE. -/
  | cursFree (f : FmtE)
  /-- CURS_RDC (R303), major 0xBE. -/
  | cursRdc (f : FmtE)
  /-- TRUNC (R304), major 0xBF. -/
  | trunc (f : FmtE)
  /-- COMMIT (R303), major 0xC0. -/
  | commit (f : FmtE)
  /-- COMMIT_SNAP (R302), major 0xC0. -/
  | commitSnap (f : FmtE)
  /-- SINPOP (R339), major 0xC1. -/
  | sinpop (f : FmtE)
  /-- LAUNCH (R305), major 0xC2. -/
  | launch (f : FmtE)
  /-- CSRR_SYS_FLSTAT (R311), major 0xE0. -/
  | csrrSysFlstat (f : FmtS)
  /-- CSRR (R314), major 0xE0. -/
  | csrr (f : FmtS)
  /-- CSRW_SYS_CAUSE (R311), major 0xE1. -/
  | csrwSysCause (f : FmtS)
  /-- CSRW_SYS_PRIO (R144), major 0xE1. -/
  | csrwSysPrio (f : FmtS)
  /-- CSRW_SYS_SAVE (R312), major 0xE1. -/
  | csrwSysSave (f : FmtS)
  /-- CSRW_SYS_FQ (R310), major 0xE1. -/
  | csrwSysFq (f : FmtS)
  /-- CSRW_SYS_FLOG (R310), major 0xE1. -/
  | csrwSysFlog (f : FmtS)
  /-- CSRW (R314), major 0xE1. -/
  | csrw (f : FmtS)
  /-- TRAP (R315), major 0xE2. -/
  | trap (f : FmtS)
  /-- RESUME_RETRY (R324), major 0xE3. -/
  | resumeRetry (f : FmtS)
  /-- RESUME_SKIP (R324), major 0xE3. -/
  | resumeSkip (f : FmtS)
  /-- RESUME_CONT (R324), major 0xE3. -/
  | resumeCont (f : FmtS)
  /-- RESUME_KILL (R324), major 0xE3. -/
  | resumeKill (f : FmtS)
  /-- RESUME_PARK (R324), major 0xE3. -/
  | resumePark (f : FmtS)
  /-- RESUME_ABORT (R324), major 0xE3. -/
  | resumeAbort (f : FmtS)
  /-- FEAT_TEST (R316), major 0xE4. -/
  | featTest (f : FmtS)
  /-- FEAT_REQ (R316), major 0xE4. -/
  | featReq (f : FmtS)
  /-- OTINV_EXT (R317), major 0xE5. -/
  | otinvExt (f : FmtS)
  /-- OTINV_OBJ (R317), major 0xE5. -/
  | otinvObj (f : FmtS)
  /-- OTINV_ALL (R317), major 0xE5. -/
  | otinvAll (f : FmtS)
  /-- BTINV_ALL (R318), major 0xE6. -/
  | btinvAll (f : FmtS)
  /-- BTINV_SEQ (R318), major 0xE6. -/
  | btinvSeq (f : FmtS)
  /-- IDLE (R319), major 0xE7. -/
  | idle (f : FmtS)
  /-- YIELD (R320), major 0xE8. -/
  | yield (f : FmtS)
  /-- REMAIN (R321), major 0xE9. -/
  | remain (f : FmtS)
  /-- CFGBANK_CACHE (R322), major 0xEA. -/
  | cfgbankCache (f : FmtS)
  /-- CFGBANK_SCRATCH (R322), major 0xEA. -/
  | cfgbankScratch (f : FmtS)
  /-- CFGBANK_FIFO (R322), major 0xEA. -/
  | cfgbankFifo (f : FmtS)
  /-- Event MXMUL_ENTRY (R264). -/
  | mxmulEntry (c : CoreId)
  /-- Event LEASE_GRANT (R148). -/
  | leaseGrant (cl : ClusterId)
  /-- Event LEASE_TIMEOUT (R148). -/
  | leaseTimeout (cl : ClusterId)
  /-- Event BANK_MODE_COMPLETE (R80). -/
  | bankModeComplete (cl : ClusterId) (bank : Nat)
  /-- Event ENGINE_ENTRY_START (R277). -/
  | engineEntryStart (q : QueueId)
  /-- Event ENGINE_ENTRY_COMPLETE (R122). -/
  | engineEntryComplete (q : QueueId)
  /-- Event HALO_FACE_ARRIVAL (R285). -/
  | haloFaceArrival (q : QueueId) (dir : Nat)
  /-- Event RESHD_RENDEZVOUS (R286). -/
  | reshdRendezvous (pid : BitVec 32) (oid : BitVec 32)
  /-- Event RESHD_INST_RENDEZVOUS (R287). -/
  | reshdInstRendezvous (pid : BitVec 32) (oid : BitVec 32)
  /-- Event SENDT_FIRE (R289). -/
  | sendtFire (sl : SlabId)
  /-- Event ATTN_PAGE (R298). -/
  | attnPage (cl : ClusterId)
  /-- Event TIERMISS (R299). -/
  | tiermiss (cl : ClusterId)
  /-- Event FRAME (R337). -/
  | frame (qp : Nat) (h : BitVec 256)
  /-- Event HOST_LAUNCH (R356). -/
  | hostLaunch (qp : Nat) (h : BitVec 256) (packet : BitVec 2048)
  /-- Event LAUNCH_ACCEPT (R137). -/
  | launchAccept (pid : BitVec 32)
  /-- Event LAUNCH_EVALUATE (R137). -/
  | launchEvaluate (pid : BitVec 32) (die : DieId) (lseq : BitVec 32)
  /-- Event DEPENDENCE_REPORT (R142). -/
  | dependenceReport (sl : SlabId) (lseq : BitVec 32) (i : Nat)
  /-- Event CREW_PLACE (R145). -/
  | crewPlace (sl : SlabId)
  /-- Event TASK_START (R139). -/
  | taskStart (cl : ClusterId) (lseq : BitVec 32) (crew : Nat)
  /-- Event STRATUM_END (R152). -/
  | stratumEnd (pid : BitVec 32) (die : DieId) (lseq : BitVec 32)
  /-- Event LAUNCH_COMPLETE (R152). -/
  | launchComplete (pid : BitVec 32) (lseq : BitVec 32)
  /-- Event TOKEN_REFILL (R144). -/
  | tokenRefill (sl : SlabId)
  /-- Event SKIP_BLOCK (R145). -/
  | skipBlock (sl : SlabId) (lseq : BitVec 32)
  /-- Event RESIDENCY (R150). -/
  | residency (pid : BitVec 32) (die : DieId) (lseq : BitVec 32)
  /-- Event PREEMPT (R330). -/
  | preempt (sl : SlabId) (lseq : BitVec 32)
  /-- Event DRAIN_WINDOW_EXPIRY (R330). -/
  | drainWindowExpiry (cl : ClusterId) (lseq : BitVec 32) (crew : Nat)
  /-- Event CHECKPOINT (R331). -/
  | checkpoint (cl : ClusterId) (lseq : BitVec 32) (crew : Nat)
  /-- Event CREW_RESTORE (R332). -/
  | crewRestore (sl : SlabId)
  /-- Event WATCHDOG (R325). -/
  | watchdog (c : CoreId) (x : Strand)
  /-- Event WATCHDOG_ENGINE (R325). -/
  | watchdogEngine (q : QueueId)
  /-- Event FAULT_RECORD_POST (R329). -/
  | faultRecordPost (sl : SlabId)
  /-- Event SUPERVISOR_RESTART (R323). -/
  | supervisorRestart (sl : SlabId)
  /-- Event WALK_COMPLETE (R75). -/
  | walkComplete (c : CoreId) (oid : BitVec 32) (facet : DieId) (ext : Nat)
  /-- Event HELD_ACCESS_PROCEED (R92). -/
  | heldAccessProceed (c : CoreId) (x : Strand)
  /-- Event SIDE_LOG_REPLAY (R93). -/
  | sideLogReplay (c : CoreId)
  /-- Event LINE_FILL (R90). -/
  | lineFill (key : LineKey) (victim : Option LineKey)
  /-- Event EXTENT_MIGRATION (R99). -/
  | extentMigration (pid : BitVec 32) (oid : BitVec 32) (ext : Nat) (dest : BitVec 64)
  /-- Event MIGRATION_WINDOW (R98). -/
  | migrationWindow (pid : BitVec 32)
  /-- Event WRITE (R347). -/
  | write (src : DieId) (dst : DieId)
  /-- Event READ (R346). -/
  | read (src : DieId) (dst : DieId)
  /-- Event RDATA (R346). -/
  | rdata (src : DieId) (dst : DieId)
  /-- Event ATOMIC (R346). -/
  | atomic (src : DieId) (dst : DieId)
  /-- Event ARESP (R346). -/
  | aresp (src : DieId) (dst : DieId)
  /-- Event ACK (R349). -/
  | ack (src : DieId) (dst : DieId)
  /-- Event REFUSE (R350). -/
  | refuse (src : DieId) (dst : DieId)
  /-- Event BUSY (R350). -/
  | busy (src : DieId) (dst : DieId)
  /-- Event BUSY_RESEND (R350). -/
  | busyResend (src : DieId) (dst : DieId)
  /-- Event DEMAND (R351). -/
  | demand (src : DieId) (dst : DieId)
  /-- Event GRANT (R351). -/
  | grant (src : DieId) (dst : DieId)
  /-- Event GRANT_EXPIRY (R351). -/
  | grantExpiry (src : DieId) (dst : DieId)
  /-- Event FLAG (R352). -/
  | flag (src : DieId) (dst : DieId)
  /-- Event SEMADD (R352). -/
  | semadd (src : DieId) (dst : DieId)
  /-- Event FORWARD (R352). -/
  | forward (src : DieId) (dst : DieId)
  /-- Event STREAM (R291). -/
  | stream (src : DieId) (dst : DieId)
  /-- Event MGMT (R363). -/
  | mgmt (src : DieId) (dst : DieId)
  /-- Event REGMR (R356). -/
  | regmr (qp : Nat) (h : BitVec 256)
  /-- Event DEREGMR (R356). -/
  | deregmr (qp : Nat) (h : BitVec 256)
  /-- Event RESYNC (R361). -/
  | resync (qp : Option Nat) (pkg : DieId) (h : BitVec 256)
  /-- Event NOP (R356). -/
  | nop (qp : Nat) (h : BitVec 256)
  /-- Event PACT_CREATE (R33). -/
  | pactCreate (qp : Option Nat) (pkg : DieId) (h : BitVec 256)
  /-- Event PACT_RESIZE (R34). -/
  | pactResize (qp : Option Nat) (pkg : DieId) (h : BitVec 256)
  /-- Event PACT_CORE_RESET (R31). -/
  | pactCoreReset (qp : Option Nat) (pkg : DieId) (h : BitVec 256)
  /-- Event PACT_UNCORE_RESET (R32). -/
  | pactUncoreReset (qp : Option Nat) (pkg : DieId) (h : BitVec 256)
  /-- Event PACT_DESTROY (R358). -/
  | pactDestroy (qp : Option Nat) (pkg : DieId) (h : BitVec 256)
  /-- Event PARTITION_DRAIN_DONE (R33). -/
  | partitionDrainDone (pid : BitVec 32)
  /-- Event SCRUB_COMPLETE (R33). -/
  | scrubComplete (pid : BitVec 32) (secret : BitVec 384)
  /-- Event MARK_ADMIN (R358). -/
  | markAdmin (pkg : DieId) (qp : Nat)
  /-- Event FIRMWARE_DELIVERY (R367). -/
  | firmwareDelivery (pkg : DieId) (img : FwImage)
  /-- Event SVN_FLOOR_RAISE (R366). -/
  | svnFloorRaise (pkg : DieId) (svn : BitVec 32)
  /-- Event PACKAGE_RESET (R363). -/
  | packageReset (pkg : DieId) (wrap : BitVec 3) (dieFail : BitVec 8)
  /-- Event UNCORRECTABLE_ERROR (R333). -/
  | uncorrectableError (die : DieId) (unit : Nat) (index : Nat)
  /-- Event POWER_CAP (R374). -/
  | powerCap (pkg : DieId) (watts : Nat)
  /-- Event POWER_CAP_TICK (R374). -/
  | powerCapTick (pkg : DieId) (drawn : Nat)
  /-- Event CLOCK_REPORT (R376). -/
  | clockReport (pkg : DieId) (other : DieId) (mhz : Nat)
  /-- Event THERMAL_TRIP (R375). -/
  | thermalTrip (pkg : DieId) (celsius : Nat) (lowFlow : Bool)
  /-- Event MATRIX_ENTRY_COMPLETE (R259). -/
  | matrixEntryComplete (c : CoreId)
  /-- Event RESULT_LANDING (R166). -/
  | resultLanding (c : CoreId)
  /-- Event CORRECTED_ERROR (R333). -/
  | correctedError (die : DieId) (unit : Nat) (index : Nat)
  /-- Event CNP (R354). -/
  | cnp (pkg : DieId) (qp : Nat)
  /-- Event INVALID_REQUEST (R354). -/
  | invalidRequest (pkg : DieId) (qp : Nat)
  /-- Event UNKNOWN_OP (R356), with the whole command: its header in bits 255:0, a body behind it. -/
  | unknownOp (qp : Nat) (cmd : BitVec 2304)
  /-- Event SECURED_SESSION_OPEN (R360). -/
  | securedSessionOpen (pkg : DieId) (cert : BitVec 384)
  deriving DecidableEq, Repr

end Sys2Proof
end

