-- ==== Sys2Proof/Machine/Fields.lean ====
section
/-! DEFINITION. The decode checks of R173 on the fields of a form: check 4 (strand), check 5 (feature group), checks 6
and 7 (register fields, zero fields, codes, minimum latency). Privilege (R171, R308) depends on the task and stands
with the operations. -/

namespace Sys2Proof.Machine

/-- The register kinds of R156 and the pair forms of R206 and R230. -/
inductive Kind
  | no | g | gnz | c | cb | p | t | pair | ev | v | V | V2
  deriving DecidableEq, Repr

/-- A field value lies in the range of its kind (R156, R206, R227, R230). -/
def kindOk (k : Kind) (r : BitVec 6) : Bool :=
  match k with
  | .no => r == 0
  | .g => decide (r.toNat < 32)
  | .gnz => decide (0 < r.toNat ∧ r.toNat < 32)
  | .c => decide (r.toNat < 16)
  | .cb => decide (r.toNat < 12)
  | .p => decide (r.toNat < 8)
  | .t => decide (r.toNat < 8)
  | .pair => decide (r.toNat % 2 = 0 ∧ 2 ≤ r.toNat ∧ r.toNat ≤ 30)
  | .ev => decide (r.toNat % 4 = 0 ∧ 4 ≤ r.toNat ∧ r.toNat ≤ 28)
  | .v => decide (r.toNat < 40)
  | .V => decide (r.toNat < 32)
  | .V2 => decide (r.toNat % 2 = 0 ∧ r.toNat < 32)

/-- Element width in bits of a format code; 0 for the reserved code (R36). -/
def fmtWidth (c : BitVec 4) : Nat :=
  match c.toNat with
  | 0 => 64 | 1 => 32 | 2 => 16 | 3 => 16 | 4 => 8 | 5 => 8 | 6 => 4 | 7 => 0
  | 8 => 8 | 9 => 16 | 10 => 32 | 11 => 64 | 12 => 8 | 13 => 16 | 14 => 32 | _ => 64

/-- Integer type codes (R36). -/
def intTy (c : BitVec 4) : Bool := decide (8 ≤ c.toNat)
/-- Every code but the reserved one (R230). -/
def anyFmt (c : BitVec 4) : Bool := c != 7
/-- The types of AMO, CAS and CASV (R206). -/
def amoTy (c : BitVec 4) : Bool := c == 0xA || c == 0xB || c == 0xE || c == 0xF
/-- No ordering kind admitted (R107). -/
def noOrd (o : BitVec 2) : Bool := o == 0
/-- Every ordering kind admitted (R107). -/
def anyOrd (_ : BitVec 2) : Bool := true

/-- The scope rule of R160. -/
def scopeOk (ord : BitVec 2) (scope : BitVec 3) : Bool :=
  if ord == 0 then scope == 0 else decide (scope.toNat ≤ 4)

def rForm (d a b c : Kind) (ty : BitVec 4 → Bool) (fn : BitVec 8) (f : FmtR) : Bool :=
  kindOk d f.dst && kindOk a f.sa && kindOk b f.sb && kindOk c f.sc && ty f.ty && f.fn == fn && f.zero == 0

/-- Scalar queue forms: fn is the queue number (R193). -/
def qForm (d a : Kind) (f : FmtR) : Bool :=
  kindOk d f.dst && kindOk a f.sa && f.sb == 0 && f.sc == 0 && f.ty == 0 && decide (f.fn.toNat < 4) && f.zero == 0

def iForm (d a : Kind) (ty : BitVec 4 → Bool) (fn : BitVec 8) (f : FmtI) : Bool :=
  kindOk d f.dst && kindOk a f.sa && ty f.ty && f.fn == fn

def bForm (d a b : Kind) (f : FmtB) : Bool :=
  kindOk d f.dst && kindOk a f.sa && kindOk b f.sb && f.zero == 0

def mForm (d : Kind) (ty : BitVec 4 → Bool) (ord : BitVec 2 → Bool) (fn : BitVec 5 → Bool) (f : FmtM) : Bool :=
  kindOk d f.dst && kindOk .c f.sa && kindOk .g f.sb && ty f.ty && ord f.ord && scopeOk f.ord f.scope && fn f.fn

def sForm (d a : Kind) (ord : BitVec 2 → Bool) (fn : BitVec 3) (imm : BitVec 24 → Bool) (f : FmtS) : Bool :=
  kindOk d f.dst && kindOk a f.sa && ord f.ord && scopeOk f.ord f.scope && f.fn == fn && imm f.imm

def eForm (a b c : Kind) (fn : BitVec 4 → Bool) (f : FmtE) : Bool :=
  kindOk .g f.dst && kindOk a f.sa && kindOk b f.sb && kindOk c f.sc && fn f.fn &&
  (f.wv == 1 || (f.wsem == 0 && f.wcnt == 0)) && (f.sv == 1 || f.ssem == 0)

/-- R166: lat at or above the minimum; zero in forms without one. -/
def latOk (min : Option Nat) (lat : BitVec 5) : Bool :=
  match min with
  | none => lat == 0
  | some m => decide (m ≤ lat.toNat)

/-- What aux holds: a slice selector, the form's own field, or nothing (R162, R231). -/
inductive Aux
  | slice | own | nil
  deriving DecidableEq, Repr

/-- A vector operand field that names a tile slice (R162). -/
def namesSlice (k : Kind) (r : BitVec 6) : Bool := k == .v && decide (32 ≤ r.toNat)

def sliceCount (d a b c : Kind) (f : FmtV) : Nat :=
  (namesSlice d f.dst).toNat + (namesSlice a f.sa).toNat + (namesSlice b f.sb).toNat + (namesSlice c f.sc).toNat

def vForm (d a b c : Kind) (fmt : BitVec 4 → Bool) (rm : BitVec 3 → Bool) (fn : BitVec 5 → Bool) (aux : Aux)
    (pred : Bool) (lat : Option Nat) (f : FmtV) : Bool :=
  kindOk d f.dst && kindOk a f.sa && kindOk b f.sb && kindOk c f.sc && fmt f.fmt && rm f.rm && fn f.fn &&
  (pred || f.pred == 0) && latOk lat f.lat &&
  (match aux with
   | .own => true
   | .nil => f.aux == 0
   | .slice =>
     decide (sliceCount d a b c f ≤ 1) &&
     (if sliceCount d a b c f == 1 then f.aux.extractLsb' 10 1 == 0 else f.aux == 0))

def tForm (d a b c : Kind) (fn : BitVec 3) (lat : Option Nat) (f : FmtT) : Bool :=
  kindOk d f.dst && kindOk a f.sa && kindOk b f.sb && kindOk c f.sc && f.fn == fn && latOk lat f.lat

/-- Forms without formats. -/
def z3 (f : FmtT) : Bool := f.fa == 0 && f.fb == 0
/-- Forms on one accumulator format, FP64 or FP32 (R260). -/
def accFmt (f : FmtT) : Bool := (f.fa == 0 || f.fa == 1) && f.fb == 0
/-- The shared fields of MXMUL and MXMULC (R260). -/
def mxForm (f : FmtT) : Bool :=
  f.dst == 0 && kindOk .g f.sa && kindOk .g f.sb && f.sc == 0 && f.lat == 0 && decide (f.fn.toNat ≤ 1) &&
  decide (1 ≤ f.imm.toNat ∧ f.imm.toNat ≤ 4096)
def mxNarrow (c : BitVec 4) : Bool := decide (2 ≤ c.toNat ∧ c.toNat ≤ 6)
/-- Format pairs of MXMUL (R262). -/
def mxFmts (a b : BitVec 4) : Bool := (mxNarrow a && mxNarrow b) || (a == 0 && b == 0)
/-- Format pairs of MXMULC (R265). -/
def mxcFmts (a b : BitVec 4) : Bool := ((a == 2 || a == 3) && (b == 2 || b == 3)) || (a == 0 && b == 0)

/-- Lanes of a format in a vector register (R228). -/
def lanes (c : BitVec 4) : Nat := if c == 7 then 0 else 1024 / fmtWidth c
/-- Floating format codes (R36). -/
def isFloat (c : BitVec 4) : Bool := decide (c.toNat ≤ 6)

/-- VCVT: source format, part, .sat and rounding mode (R237, R238). -/
def vcvtOk (f : FmtV) : Bool :=
  let s := f.aux.extractLsb' 0 4
  let d := f.fmt
  let bothInt := intTy s && intTy d
  anyFmt s && s != 6 && f.aux.extractLsb' 4 8 == 0 &&
  decide (f.fn.toNat % 8 < max (lanes s) (lanes d) / min (lanes s) (lanes d)) &&
  (decide (f.fn.toNat < 8) || bothInt) &&
  (if bothInt then f.rm == 0
   else decide (f.rm.toNat ≤ 3) || (f.rm == 4 && isFloat s && (d == 4 || d == 5)))

/-- VCMP: conditions 6 and 7 are for floating formats, .any for lanes narrower than 32 bits (R241). -/
def vcmpOk (f : FmtV) : Bool :=
  (isFloat f.fmt || decide (f.fn.toNat % 16 < 6)) && (decide (f.fn.toNat < 16) || decide (fmtWidth f.fmt < 32))

/-- VINS and VEXT: the lane index in aux (R246). -/
def laneIdxOk (f : FmtV) : Bool :=
  if f.fn == 0 then decide (f.aux.toNat < lanes f.fmt) && decide (f.aux.toNat < 256) else f.aux == 0

/-- The csr numbers that name a register (R174, R308). -/
def csrNamed (c : BitVec 12) : Bool :=
  decide (c.toNat ≤ 4) || c == 8 || c == 9 || c == 0x10 || decide (0x100 ≤ c.toNat ∧ c.toNat ≤ 0x106)
/-- The registers that some task may write (R174, R308). -/
def csrWritable (c : BitVec 12) : Bool :=
  c == 8 || c == 9 || c == 0x10 || c == 0x100 || c == 0x101 || c == 0x102 || c == 0x103 || c == 0x105
/-- The registers whose write is a row of its own in the table of operations. -/
def csrwOwn (c : BitVec 12) : Bool := c == 9 || c == 0x10 || c == 0x102 || c == 0x103 || c == 0x105

/-- Checks 6 and 7 of R173 on the fields of a form; an event has no fields to check. -/
def fieldsOk (i : Instr) : Bool :=
  match i with
  | .add f => rForm .g .g .g .no intTy 0 f
  | .addi f => iForm .g .g intTy 0 f
  | .sub f => rForm .g .g .g .no intTy 0 f
  | .mul f => rForm .g .g .g .no intTy 0 f
  | .mulh f => rForm .g .g .g .no intTy 0 f
  | .mulhz f => rForm .g .g .g .no intTy 0 f
  | .div f => rForm .g .g .g .no intTy 0 f
  | .divz f => rForm .g .g .g .no intTy 0 f
  | .rem f => rForm .g .g .g .no intTy 0 f
  | .remz f => rForm .g .g .g .no intTy 0 f
  | .and f => rForm .g .g .g .no intTy 0 f
  | .andi f => iForm .g .g intTy 0 f
  | .or f => rForm .g .g .g .no intTy 0 f
  | .ori f => iForm .g .g intTy 0 f
  | .xor f => rForm .g .g .g .no intTy 0 f
  | .xori f => iForm .g .g intTy 0 f
  | .shl f => rForm .g .g .g .no intTy 0 f
  | .shli f => iForm .g .g intTy 0 f && decide (f.imm.toNat < fmtWidth f.ty)
  | .shr f => rForm .g .g .g .no intTy 0 f
  | .shri f => iForm .g .g intTy 0 f && decide (f.imm.toNat < fmtWidth f.ty)
  | .sra f => rForm .g .g .g .no intTy 0 f
  | .srai f => iForm .g .g intTy 0 f && decide (f.imm.toNat < fmtWidth f.ty)
  | .min f => rForm .g .g .g .no intTy 0 f
  | .max f => rForm .g .g .g .no intTy 0 f
  | .minz f => rForm .g .g .g .no intTy 0 f
  | .maxz f => rForm .g .g .g .no intTy 0 f
  | .slt f => rForm .g .g .g .no intTy 0 f
  | .sltz f => rForm .g .g .g .no intTy 0 f
  | .seq f => rForm .g .g .g .no intTy 0 f
  | .sel f => rForm .g .g .g .g intTy 0 f
  | .clz f => rForm .g .g .no .no intTy 0 f
  | .ctz f => rForm .g .g .no .no intTy 1 f
  | .popc f => rForm .g .g .no .no intTy 2 f
  | .mov f => rForm .g .g .no .no intTy 3 f
  | .ext f => rForm .g .g .g .no intTy 4 f
  | .li f => iForm .g .no intTy 0 f
  | .lih f => iForm .g .no (fun c => c == 0xB || c == 0xF) 1 f
  | .bc f => bForm .no .g .g f && decide (f.cond.toNat ≤ 5)
  | .j f => bForm .no .g .no f && f.cond == 0
  | .call f => bForm .g .g .no f && f.cond == 0
  | .ret f => bForm .no .gnz .no f && f.cond == 0
  | .loopb f => bForm .g .no .no f && f.cond == 0
  | .loope f => bForm .no .no .no f && f.cond == 0
  | .bqp f => bForm .no .no .no f && f.cond == 0
  | .endS f => rForm .no .no .no .no (· == 0) 0 f
  | .qpush f => qForm .no .g f
  | .qpop f => qForm .g .no f
  | .qpeek f => qForm .g .no f
  | .qcnt f => qForm .g .no f
  | .bqpush f => rForm .no .g .no .no (· == 0) 0 f
  | .vpopq f => vForm .v .no .no .no anyFmt (· == 0) (· == 0) .slice true (some 2) f
  | .vpushq f => vForm .no .v .no .no (· == 0) (· == 0) (· == 0) .slice false none f
  | .cld f => mForm .c (· == 0) noOrd (· == 0) f
  | .cst f => mForm .c (· == 0) noOrd (· == 0) f
  | .cnarrow f => rForm .c .c .g .g (· == 0) 0 f
  | .crights f => rForm .c .c .g .no (· == 0) 0 f
  | .coff f => rForm .c .c .g .no (· == 0) 0 f
  | .cget f => rForm .g .c .g .no (· == 0) 0 f
  | .clgen f => rForm .c .c .no .no (· == 0) 0 f
  | .ld f => mForm .g intTy noOrd (· == 0) f
  | .st f => mForm .g intTy noOrd (· == 0) f
  | .ldt f => mForm .no (· != 7) noOrd (· == 0) f
  | .stt f => mForm .no (· != 7) noOrd (· == 0) f
  | .pfL1 f => mForm .no (· == 0) noOrd (· == 0) f
  | .pfL2 f => mForm .no (· == 0) noOrd (· == 1) f
  | .cboClean f => mForm .no (· == 0) noOrd (· == 0) f
  | .cboInval f => mForm .no (· == 0) noOrd (· == 1) f
  | .cboFlush f => mForm .no (· == 0) noOrd (· == 2) f
  | .otqAttr f => mForm .g (· == 0) noOrd (· == 0) f
  | .otqCnt f => mForm .pair (· == 0) noOrd (· == 1) f
  | .otqDims f => mForm .pair (· == 0) noOrd (· == 2) f
  | .otqLayout f => mForm .g (· == 0) noOrd (· == 3) f
  | .otqPlanes f => mForm .g (· == 0) noOrd (· == 4) f
  | .otqExt f => mForm .g (· == 0) noOrd (· == 5) f
  | .ldv f => mForm .pair intTy noOrd (· == 0) f
  | .vals f => mForm .g (· == 0) (· == 1) (fun n => decide (n.toNat < 8)) f
  | .amo f => mForm .g amoTy anyOrd (fun n => decide (n.toNat ≤ 8)) f
  | .amoReduce f => mForm .g amoTy anyOrd (fun n => decide (16 ≤ n.toNat ∧ n.toNat ≤ 23)) f
  | .amofFadd f => mForm .g (fun c => c == 1 || c == 3) anyOrd (· == 0) f
  | .amofFmax f => mForm .g (fun c => c == 1 || c == 3) anyOrd (· == 1) f
  | .cas f => mForm .pair amoTy anyOrd (· == 0) f
  | .casv f => mForm .pair amoTy anyOrd (· == 0) f
  | .fence f => sForm .no .no (· != 0) 0 (· == 0) f && f.csr == 0
  | .acq f => mForm .g intTy (· == 1) (· == 0) f
  | .rel f => mForm .g intTy (· == 2) (· == 0) f
  | .swait f => sForm .g .g (· == 1) 0 (fun n => decide (n.toNat < 256)) f && f.csr == 0
  | .swaitTake f => sForm .g .g (· == 1) 1 (fun n => decide (n.toNat < 256)) f && f.csr == 0
  | .ssig f => sForm .no .no (· == 2) 0 (fun n => decide (n.toNat < 256)) f && f.csr == 0
  | .sadd f => sForm .g .g (· == 2) 0 (fun n => decide (n.toNat < 256)) f && f.csr == 0
  | .bara f => sForm .g .g (· == 2) 0 (fun n => decide (n.toNat < 64)) f && f.csr == 0
  | .barw f => sForm .no .g (· == 1) 0 (fun n => decide (n.toNat < 64)) f && f.csr == 0
  | .evpop f => sForm .ev .no (· == 1) 0 (· == 0) f && f.csr == 0
  | .evpopPoll f => sForm .ev .no (· == 1) 1 (· == 0) f && f.csr == 0
  | .vadd f => vForm .v .v .v .no (fun c => decide (c.toNat ≤ 3)) (fun r => decide (r.toNat ≤ 3)) (· == 0) .slice true (some 4) f
  | .vsub f => vForm .v .v .v .no (fun c => decide (c.toNat ≤ 3)) (fun r => decide (r.toNat ≤ 3)) (· == 0) .slice true (some 4) f
  | .vmul f => vForm .v .v .v .no (fun c => decide (c.toNat ≤ 3)) (fun r => decide (r.toNat ≤ 3)) (· == 0) .slice true (some 4) f
  | .vfma f => vForm .v .v .v .v (fun c => decide (c.toNat ≤ 3)) (fun r => decide (r.toNat ≤ 3)) (· == 0) .slice true (some 4) f
  | .vfms f => vForm .v .v .v .v (fun c => decide (c.toNat ≤ 3)) (fun r => decide (r.toNat ≤ 3)) (· == 0) .slice true (some 4) f
  | .vnfma f => vForm .v .v .v .v (fun c => decide (c.toNat ≤ 3)) (fun r => decide (r.toNat ≤ 3)) (· == 0) .slice true (some 4) f
  | .vmin f => vForm .v .v .v .no (fun c => decide (c.toNat ≤ 3)) (· == 0) (fun n => decide (n.toNat ≤ 1)) .slice true (some 4) f
  | .vmax f => vForm .v .v .v .no (fun c => decide (c.toNat ≤ 3)) (· == 0) (fun n => decide (n.toNat ≤ 1)) .slice true (some 4) f
  | .vabs f => vForm .v .v .no .no (fun c => decide (c.toNat ≤ 3) || decide (8 ≤ c.toNat ∧ c.toNat ≤ 0xB)) (· == 0) (· == 0) .slice true (some 1) f
  | .vneg f => vForm .v .v .no .no (fun c => decide (c.toNat ≤ 3) || decide (8 ≤ c.toNat ∧ c.toNat ≤ 0xB)) (· == 0) (· == 0) .slice true (some 1) f
  | .vrcp f => vForm .v .v .no .no (fun c => decide (c.toNat ≤ 3)) (· == 0) (· == 0) .slice true (some 8) f
  | .vrsq f => vForm .v .v .no .no (fun c => c == 1 || c == 2 || c == 3) (· == 0) (· == 0) .slice true (some 8) f
  | .vsqrt f => vForm .v .v .no .no (fun c => decide (c.toNat ≤ 3)) (fun r => decide (r.toNat ≤ 3)) (· == 0) .slice true (some 8) f
  | .vexp2 f => vForm .v .v .no .no (fun c => c == 1 || c == 2 || c == 3) (· == 0) (· == 0) .slice true (some 8) f
  | .vlog2 f => vForm .v .v .no .no (fun c => c == 1 || c == 2 || c == 3) (· == 0) (· == 0) .slice true (some 8) f
  | .vtanh f => vForm .v .v .no .no (fun c => c == 1 || c == 2 || c == 3) (· == 0) (· == 0) .slice true (some 8) f
  | .vsin f => vForm .v .v .no .no (fun c => c == 1 || c == 2 || c == 3) (· == 0) (· == 0) .slice true (some 8) f
  | .vcos f => vForm .v .v .no .no (fun c => c == 1 || c == 2 || c == 3) (· == 0) (· == 0) .slice true (some 8) f
  | .vcvt f => vForm .V .V .no .no (fun c => anyFmt c && c != 6) (fun _ => true) (fun n => decide (n.toNat < 16)) .own true (some 4) f && vcvtOk f
  | .vscale f => vForm .v .v .g .no (fun c => decide (c.toNat ≤ 3)) (fun r => decide (r.toNat ≤ 3)) (· == 0) .slice true (some 4) f
  | .vscaleVec f => vForm .v .v .v .no (fun c => decide (c.toNat ≤ 3)) (fun r => decide (r.toNat ≤ 3)) (· == 1) .slice true (some 4) f
  | .vseed f => vForm .no .v .no .no (· == 0) (· == 0) (· == 0) .slice true (some 1) f
  | .vcmp f => vForm .p .v .v .no (fun c => anyFmt c && c != 6) (· == 0) (fun n => decide (n.toNat % 16 < 8)) .slice true (some 2) f && vcmpOk f
  | .vsel f => vForm .v .v .v .no anyFmt (· == 0) (· == 0) .slice true (some 1) f
  | .vand f => vForm .v .v .v .no anyFmt (· == 0) (· == 0) .slice true (some 1) f
  | .vor f => vForm .v .v .v .no anyFmt (· == 0) (· == 0) .slice true (some 1) f
  | .vxor f => vForm .v .v .v .no anyFmt (· == 0) (· == 0) .slice true (some 1) f
  | .vnot f => vForm .v .v .no .no anyFmt (· == 0) (· == 0) .slice true (some 1) f
  | .vshl f => vForm .v .v .v .no intTy (· == 0) (· == 0) .slice true (some 1) f
  | .vshr f => vForm .v .v .v .no intTy (· == 0) (· == 0) .slice true (some 1) f
  | .vsra f => vForm .v .v .v .no intTy (· == 0) (· == 0) .slice true (some 1) f
  | .viadd f => vForm .v .v .v .no intTy (· == 0) (fun n => decide (n.toNat ≤ 1)) .slice true (some 1) f
  | .visub f => vForm .v .v .v .no intTy (· == 0) (fun n => decide (n.toNat ≤ 1)) .slice true (some 1) f
  | .vimul f => vForm .v .v .v .no intTy (· == 0) (fun n => decide (n.toNat ≤ 1)) .slice true (some 3) f
  | .vimin f => vForm .v .v .v .no intTy (· == 0) (· == 0) .slice true (some 1) f
  | .vimax f => vForm .v .v .v .no intTy (· == 0) (· == 0) .slice true (some 1) f
  | .vred f => vForm .v .v .no .no (fun c => decide (c.toNat ≤ 3) || c == 0xA || c == 0xB || c == 0xE || c == 0xF) (fun r => decide (r.toNat ≤ 3)) (fun n => decide (n.toNat < 16 ∧ n.toNat % 8 ≤ 2)) .slice true (some 8) f && (f.rm == 0 || f.fn.toNat % 8 == 0)
  | .vperm f => vForm .v .v .v .v (fun c => anyFmt c && c != 6) (· == 0) (· == 0) .slice true (some 3) f
  | .vbcast f => vForm .v .g .no .no anyFmt (· == 0) (· == 0) .slice true (some 1) f
  | .vbcastLane f => vForm .v .v .g .no anyFmt (· == 0) (· == 1) .slice true (some 1) f
  | .vins f => vForm .V .g (if f.fn == 1 then .g else .no) .no anyFmt (· == 0) (fun n => decide (n.toNat ≤ 1)) .own true (some 1) f && laneIdxOk f
  | .vext f => vForm .g .V (if f.fn == 1 then .g else .no) .no anyFmt (· == 0) (fun n => decide (n.toNat ≤ 1)) .own false (some 1) f && laneIdxOk f
  | .vmov f => vForm .v .v .no .no anyFmt (· == 0) (· == 0) .slice true (some 1) f
  | .vmovP f => vForm .p .v .no .no (· == 0) (· == 0) (· == 1) .slice false (some 1) f
  | .vmovV f => vForm .v .p .no .no (· == 0) (· == 0) (· == 2) .slice false (some 1) f
  | .vlds f => vForm .V .g .no .no anyFmt (· == 0) (· == 0) .own true (some 6) f
  | .vldsFifo f => vForm .V2 .g .no .no (· == 0) (· == 0) (· == 1) .nil false (some 6) f
  | .vsts f => vForm .V .g .no .no anyFmt (· == 0) (· == 0) .own true (some 2) f
  | .vstsFifo f => vForm .V2 .g .no .no (· == 0) (· == 0) (· == 1) .nil false (some 2) f
  | .vldsx f => vForm .V .g .g .no (fun c => anyFmt c && c != 6) (· == 0) (· == 0) .own true (some 6) f
  | .vsmax f => vForm .V2 .v .V .no (· == 1) (· == 0) (· == 0) .slice true (some 8) f
  | .vmerge f => vForm .V2 .V2 .V2 .no (· == 1) (· == 0) (· == 0) .nil true (some 8) f
  | .vquant f => vForm .V2 .v .g .no (fun c => c == 1 || c == 3) (fun r => decide (r.toNat ≤ 4)) (fun n => decide (n.toNat < (if f.fmt == 1 then 8 else 4))) .slice false (some 6) f
  | .vdeq f => vForm .v .v .v .g (fun c => c == 1 || c == 3) (fun r => decide (r.toNat ≤ 3)) (fun n => decide (n.toNat < (if f.fmt == 1 then 8 else 4))) .slice true (some 4) f
  | .mxlease f => tForm .no .no .no .no 0 none f && z3 f && f.imm == 0
  | .mxfree f => tForm .no .no .no .no 0 none f && z3 f && f.imm == 0
  | .mxmul f => mxForm f && mxFmts f.fa f.fb && (!(f.fa == 6 || f.fb == 6) || f.imm.toNat % 16 == 0)
  | .mxmulc f => mxForm f && mxcFmts f.fa f.fb
  | .mxzero f => tForm .no .no .no .no 0 none f && z3 f && f.imm == 0
  | .mxzeroBlk f => tForm .no .g .no .no 1 none f && accFmt f
  | .mxrd f => tForm .t .g .no .no 0 (some 12) f && accFmt f
  | .mxrdBand f => tForm .t .g .g .g 1 (some 12) f && f.fa == 1 && f.fb == 0
  | .mxwr f => tForm .no .g .t .no 0 none f && accFmt f
  | .tld f => tForm .t .g .g .no 0 (some 8) f && z3 f
  | .tst f => tForm .t .g .g .no 0 (some 4) f && z3 f
  | .tsl f => tForm .t .t .g .g 0 (some 2) f && z3 f && f.imm.toNat % 16 == 0
  | .ttran f => tForm .t .t .no .no 0 (some 6) f && (f.fa == 1 || f.fa == 0xA || f.fa == 0xE) && f.fb == 0 && f.imm == 0
  | .cpy f => eForm .c .g .g (· == 0) f
  | .cpySt f => eForm .c .g .g (· == 1) f
  | .cpyl f => eForm .c .g .g (· == 0) f
  | .cpylSt f => eForm .c .g .g (· == 1) f
  | .cpylOo f => eForm .c .g .c (· == 2) f
  | .gath f => eForm .c .g .g (· == 0) f
  | .scat f => eForm .c .g .g (· == 0) f
  | .halo f => eForm .g .g .g (· == 0) f
  | .reshd f => eForm .c .g .no (· == 0) f
  | .reshdInst f => eForm .c .g .no (· == 1) f
  | .send f => eForm (if f.fn == 3 then .no else .c) .g .g (fun n => decide (n.toNat ≤ 3)) f
  | .sendt f => eForm (if f.fn == 3 then .no else .c) .g .g (fun n => decide (n.toNat ≤ 3)) f && f.wv == 1
  | .mcast f => eForm .c .g .g (· == 0) f
  | .recvadd f => eForm .g .g .no (fun n => decide (n.toNat ≤ 2)) f
  | .attn f => eForm .c .g .cb (· == 0) f
  | .attnc f => eForm .c .g .cb (· == 0) f
  | .kvmap f => eForm .c .g .g (· == 0) f
  | .kvmapLen f => eForm .c .g .g (· == 1) f
  | .kvunmap f => eForm .c .g .no (· == 0) f
  | .cursRd f => eForm .g .g .no (· == 0) f
  | .cursPlay f => eForm .g .g .no (· == 1) f
  | .cursGen f => eForm .g .g .no (· == 2) f
  | .cursInit f => eForm .g .g .no (· == 3) f
  | .cursFree f => eForm .g .g .no (· == 4) f
  | .cursRdc f => eForm .g .g .no (· == 5) f
  | .trunc f => eForm .c .g .g (· == 0) f
  | .commit f => eForm .g .g .no (· == 0) f
  | .commitSnap f => eForm .g .g .no (· == 1) f
  | .sinpop f => eForm .g .no .no (· == 0) f
  | .launch f => eForm .c .c .no (· == 0) f
  | .csrrSysFlstat f => sForm .g .no noOrd 0 (· == 0) f && f.csr == 0x104
  | .csrr f => sForm .g .no noOrd 0 (· == 0) f && csrNamed f.csr && f.csr != 0x104
  | .csrwSysCause f => sForm .no .g noOrd 0 (· == 0) f && f.csr == 0x010
  | .csrwSysPrio f => sForm .no .g noOrd 0 (· == 0) f && f.csr == 0x009
  | .csrwSysSave f => sForm .no .g noOrd 0 (· == 0) f && f.csr == 0x105
  | .csrwSysFq f => sForm .no .g noOrd 0 (· == 0) f && f.csr == 0x102
  | .csrwSysFlog f => sForm .no .g noOrd 0 (· == 0) f && f.csr == 0x103
  | .csrw f => sForm .no .g noOrd 0 (· == 0) f && csrWritable f.csr && !csrwOwn f.csr
  | .trap f => sForm .no .g noOrd 0 (fun n => decide (n.toNat < 65536)) f && f.csr == 0
  | .resumeRetry f => sForm .g .g noOrd 0 (fun n => decide (n.toNat % 0x800000 = 0)) f && f.csr == 0
  | .resumeSkip f => sForm .g .g noOrd 1 (fun n => decide (n.toNat % 0x800000 = 0)) f && f.csr == 0
  | .resumeCont f => sForm .g .g noOrd 2 (fun n => decide (n.toNat % 0x800000 = 0)) f && f.csr == 0
  | .resumeKill f => sForm .g .g noOrd 3 (fun n => decide (n.toNat % 0x800000 = 0)) f && f.csr == 0
  | .resumePark f => sForm .g .g noOrd 4 (fun n => decide (n.toNat % 0x800000 < 0x400)) f && f.csr == 0
  | .resumeAbort f => sForm .g .g noOrd 5 (fun n => decide (n.toNat % 0x800000 = 0)) f && f.csr == 0
  | .featTest f => sForm .g .g noOrd 0 (· == 0) f && f.csr == 0
  | .featReq f => sForm .no .g noOrd 1 (· == 0) f && f.csr == 0
  | .otinvExt f => sForm .g .g noOrd 0 (fun _ => true) f && f.csr == 0
  | .otinvObj f => sForm .g .g noOrd 1 (· == 0) f && f.csr == 0
  | .otinvAll f => sForm .g .no noOrd 2 (· == 0) f && f.csr == 0
  | .btinvAll f => sForm .no .no noOrd 0 (· == 0) f && f.csr == 0
  | .btinvSeq f => sForm .no .g noOrd 1 (· == 0) f && f.csr == 0
  | .idle f => sForm .g .g noOrd 0 (· == 0) f && f.csr == 0
  | .yield f => sForm .g .no noOrd 0 (· == 0) f && f.csr == 0
  | .remain f => sForm .no .g noOrd 0 (fun _ => true) f && f.csr == 0
  | .cfgbankCache f => sForm .no .g noOrd 0 (fun n => decide (n.toNat < 512)) f && f.csr == 0
  | .cfgbankScratch f => sForm .no .g noOrd 1 (fun n => decide (n.toNat < 512)) f && f.csr == 0
  | .cfgbankFifo f => sForm .no .g noOrd 2 (fun n => decide (n.toNat < 512)) f && f.csr == 0
  | .mxmulEntry _ => true
  | .leaseGrant _ => true
  | .leaseTimeout _ => true
  | .bankModeComplete _ _ => true
  | .engineEntryStart _ => true
  | .engineEntryComplete _ => true
  | .haloFaceArrival _ _ => true
  | .reshdRendezvous _ _ => true
  | .reshdInstRendezvous _ _ => true
  | .sendtFire _ => true
  | .attnPage _ => true
  | .tiermiss _ => true
  | .frame _ _ => true
  | .hostLaunch _ _ _ => true
  | .launchAccept _ => true
  | .launchEvaluate _ _ _ => true
  | .dependenceReport _ _ _ => true
  | .crewPlace _ => true
  | .taskStart _ _ _ => true
  | .stratumEnd _ _ _ => true
  | .launchComplete _ _ => true
  | .tokenRefill _ => true
  | .skipBlock _ _ => true
  | .residency _ _ _ => true
  | .preempt _ _ => true
  | .drainWindowExpiry _ _ _ => true
  | .checkpoint _ _ _ => true
  | .crewRestore _ => true
  | .watchdog _ _ => true
  | .watchdogEngine _ => true
  | .faultRecordPost _ => true
  | .supervisorRestart _ => true
  | .walkComplete _ _ _ _ => true
  | .heldAccessProceed _ _ => true
  | .sideLogReplay _ => true
  | .lineFill _ _ => true
  | .extentMigration _ _ _ _ => true
  | .migrationWindow _ => true
  | .write _ _ => true
  | .read _ _ => true
  | .rdata _ _ => true
  | .atomic _ _ => true
  | .aresp _ _ => true
  | .ack _ _ => true
  | .refuse _ _ => true
  | .busy _ _ => true
  | .busyResend _ _ => true
  | .demand _ _ => true
  | .grant _ _ => true
  | .grantExpiry _ _ => true
  | .flag _ _ => true
  | .semadd _ _ => true
  | .forward _ _ => true
  | .stream _ _ => true
  | .mgmt _ _ => true
  | .regmr _ _ => true
  | .deregmr _ _ => true
  | .resync _ _ _ => true
  | .nop _ _ => true
  | .pactCreate _ _ _ => true
  | .pactResize _ _ _ => true
  | .pactCoreReset _ _ _ => true
  | .pactUncoreReset _ _ _ => true
  | .pactDestroy _ _ _ => true
  | .partitionDrainDone _ => true
  | .scrubComplete _ _ => true
  | .markAdmin _ _ => true
  | .firmwareDelivery _ _ => true
  | .svnFloorRaise _ _ => true
  | .packageReset _ _ _ => true
  | .uncorrectableError _ _ _ => true
  | .powerCap _ _ => true
  | .powerCapTick _ _ => true
  | .clockReport _ _ _ => true
  | .thermalTrip _ _ _ => true
  | .matrixEntryComplete _ => true
  | .resultLanding _ => true
  | .correctedError _ _ _ => true
  | .cnp _ _ => true
  | .invalidRequest _ _ => true
  | .unknownOp _ _ => true
  | .securedSessionOpen _ _ => true

/-- R170: the queue number a strand may name; `hi` says that the strand's numbers are q2 and q3. -/
def qLegal (fn : BitVec 8) (_ : Strand) (hi : Bool) : Bool :=
  if hi then fn == 2 || fn == 3 else fn == 0 || fn == 1

/-- Check 4 of R173: the strand may execute the form (R169, R170). -/
def strandOk (i : Instr) (x : Strand) : Bool :=
  match i with
  | .add _ => true
  | .addi _ => true
  | .sub _ => true
  | .mul _ => true
  | .mulh _ => true
  | .mulhz _ => true
  | .div _ => true
  | .divz _ => true
  | .rem _ => true
  | .remz _ => true
  | .and _ => true
  | .andi _ => true
  | .or _ => true
  | .ori _ => true
  | .xor _ => true
  | .xori _ => true
  | .shl _ => true
  | .shli _ => true
  | .shr _ => true
  | .shri _ => true
  | .sra _ => true
  | .srai _ => true
  | .min _ => true
  | .max _ => true
  | .minz _ => true
  | .maxz _ => true
  | .slt _ => true
  | .sltz _ => true
  | .seq _ => true
  | .sel _ => true
  | .clz _ => true
  | .ctz _ => true
  | .popc _ => true
  | .mov _ => true
  | .ext _ => true
  | .li _ => true
  | .lih _ => true
  | .bc _ => true
  | .j _ => true
  | .call _ => true
  | .ret _ => true
  | .loopb _ => true
  | .loope _ => true
  | .bqp _ => x == .xs
  | .endS _ => true
  | .qpush f => qLegal f.fn x (x == .xs)
  | .qpop f => qLegal f.fn x (x == .as)
  | .qpeek f => qLegal f.fn x (x == .as)
  | .qcnt _ => true
  | .bqpush _ => x == .as
  | .vpopq _ => x == .xs
  | .vpushq _ => x == .xs
  | .cld _ => x == .as
  | .cst _ => x == .as
  | .cnarrow _ => x == .as
  | .crights _ => x == .as
  | .coff _ => x == .as
  | .cget _ => x == .as
  | .clgen _ => x == .as
  | .ld _ => x == .as
  | .st _ => x == .as
  | .ldt _ => x == .as
  | .stt _ => x == .as
  | .pfL1 _ => x == .as
  | .pfL2 _ => x == .as
  | .cboClean _ => x == .as
  | .cboInval _ => x == .as
  | .cboFlush _ => x == .as
  | .otqAttr _ => x == .as
  | .otqCnt _ => x == .as
  | .otqDims _ => x == .as
  | .otqLayout _ => x == .as
  | .otqPlanes _ => x == .as
  | .otqExt _ => x == .as
  | .ldv _ => x == .as
  | .vals _ => x == .as
  | .amo _ => x == .as
  | .amoReduce _ => x == .as
  | .amofFadd _ => x == .as
  | .amofFmax _ => x == .as
  | .cas _ => x == .as
  | .casv _ => x == .as
  | .fence _ => x == .as
  | .acq _ => x == .as
  | .rel _ => x == .as
  | .swait _ => x == .as
  | .swaitTake _ => x == .as
  | .ssig _ => x == .as
  | .sadd _ => x == .as
  | .bara _ => x == .as
  | .barw _ => x == .as
  | .evpop _ => x == .as
  | .evpopPoll _ => x == .as
  | .vadd _ => x == .xs
  | .vsub _ => x == .xs
  | .vmul _ => x == .xs
  | .vfma _ => x == .xs
  | .vfms _ => x == .xs
  | .vnfma _ => x == .xs
  | .vmin _ => x == .xs
  | .vmax _ => x == .xs
  | .vabs _ => x == .xs
  | .vneg _ => x == .xs
  | .vrcp _ => x == .xs
  | .vrsq _ => x == .xs
  | .vsqrt _ => x == .xs
  | .vexp2 _ => x == .xs
  | .vlog2 _ => x == .xs
  | .vtanh _ => x == .xs
  | .vsin _ => x == .xs
  | .vcos _ => x == .xs
  | .vcvt _ => x == .xs
  | .vscale _ => x == .xs
  | .vscaleVec _ => x == .xs
  | .vseed _ => x == .xs
  | .vcmp _ => x == .xs
  | .vsel _ => x == .xs
  | .vand _ => x == .xs
  | .vor _ => x == .xs
  | .vxor _ => x == .xs
  | .vnot _ => x == .xs
  | .vshl _ => x == .xs
  | .vshr _ => x == .xs
  | .vsra _ => x == .xs
  | .viadd _ => x == .xs
  | .visub _ => x == .xs
  | .vimul _ => x == .xs
  | .vimin _ => x == .xs
  | .vimax _ => x == .xs
  | .vred _ => x == .xs
  | .vperm _ => x == .xs
  | .vbcast _ => x == .xs
  | .vbcastLane _ => x == .xs
  | .vins _ => x == .xs
  | .vext _ => x == .xs
  | .vmov _ => x == .xs
  | .vmovP _ => x == .xs
  | .vmovV _ => x == .xs
  | .vlds _ => x == .xs
  | .vldsFifo _ => x == .xs
  | .vsts _ => x == .xs
  | .vstsFifo _ => x == .xs
  | .vldsx _ => x == .xs
  | .vsmax _ => x == .xs
  | .vmerge _ => x == .xs
  | .vquant _ => x == .xs
  | .vdeq _ => x == .xs
  | .mxlease _ => x == .xs
  | .mxfree _ => x == .xs
  | .mxmul _ => x == .xs
  | .mxmulc _ => x == .xs
  | .mxzero _ => x == .xs
  | .mxzeroBlk _ => x == .xs
  | .mxrd _ => x == .xs
  | .mxrdBand _ => x == .xs
  | .mxwr _ => x == .xs
  | .tld _ => x == .xs
  | .tst _ => x == .xs
  | .tsl _ => x == .xs
  | .ttran _ => x == .xs
  | .cpy _ => x == .as
  | .cpySt _ => x == .as
  | .cpyl _ => x == .as
  | .cpylSt _ => x == .as
  | .cpylOo _ => x == .as
  | .gath _ => x == .as
  | .scat _ => x == .as
  | .halo _ => x == .as
  | .reshd _ => x == .as
  | .reshdInst _ => x == .as
  | .send _ => x == .as
  | .sendt _ => x == .as
  | .mcast _ => x == .as
  | .recvadd _ => x == .as
  | .attn _ => x == .as
  | .attnc _ => x == .as
  | .kvmap _ => x == .as
  | .kvmapLen _ => x == .as
  | .kvunmap _ => x == .as
  | .cursRd _ => x == .as
  | .cursPlay _ => x == .as
  | .cursGen _ => x == .as
  | .cursInit _ => x == .as
  | .cursFree _ => x == .as
  | .cursRdc _ => x == .as
  | .trunc _ => x == .as
  | .commit _ => x == .as
  | .commitSnap _ => x == .as
  | .sinpop _ => x == .as
  | .launch _ => x == .as
  | .csrrSysFlstat _ => true
  | .csrr _ => true
  | .csrwSysCause _ => true
  | .csrwSysPrio _ => true
  | .csrwSysSave _ => true
  | .csrwSysFq _ => true
  | .csrwSysFlog _ => true
  | .csrw _ => true
  | .trap _ => true
  | .resumeRetry _ => x == .as
  | .resumeSkip _ => x == .as
  | .resumeCont _ => x == .as
  | .resumeKill _ => x == .as
  | .resumePark _ => x == .as
  | .resumeAbort _ => x == .as
  | .featTest _ => true
  | .featReq _ => true
  | .otinvExt _ => x == .as
  | .otinvObj _ => x == .as
  | .otinvAll _ => x == .as
  | .btinvAll _ => x == .as
  | .btinvSeq _ => x == .as
  | .idle _ => x == .as
  | .yield _ => x == .as
  | .remain _ => x == .as
  | .cfgbankCache _ => x == .as
  | .cfgbankScratch _ => x == .as
  | .cfgbankFifo _ => x == .as
  | .mxmulEntry _ => true
  | .leaseGrant _ => true
  | .leaseTimeout _ => true
  | .bankModeComplete _ _ => true
  | .engineEntryStart _ => true
  | .engineEntryComplete _ => true
  | .haloFaceArrival _ _ => true
  | .reshdRendezvous _ _ => true
  | .reshdInstRendezvous _ _ => true
  | .sendtFire _ => true
  | .attnPage _ => true
  | .tiermiss _ => true
  | .frame _ _ => true
  | .hostLaunch _ _ _ => true
  | .launchAccept _ => true
  | .launchEvaluate _ _ _ => true
  | .dependenceReport _ _ _ => true
  | .crewPlace _ => true
  | .taskStart _ _ _ => true
  | .stratumEnd _ _ _ => true
  | .launchComplete _ _ => true
  | .tokenRefill _ => true
  | .skipBlock _ _ => true
  | .residency _ _ _ => true
  | .preempt _ _ => true
  | .drainWindowExpiry _ _ _ => true
  | .checkpoint _ _ _ => true
  | .crewRestore _ => true
  | .watchdog _ _ => true
  | .watchdogEngine _ => true
  | .faultRecordPost _ => true
  | .supervisorRestart _ => true
  | .walkComplete _ _ _ _ => true
  | .heldAccessProceed _ _ => true
  | .sideLogReplay _ => true
  | .lineFill _ _ => true
  | .extentMigration _ _ _ _ => true
  | .migrationWindow _ => true
  | .write _ _ => true
  | .read _ _ => true
  | .rdata _ _ => true
  | .atomic _ _ => true
  | .aresp _ _ => true
  | .ack _ _ => true
  | .refuse _ _ => true
  | .busy _ _ => true
  | .busyResend _ _ => true
  | .demand _ _ => true
  | .grant _ _ => true
  | .grantExpiry _ _ => true
  | .flag _ _ => true
  | .semadd _ _ => true
  | .forward _ _ => true
  | .stream _ _ => true
  | .mgmt _ _ => true
  | .regmr _ _ => true
  | .deregmr _ _ => true
  | .resync _ _ _ => true
  | .nop _ _ => true
  | .pactCreate _ _ _ => true
  | .pactResize _ _ _ => true
  | .pactCoreReset _ _ _ => true
  | .pactUncoreReset _ _ _ => true
  | .pactDestroy _ _ _ => true
  | .partitionDrainDone _ => true
  | .scrubComplete _ _ => true
  | .markAdmin _ _ => true
  | .firmwareDelivery _ _ => true
  | .svnFloorRaise _ _ => true
  | .packageReset _ _ _ => true
  | .uncorrectableError _ _ _ => true
  | .powerCap _ _ => true
  | .powerCapTick _ _ => true
  | .clockReport _ _ _ => true
  | .thermalTrip _ _ _ => true
  | .matrixEntryComplete _ => true
  | .resultLanding _ => true
  | .correctedError _ _ _ => true
  | .cnp _ _ => true
  | .invalidRequest _ _ => true
  | .unknownOp _ _ => true
  | .securedSessionOpen _ _ => true

/-- One SYS.FEATURE bit (R172). -/
def bit (n : Nat) : W64 := BitVec.ofNat 64 (2 ^ n)
def bitIf (n : Nat) (b : Bool) : W64 := if b then bit n else 0
/-- The format and rounding groups of a V form: FP4 for code 6, SR for rm 4 (R169, R172). -/
def fmtBits (f : FmtV) : W64 := bitIf 2 (f.fmt == 6) ||| bitIf 8 (f.rm == 4)
/-- The format group of a T form (R169). -/
def tBits (f : FmtT) : W64 := bitIf 2 (f.fa == 6 || f.fb == 6)

/-- The SYS.FEATURE bits that a form needs (check 5 of R173, R169, R172). -/
def featuresOf (i : Instr) : W64 :=
  match i with
  | .add _ => 0
  | .addi _ => 0
  | .sub _ => 0
  | .mul _ => 0
  | .mulh _ => 0
  | .mulhz _ => 0
  | .div _ => 0
  | .divz _ => 0
  | .rem _ => 0
  | .remz _ => 0
  | .and _ => 0
  | .andi _ => 0
  | .or _ => 0
  | .ori _ => 0
  | .xor _ => 0
  | .xori _ => 0
  | .shl _ => 0
  | .shli _ => 0
  | .shr _ => 0
  | .shri _ => 0
  | .sra _ => 0
  | .srai _ => 0
  | .min _ => 0
  | .max _ => 0
  | .minz _ => 0
  | .maxz _ => 0
  | .slt _ => 0
  | .sltz _ => 0
  | .seq _ => 0
  | .sel _ => 0
  | .clz _ => 0
  | .ctz _ => 0
  | .popc _ => 0
  | .mov _ => 0
  | .ext _ => 0
  | .li _ => 0
  | .lih _ => 0
  | .bc _ => 0
  | .j _ => 0
  | .call _ => 0
  | .ret _ => 0
  | .loopb _ => 0
  | .loope _ => 0
  | .bqp _ => 0
  | .endS _ => 0
  | .qpush _ => 0
  | .qpop _ => 0
  | .qpeek _ => 0
  | .qcnt _ => 0
  | .bqpush _ => 0
  | .vpopq f => fmtBits f
  | .vpushq f => fmtBits f
  | .cld _ => 0
  | .cst _ => 0
  | .cnarrow _ => 0
  | .crights _ => 0
  | .coff _ => 0
  | .cget _ => 0
  | .clgen _ => 0
  | .ld _ => 0
  | .st _ => 0
  | .ldt _ => 0
  | .stt _ => 0
  | .pfL1 _ => 0
  | .pfL2 _ => 0
  | .cboClean _ => 0
  | .cboInval _ => 0
  | .cboFlush _ => 0
  | .otqAttr _ => 0
  | .otqCnt _ => 0
  | .otqDims _ => 0
  | .otqLayout _ => 0
  | .otqPlanes _ => 0
  | .otqExt _ => 0
  | .ldv _ => bit 0
  | .vals _ => bit 0
  | .amo _ => 0
  | .amoReduce _ => 0
  | .amofFadd f => bitIf 1 (f.ty != 1)
  | .amofFmax _ => bit 1
  | .cas _ => 0
  | .casv _ => bit 0
  | .fence _ => 0
  | .acq _ => 0
  | .rel _ => 0
  | .swait _ => 0
  | .swaitTake _ => 0
  | .ssig _ => 0
  | .sadd _ => 0
  | .bara _ => 0
  | .barw _ => 0
  | .evpop _ => 0
  | .evpopPoll _ => 0
  | .vadd f => fmtBits f
  | .vsub f => fmtBits f
  | .vmul f => fmtBits f
  | .vfma f => fmtBits f
  | .vfms f => fmtBits f
  | .vnfma f => fmtBits f
  | .vmin f => fmtBits f
  | .vmax f => fmtBits f
  | .vabs f => fmtBits f
  | .vneg f => fmtBits f
  | .vrcp f => fmtBits f
  | .vrsq f => fmtBits f
  | .vsqrt f => fmtBits f
  | .vexp2 f => fmtBits f
  | .vlog2 f => fmtBits f
  | .vtanh f => bit 9 ||| fmtBits f
  | .vsin f => bit 9 ||| fmtBits f
  | .vcos f => bit 9 ||| fmtBits f
  | .vcvt f => fmtBits f ||| bitIf 2 (f.aux.extractLsb' 0 4 == 6)
  | .vscale f => fmtBits f
  | .vscaleVec f => fmtBits f
  | .vseed f => bit 8 ||| fmtBits f
  | .vcmp f => fmtBits f
  | .vsel f => fmtBits f
  | .vand f => fmtBits f
  | .vor f => fmtBits f
  | .vxor f => fmtBits f
  | .vnot f => fmtBits f
  | .vshl f => fmtBits f
  | .vshr f => fmtBits f
  | .vsra f => fmtBits f
  | .viadd f => fmtBits f
  | .visub f => fmtBits f
  | .vimul f => fmtBits f
  | .vimin f => fmtBits f
  | .vimax f => fmtBits f
  | .vred f => fmtBits f
  | .vperm f => fmtBits f
  | .vbcast f => fmtBits f
  | .vbcastLane f => fmtBits f
  | .vins f => fmtBits f
  | .vext f => fmtBits f
  | .vmov f => fmtBits f
  | .vmovP f => fmtBits f
  | .vmovV f => fmtBits f
  | .vlds f => fmtBits f
  | .vldsFifo f => fmtBits f
  | .vsts f => fmtBits f
  | .vstsFifo f => fmtBits f
  | .vldsx f => fmtBits f
  | .vsmax f => fmtBits f
  | .vmerge f => fmtBits f
  | .vquant f => bit 2 ||| fmtBits f
  | .vdeq f => bit 2 ||| fmtBits f
  | .mxlease f => tBits f
  | .mxfree f => tBits f
  | .mxmul f => bitIf 3 (f.fa == 0 || f.fb == 0) ||| tBits f
  | .mxmulc f => bit 4 ||| bitIf 3 (f.fa == 0 || f.fb == 0) ||| tBits f
  | .mxzero f => tBits f
  | .mxzeroBlk f => tBits f
  | .mxrd f => tBits f
  | .mxrdBand f => tBits f
  | .mxwr f => tBits f
  | .tld f => tBits f
  | .tst f => tBits f
  | .tsl f => tBits f
  | .ttran f => tBits f
  | .cpy _ => 0
  | .cpySt _ => 0
  | .cpyl _ => 0
  | .cpylSt _ => 0
  | .cpylOo _ => 0
  | .gath _ => 0
  | .scat _ => 0
  | .halo _ => 0
  | .reshd _ => bit 7
  | .reshdInst _ => bit 7
  | .send _ => 0
  | .sendt _ => 0
  | .mcast _ => 0
  | .recvadd _ => 0
  | .attn _ => bit 6
  | .attnc _ => bit 6
  | .kvmap _ => bit 6
  | .kvmapLen _ => bit 6
  | .kvunmap _ => bit 6
  | .cursRd _ => bit 5
  | .cursPlay _ => bit 5
  | .cursGen _ => bit 5
  | .cursInit _ => bit 5
  | .cursFree _ => bit 5
  | .cursRdc _ => bit 5
  | .trunc _ => bit 5
  | .commit _ => bit 5
  | .commitSnap _ => bit 5
  | .sinpop _ => bit 5
  | .launch _ => 0
  | .csrrSysFlstat _ => 0
  | .csrr _ => 0
  | .csrwSysCause _ => 0
  | .csrwSysPrio _ => 0
  | .csrwSysSave _ => 0
  | .csrwSysFq _ => 0
  | .csrwSysFlog _ => 0
  | .csrw _ => 0
  | .trap _ => 0
  | .resumeRetry _ => 0
  | .resumeSkip _ => 0
  | .resumeCont _ => 0
  | .resumeKill _ => 0
  | .resumePark _ => 0
  | .resumeAbort _ => 0
  | .featTest _ => 0
  | .featReq _ => 0
  | .otinvExt _ => 0
  | .otinvObj _ => 0
  | .otinvAll _ => 0
  | .btinvAll _ => bit 6
  | .btinvSeq _ => bit 6
  | .idle _ => 0
  | .yield _ => 0
  | .remain _ => 0
  | .cfgbankCache _ => 0
  | .cfgbankScratch _ => 0
  | .cfgbankFifo _ => 0
  | .mxmulEntry _ => 0
  | .leaseGrant _ => 0
  | .leaseTimeout _ => 0
  | .bankModeComplete _ _ => 0
  | .engineEntryStart _ => 0
  | .engineEntryComplete _ => 0
  | .haloFaceArrival _ _ => 0
  | .reshdRendezvous _ _ => 0
  | .reshdInstRendezvous _ _ => 0
  | .sendtFire _ => 0
  | .attnPage _ => 0
  | .tiermiss _ => 0
  | .frame _ _ => 0
  | .hostLaunch _ _ _ => 0
  | .launchAccept _ => 0
  | .launchEvaluate _ _ _ => 0
  | .dependenceReport _ _ _ => 0
  | .crewPlace _ => 0
  | .taskStart _ _ _ => 0
  | .stratumEnd _ _ _ => 0
  | .launchComplete _ _ => 0
  | .tokenRefill _ => 0
  | .skipBlock _ _ => 0
  | .residency _ _ _ => 0
  | .preempt _ _ => 0
  | .drainWindowExpiry _ _ _ => 0
  | .checkpoint _ _ _ => 0
  | .crewRestore _ => 0
  | .watchdog _ _ => 0
  | .watchdogEngine _ => 0
  | .faultRecordPost _ => 0
  | .supervisorRestart _ => 0
  | .walkComplete _ _ _ _ => 0
  | .heldAccessProceed _ _ => 0
  | .sideLogReplay _ => 0
  | .lineFill _ _ => 0
  | .extentMigration _ _ _ _ => 0
  | .migrationWindow _ => 0
  | .write _ _ => 0
  | .read _ _ => 0
  | .rdata _ _ => 0
  | .atomic _ _ => 0
  | .aresp _ _ => 0
  | .ack _ _ => 0
  | .refuse _ _ => 0
  | .busy _ _ => 0
  | .busyResend _ _ => 0
  | .demand _ _ => 0
  | .grant _ _ => 0
  | .grantExpiry _ _ => 0
  | .flag _ _ => 0
  | .semadd _ _ => 0
  | .forward _ _ => 0
  | .stream _ _ => 0
  | .mgmt _ _ => 0
  | .regmr _ _ => 0
  | .deregmr _ _ => 0
  | .resync _ _ _ => 0
  | .nop _ _ => 0
  | .pactCreate _ _ _ => 0
  | .pactResize _ _ _ => 0
  | .pactCoreReset _ _ _ => 0
  | .pactUncoreReset _ _ _ => 0
  | .pactDestroy _ _ _ => 0
  | .partitionDrainDone _ => 0
  | .scrubComplete _ _ => 0
  | .markAdmin _ _ => 0
  | .firmwareDelivery _ _ => 0
  | .svnFloorRaise _ _ => 0
  | .packageReset _ _ _ => 0
  | .uncorrectableError _ _ _ => 0
  | .powerCap _ _ => 0
  | .powerCapTick _ _ => 0
  | .clockReport _ _ _ => 0
  | .thermalTrip _ _ _ => 0
  | .matrixEntryComplete _ => 0
  | .resultLanding _ => 0
  | .correctedError _ _ _ => 0
  | .cnp _ _ => 0
  | .invalidRequest _ _ => 0
  | .unknownOp _ _ => 0
  | .securedSessionOpen _ _ => 0

/-- The forms that only the supervisor task executes (R171). -/
def supOnly (i : Instr) : Bool :=
  match i with
  | .resumeRetry _ | .resumeSkip _ | .resumeCont _ | .resumeKill _ | .resumePark _ | .resumeAbort _
  | .otinvExt _ | .otinvObj _ | .otinvAll _ | .reshdInst _
  | .csrwSysCause _ | .csrwSysPrio _ | .csrwSysSave _ | .csrwSysFq _ | .csrwSysFlog _ | .csrrSysFlstat _ => true
  | .csrr f => f.csr == 0x10 || f.csr == 0x102 || f.csr == 0x103 || f.csr == 0x105 || f.csr == 0x106
  | .csrw f => f.csr != 8
  | _ => false

end Sys2Proof.Machine
end

