-- ==== Sys2Proof/Machine/Num.lean ====
section
/-! DEFINITION. Number formats, exact values and rounding (R36 to R50). A value is NaN, an infinity, or a sign with an
exact dyadic magnitude m·2^e; every operation computes exactly and rounds once. -/

namespace Sys2Proof.Machine

/-- An exact value: NaN, ±∞, or (−1)^neg · m · 2^e, zero with its sign. -/
inductive FVal
  | nan
  | inf (neg : Bool)
  | fin (neg : Bool) (m : Nat) (e : Int)
  deriving DecidableEq, Repr

/-- Exponent width, fraction width and bias of a floating format (R37). -/
structure FFmt where
  ew : Nat
  fw : Nat
  bias : Int
  deriving DecidableEq, Repr

def ffmt (c : BitVec 4) : FFmt :=
  match c.toNat with
  | 0 => ⟨11, 52, 1023⟩ | 1 => ⟨8, 23, 127⟩ | 2 => ⟨5, 10, 15⟩ | 3 => ⟨8, 7, 127⟩
  | 4 => ⟨4, 3, 7⟩ | 5 => ⟨5, 2, 15⟩ | _ => ⟨2, 1, 1⟩

/-- The canonical NaN of a format (R37). -/
def canonNaN (c : BitVec 4) : Nat :=
  match c.toNat with
  | 0 => 0x7FF8000000000000 | 1 => 0x7FC00000 | 2 => 0x7E00 | 3 => 0x7FC0 | 4 => 0x7F | 5 => 0x7E | _ => 0

/-- Decode bits exactly (R37); BF16 subnormals are kept here. -/
def decodeRawF (c : BitVec 4) (b : Nat) : FVal :=
  let f := ffmt c
  let frac := b % 2 ^ f.fw
  let ex := b / 2 ^ f.fw % 2 ^ f.ew
  let neg := decide (b / 2 ^ (f.fw + f.ew) % 2 = 1)
  if c = 4 ∧ ex = 15 ∧ frac = 7 then .nan
  else if c ≠ 4 ∧ c ≠ 6 ∧ ex = 2 ^ f.ew - 1 then (if frac = 0 then .inf neg else .nan)
  else if ex = 0 then .fin neg frac (1 - f.bias - f.fw)
  else .fin neg (2 ^ f.fw + frac) ((ex : Int) - f.bias - f.fw)

/-- An arithmetic or conversion input: BF16 subnormals read as zero (R43). -/
def decodeF (c : BitVec 4) (b : Nat) : FVal :=
  match decodeRawF c b with
  | .fin neg m e => if c = 3 ∧ b / 128 % 256 = 0 then .fin neg 0 0 else .fin neg m e
  | v => v

/-- Rounding modes (R44); SR carries its 16 random bits. -/
inductive RM
  | rne | rz | ru | rd
  | sr (rnd : Nat)
  deriving DecidableEq, Repr

def rmOf (r : BitVec 3) (rnd : Nat) : RM :=
  match r.toNat with | 0 => .rne | 1 => .rz | 2 => .ru | 3 => .rd | _ => .sr rnd

/-- m·2^e rounded to an integer multiple of 2^q, as the multiple (R44, R45). -/
def roundAt (rm : RM) (neg : Bool) (m : Nat) (e q : Int) : Nat :=
  if q ≤ e then m * 2 ^ (e - q).toNat
  else
    let k := (q - e).toNat
    let lo := m / 2 ^ k
    let r := m % 2 ^ k
    let up : Bool := match rm with
      | .rne => decide (2 ^ k < 2 * r) || (decide (2 * r = 2 ^ k) && decide (lo % 2 = 1))
      | .rz => false
      | .ru => !neg && decide (r ≠ 0)
      | .rd => neg && decide (r ≠ 0)
      | .sr rnd => decide (2 ^ 16 ≤ 2 ^ 16 * r / 2 ^ k + rnd)
    if up then lo + 1 else lo

/-- The largest finite magnitude's bits (R37). -/
def maxFin (c : BitVec 4) : Nat :=
  let f := ffmt c
  if c = 4 then 0x7E else if c = 6 then 7 else (2 ^ f.ew - 1) * 2 ^ f.fw - 1

/-- The number of bits of m. -/
def bitLen (m : Nat) : Nat := if m = 0 then 0 else Nat.log2 m + 1

/-- Overflow under the mode: infinity or the largest finite value; FP8 and E2M1 saturate (R44, R48). -/
def overflowF (c : BitVec 4) (rm : RM) (neg : Bool) : Nat :=
  let f := ffmt c
  let inf := (2 ^ f.ew - 1) * 2 ^ f.fw
  if 4 ≤ c.toNat then maxFin c
  else match rm with
    | .rne => inf
    | .rz => maxFin c
    | .ru => if neg then maxFin c else inf
    | .rd => if neg then inf else maxFin c
    | .sr _ => maxFin c

/-- The bits of the value rounded once into the format (R42 to R45, R48). -/
def roundF (c : BitVec 4) (rm : RM) (v : FVal) : Nat :=
  let f := ffmt c
  let sgn := fun (neg : Bool) => if neg then 2 ^ (f.ew + f.fw) else 0
  match v with
  | .nan => canonNaN c
  | .inf neg => if c = 4 then canonNaN c else if c = 6 then sgn neg + 7 else sgn neg + (2 ^ f.ew - 1) * 2 ^ f.fw
  | .fin neg 0 _ => sgn neg
  | .fin neg m e =>
    let emin : Int := 1 - f.bias - f.fw
    let qn : Int := e + bitLen m - 1 - f.fw
    let q := if c = 3 then qn else max qn emin
    let r := roundAt rm neg m e q
    -- carry into the next binade keeps the bits right: r may be 2^(fw+1)
    if r = 0 then sgn neg
    else
      let r' := if r = 2 ^ (f.fw + 1) then r / 2 else r
      let q' := if r = 2 ^ (f.fw + 1) then q + 1 else q
      if r' < 2 ^ f.fw then sgn neg + r'
      else
        let ex : Int := q' - emin + 1
        if ex ≤ 0 then sgn neg
        else
          let mag := ex.toNat * 2 ^ f.fw + (r' - 2 ^ f.fw)
          if maxFin c < mag then sgn neg + overflowF c rm neg else sgn neg + mag

/-- A rational magnitude p/q·2^e as a dyadic with a sticky bit below it, precise enough for every format here. -/
def ratVal (neg : Bool) (p q : Nat) (e : Int) : FVal :=
  if p = 0 then .fin neg 0 0
  else
    let k := 140 + bitLen q
    let n := p * 2 ^ k
    .fin neg (2 * (n / q) + (if n % q = 0 then 0 else 1)) (e - k - 1)

/-- Exact sum of two values; an exact zero sum is +0, or −0 under RD, unless both are −0 (R232). -/
def addF (rd : Bool) (x y : FVal) : FVal :=
  match x, y with
  | .nan, _ | _, .nan => .nan
  | .inf a, .inf b => if a = b then .inf a else .nan
  | .inf a, _ => .inf a
  | _, .inf b => .inf b
  | .fin a m e, .fin b n f =>
    if m = 0 ∧ n = 0 then .fin (if a = b then a else rd) 0 0
    else if m = 0 then .fin b n f
    else if n = 0 then .fin a m e
    else
      let q := min e f
      let s : Int := (if a then -1 else 1) * ((m * 2 ^ (e - q).toNat : Nat) : Int) +
                     (if b then -1 else 1) * ((n * 2 ^ (f - q).toNat : Nat) : Int)
      if s = 0 then .fin rd 0 0 else .fin (decide (s < 0)) s.natAbs q

/-- Exact product (R232). -/
def mulF (x y : FVal) : FVal :=
  match x, y with
  | .nan, _ | _, .nan => .nan
  | .inf a, .inf b => .inf (a != b)
  | .inf a, .fin b n _ | .fin b n _, .inf a => if n = 0 then .nan else .inf (a != b)
  | .fin a m e, .fin b n f => .fin (a != b) (m * n) (e + f)

def negF (x : FVal) : FVal :=
  match x with | .nan => .nan | .inf a => .inf (!a) | .fin a m e => .fin (!a) m e
def absF (x : FVal) : FVal :=
  match x with | .nan => .nan | .inf _ => .inf false | .fin _ m e => .fin false m e

/-- Exact order of two values that are not NaN; −0 below +0 when `signedZero`. -/
def ltF (signedZero : Bool) (x y : FVal) : Bool :=
  match x, y with
  | .inf a, .inf b => a && !b
  | .inf a, .fin .. => a
  | .fin .., .inf b => !b
  | .fin a m e, .fin b n f =>
    if m = 0 ∧ n = 0 then signedZero && a && !b
    else
      let q := min e f
      decide ((if a then -1 else 1) * ((m * 2 ^ (e - q).toNat : Nat) : Int) <
              (if b then -1 else 1) * ((n * 2 ^ (f - q).toNat : Nat) : Int))
  | _, _ => false

def isNaN (x : FVal) : Bool := match x with | .nan => true | _ => false

/-- VMIN and VMAX (R233): with `num`, a NaN loses to a number. -/
def minMaxF (mx num : Bool) (x y : FVal) : FVal :=
  if isNaN x && isNaN y then .nan
  else if isNaN x then (if num then y else .nan)
  else if isNaN y then (if num then x else .nan)
  else if mx then (if ltF true x y then y else x) else (if ltF true y x then y else x)

/-- The sign-magnitude integer rounding of a value under rm, saturated to [lo, hi] (R50). -/
def toIntF (rm : RM) (lo hi : Int) (v : FVal) : Int :=
  match v with
  | .nan => 0
  | .inf true => lo
  | .inf false => hi
  | .fin neg m e =>
    let r : Int := roundAt rm neg m e 0
    max lo (min hi (if neg then -r else r))

/-- An exact integer as a value. -/
def ofIntF (i : Int) : FVal := .fin (decide (i < 0)) i.natAbs 0

/-- The range of an integer type (R41). -/
def intLo (c : BitVec 4) : Int := if tySigned c then -(2 ^ (fmtWidth c - 1) : Nat) else 0
def intHi (c : BitVec 4) : Int :=
  if tySigned c then (2 ^ (fmtWidth c - 1) : Nat) - 1 else (2 ^ fmtWidth c : Nat) - 1

/-- RoundFP32 under RNE of an exact value, as a value again. -/
def r32 (v : FVal) : FVal := decodeF 1 (roundF 1 .rne v)
/-- RoundFP64 under RNE. -/
def r64 (v : FVal) : FVal := decodeF 0 (roundF 0 .rne v)

/-- The exact sum of terms, as the array forms it: an exact zero sum is −0 only when every term is −0 (R56). -/
def exactSum (l : List FVal) : FVal :=
  match l with
  | [] => .fin false 0 0
  | x :: r => r.foldl (addF false) x

/-- One generator step (R46). -/
def genStep (s : BitVec 32) : BitVec 32 :=
  let a := s ^^^ (s <<< 13)
  let b := a ^^^ (a >>> 17)
  b ^^^ (b <<< 5)

/-- E3M5 scale value (R39): none for the NaN code. -/
def e3m5 (b : Nat) : Option FVal :=
  if b = 0xFF then none
  else if b / 32 = 0 then some (.fin false (b % 32) (-7))
  else some (.fin false (32 + b % 32) ((b / 32 : Nat) - 8))

/-- The E2M1 element value (R37). -/
def e2m1 (b : Nat) : FVal := decodeRawF 6 (b % 16)

/-- Element times group scale times band scale, exactly (R40). -/
def e2m1Val (elem scale band : Nat) : FVal :=
  match e3m5 scale with
  | none => .nan
  | some g => mulF (mulF (e2m1 elem) g) (decodeF 3 band)

end Sys2Proof.Machine
end

