-- ==== Sys2Proof/Machine/Codec.lean ====
section
/-! DEFINITION. The FP64 block codec (R57 to R62) and the loss it reports (R63, R64). -/

namespace Sys2Proof.Machine

/-- Bits per value of a coding code; 0 when uncoded (R57). -/
def codingRate (c : Nat) : Nat :=
  match c with
  | 1 => 8 | 2 => 12 | 3 => 16 | 4 => 20 | 5 => 24 | 6 => 32 | 7 => 40 | 8 => 48 | 9 => 56 | 10 => 64 | _ => 0

def sar1 (x : Int) : Int := x / 2
/-- Forward4 (R60). -/
def forward4 (x0 x1 x2 x3 : Int) : List Int :=
  let d0 := x0 - x1
  let s0 := x1 + sar1 d0
  let d1 := x2 - x3
  let s1 := x3 + sar1 d1
  let dd := s0 - s1
  [s1 + sar1 dd, dd, d0, d1]
/-- A 64-bit two's-complement pattern read as an integer. -/
def wrap64 (x : Int) : Int := (BitVec.ofInt 64 x).toInt
/-- Inverse4 with wrapping (R60). -/
def inverse4 (ss dd d0 d1 : Int) : List Int :=
  let s1 := wrap64 (ss - sar1 dd)
  let s0 := wrap64 (dd + s1)
  let x3 := wrap64 (s1 - sar1 d1)
  let x2 := wrap64 (d1 + x3)
  let x1 := wrap64 (s0 - sar1 d0)
  [wrap64 (d0 + x1), x1, x2, x3]

def at0 (l : List Int) (i : Nat) : Int := l.getD i 0
def rowsMap (f : Int → Int → Int → Int → List Int) (q : List Int) : List Int :=
  (List.range 4).flatMap fun i => f (at0 q (4 * i)) (at0 q (4 * i + 1)) (at0 q (4 * i + 2)) (at0 q (4 * i + 3))
def transp (q : List Int) : List Int := (List.range 16).map fun k => at0 q (4 * (k % 4) + k / 4)
def colsMap (f : Int → Int → Int → Int → List Int) (q : List Int) : List Int := transp (rowsMap f (transp q))

/-- Order of the coefficients (R61). -/
def coefOrder : List Nat := [0, 4, 1, 5, 8, 2, 12, 3, 9, 6, 13, 7, 10, 14, 11, 15]
def negabin (x : Int) : W64 := ((BitVec.ofInt 64 x) + 0xAAAAAAAAAAAAAAAA) ^^^ 0xAAAAAAAAAAAAAAAA
def unNegabin (w : W64) : Int := ((w ^^^ 0xAAAAAAAAAAAAAAAA) - 0xAAAAAAAAAAAAAAAA).toInt

/-- The coded block as a number of 16·R bits, and the loss position: none for a lossless encode (R59, R64). -/
def encodeBlock (r : Nat) (vals : List Nat) : Nat × Option Int :=
  let mags := vals.map (· % 2 ^ 63)
  if mags.all (· == 0) then (0, none)
  else if mags.any (fun m => decide (0x7FF * 2 ^ 52 ≤ m)) then (1 + 2 * 2047, some 127)
  else
    let emax : Nat := (mags.filter (· != 0)).foldl (fun acc m => max acc (max 1 (m / 2 ^ 52))) 1
    let e : Int := (emax : Int) - 1023
    let conv := vals.map fun v =>
      match decodeF 0 v with
      | .fin neg m ex =>
        let k := ex + (60 - e)
        let t := m * 2 ^ k.toNat / 2 ^ (-k).toNat
        (((if neg then -1 else 1) * (t : Int)), decide (m * 2 ^ k.toNat % 2 ^ (-k).toNat ≠ 0))
      | _ => (0, false)
    let lossC := conv.any (·.2)
    let q := colsMap forward4 (rowsMap forward4 (conv.map (·.1)))
    let ws := coefOrder.map fun i => (negabin (at0 q i)).toNat
    let planes := (List.range 64).map fun j =>
      let p := 63 - j
      (p, ws.zipIdx.map fun (w, n) => (n, w / 2 ^ p % 2))
    let place := planes.foldl (fun (acc : Nat × Option Int) (pl : Nat × List (Nat × Nat)) =>
      pl.2.foldl (fun (a : Nat × Option Int) (nb : Nat × Nat) =>
        let pos := 12 + 16 * (63 - pl.1) + nb.1
        if nb.2 = 0 then a
        else if pos < 16 * r then (a.1 + 2 ^ pos, a.2)
        else (a.1, match a.2 with | none => some ((pl.1 : Int) - 60) | some x => some (max x ((pl.1 : Int) - 60)))) acc)
      ((1 + 2 * emax : Nat), (if lossC then some (-61) else none))
    place

/-- The sixteen values of a coded block (R62). -/
def decodeBlock (r : Nat) (b : Nat) : List Nat :=
  let emax := b / 2 % 2048
  if b % 2 = 0 then List.replicate 16 0
  else if emax = 2047 then List.replicate 16 0x7FF8000000000000
  else
    let e : Int := (max 1 emax : Nat) - (1023 : Int)
    let ws := (List.range 16).map fun n =>
      (List.range 64).foldl (fun acc j =>
        let pos := 12 + 16 * j + n
        if pos < 16 * r ∧ b / 2 ^ pos % 2 = 1 then acc + 2 ^ (63 - j) else acc) 0
    let q := (List.range 16).map fun i =>
      match coefOrder.zipIdx.find? (fun x => x.1 == i) with
      | some (_, n) => unNegabin (BitVec.ofNat 64 (ws.getD n 0))
      | none => 0
    let v := rowsMap inverse4 (colsMap inverse4 q)
    v.map fun x => roundF 0 .rne (.fin (decide (x < 0)) x.natAbs (e - 60))

/-- The decoded line of a coded line of 4·R bytes given as a number (R58, R90). -/
def decodeLine (r : Nat) (n : Nat) : Line :=
  ofLanes 2048 64 (decodeBlock r (n % 2 ^ (16 * r)) ++ decodeBlock r (n / 2 ^ (16 * r)))

end Sys2Proof.Machine
end

