-- ==== Sys2Proof/WellFormed.lean ====
section
/-! DEFINITION. Well-formed instructions: those whose fields pass checks 6 and 7 of R173. -/

namespace Sys2Proof

/-- The fields of the form are admissible (R173, checks 6 and 7). -/
abbrev Instr.WellFormed (i : Instr) : Prop := Machine.fieldsOk i = true

end Sys2Proof
end

