-- ==== Sys2Proof/Decode.lean ====
section
/-! DEFINITION. The decoder, total on words and on bytes, and the encoder (R155 to R165, R169). -/

namespace Sys2Proof

/-- The fields of a format R word (R157). -/
def FmtR.ofWord (w : W64) : FmtR :=
  { dst := w.extractLsb' 50 6, sa := w.extractLsb' 44 6, sb := w.extractLsb' 38 6, sc := w.extractLsb' 32 6, fn := w.extractLsb' 24 8, ty := w.extractLsb' 20 4, zero := w.extractLsb' 0 20 }

/-- The format R word of a major and fields (R157). -/
def FmtR.toWord (major : BitVec 8) (f : FmtR) : W64 :=
  major ++ (f.dst ++ (f.sa ++ (f.sb ++ (f.sc ++ (f.fn ++ (f.ty ++ (f.zero)))))))

/-- The fields of a format I word (R158). -/
def FmtI.ofWord (w : W64) : FmtI :=
  { dst := w.extractLsb' 50 6, sa := w.extractLsb' 44 6, ty := w.extractLsb' 40 4, fn := w.extractLsb' 32 8, imm := w.extractLsb' 0 32 }

/-- The format I word of a major and fields (R158). -/
def FmtI.toWord (major : BitVec 8) (f : FmtI) : W64 :=
  major ++ (f.dst ++ (f.sa ++ (f.ty ++ (f.fn ++ (f.imm)))))

/-- The fields of a format B word (R159). -/
def FmtB.ofWord (w : W64) : FmtB :=
  { dst := w.extractLsb' 50 6, sa := w.extractLsb' 44 6, sb := w.extractLsb' 38 6, cond := w.extractLsb' 34 4, zero := w.extractLsb' 32 2, off := w.extractLsb' 0 32 }

/-- The format B word of a major and fields (R159). -/
def FmtB.toWord (major : BitVec 8) (f : FmtB) : W64 :=
  major ++ (f.dst ++ (f.sa ++ (f.sb ++ (f.cond ++ (f.zero ++ (f.off))))))

/-- The fields of a format M word (R160). -/
def FmtM.ofWord (w : W64) : FmtM :=
  { dst := w.extractLsb' 50 6, sa := w.extractLsb' 44 6, sb := w.extractLsb' 38 6, ty := w.extractLsb' 34 4, ord := w.extractLsb' 32 2, scope := w.extractLsb' 29 3, fn := w.extractLsb' 24 5, disp := w.extractLsb' 0 24 }

/-- The format M word of a major and fields (R160). -/
def FmtM.toWord (major : BitVec 8) (f : FmtM) : W64 :=
  major ++ (f.dst ++ (f.sa ++ (f.sb ++ (f.ty ++ (f.ord ++ (f.scope ++ (f.fn ++ (f.disp))))))))

/-- The fields of a format V word (R161). -/
def FmtV.ofWord (w : W64) : FmtV :=
  { dst := w.extractLsb' 50 6, sa := w.extractLsb' 44 6, sb := w.extractLsb' 38 6, sc := w.extractLsb' 32 6, lat := w.extractLsb' 27 5, pred := w.extractLsb' 24 3, fmt := w.extractLsb' 20 4, rm := w.extractLsb' 17 3, fn := w.extractLsb' 12 5, aux := w.extractLsb' 0 12 }

/-- The format V word of a major and fields (R161). -/
def FmtV.toWord (major : BitVec 8) (f : FmtV) : W64 :=
  major ++ (f.dst ++ (f.sa ++ (f.sb ++ (f.sc ++ (f.lat ++ (f.pred ++ (f.fmt ++ (f.rm ++ (f.fn ++ (f.aux))))))))))

/-- The fields of a format T word (R163). -/
def FmtT.ofWord (w : W64) : FmtT :=
  { dst := w.extractLsb' 50 6, sa := w.extractLsb' 44 6, sb := w.extractLsb' 38 6, sc := w.extractLsb' 32 6, lat := w.extractLsb' 27 5, fa := w.extractLsb' 23 4, fb := w.extractLsb' 19 4, fn := w.extractLsb' 16 3, imm := w.extractLsb' 0 16 }

/-- The format T word of a major and fields (R163). -/
def FmtT.toWord (major : BitVec 8) (f : FmtT) : W64 :=
  major ++ (f.dst ++ (f.sa ++ (f.sb ++ (f.sc ++ (f.lat ++ (f.fa ++ (f.fb ++ (f.fn ++ (f.imm)))))))))

/-- The fields of a format E word (R164). -/
def FmtE.ofWord (w : W64) : FmtE :=
  { dst := w.extractLsb' 50 6, sa := w.extractLsb' 44 6, sb := w.extractLsb' 38 6, sc := w.extractLsb' 32 6, wv := w.extractLsb' 31 1, sv := w.extractLsb' 30 1, wsem := w.extractLsb' 22 8, ssem := w.extractLsb' 14 8, fn := w.extractLsb' 10 4, wcnt := w.extractLsb' 0 10 }

/-- The format E word of a major and fields (R164). -/
def FmtE.toWord (major : BitVec 8) (f : FmtE) : W64 :=
  major ++ (f.dst ++ (f.sa ++ (f.sb ++ (f.sc ++ (f.wv ++ (f.sv ++ (f.wsem ++ (f.ssem ++ (f.fn ++ (f.wcnt))))))))))

/-- The fields of a format S word (R165). -/
def FmtS.ofWord (w : W64) : FmtS :=
  { dst := w.extractLsb' 50 6, sa := w.extractLsb' 44 6, csr := w.extractLsb' 32 12, scope := w.extractLsb' 29 3, ord := w.extractLsb' 27 2, fn := w.extractLsb' 24 3, imm := w.extractLsb' 0 24 }

/-- The format S word of a major and fields (R165). -/
def FmtS.toWord (major : BitVec 8) (f : FmtS) : W64 :=
  major ++ (f.dst ++ (f.sa ++ (f.csr ++ (f.scope ++ (f.ord ++ (f.fn ++ (f.imm)))))))

/-- The form that a major and the word's function select, with its raw fields (R169). -/
def decodeMajor (m : Nat) (w : W64) : Option Instr :=
  match m with
  | 0x00 => some (.add (FmtR.ofWord w))
  | 0x01 => some (.addi (FmtI.ofWord w))
  | 0x02 => some (.sub (FmtR.ofWord w))
  | 0x03 => some (.mul (FmtR.ofWord w))
  | 0x04 => some (.mulh (FmtR.ofWord w))
  | 0x05 => some (.mulhz (FmtR.ofWord w))
  | 0x06 => some (.div (FmtR.ofWord w))
  | 0x07 => some (.divz (FmtR.ofWord w))
  | 0x08 => some (.rem (FmtR.ofWord w))
  | 0x09 => some (.remz (FmtR.ofWord w))
  | 0x0A => some (.and (FmtR.ofWord w))
  | 0x0B => some (.andi (FmtI.ofWord w))
  | 0x0C => some (.or (FmtR.ofWord w))
  | 0x0D => some (.ori (FmtI.ofWord w))
  | 0x0E => some (.xor (FmtR.ofWord w))
  | 0x0F => some (.xori (FmtI.ofWord w))
  | 0x10 => some (.shl (FmtR.ofWord w))
  | 0x11 => some (.shli (FmtI.ofWord w))
  | 0x12 => some (.shr (FmtR.ofWord w))
  | 0x13 => some (.shri (FmtI.ofWord w))
  | 0x14 => some (.sra (FmtR.ofWord w))
  | 0x15 => some (.srai (FmtI.ofWord w))
  | 0x16 => some (.min (FmtR.ofWord w))
  | 0x17 => some (.max (FmtR.ofWord w))
  | 0x18 => some (.minz (FmtR.ofWord w))
  | 0x19 => some (.maxz (FmtR.ofWord w))
  | 0x1A => some (.slt (FmtR.ofWord w))
  | 0x1B => some (.sltz (FmtR.ofWord w))
  | 0x1C => some (.seq (FmtR.ofWord w))
  | 0x1D => some (.sel (FmtR.ofWord w))
  | 0x1E =>
    if (FmtR.ofWord w).fn == 0 then some (.clz (FmtR.ofWord w)) else if (FmtR.ofWord w).fn == 1 then some (.ctz (FmtR.ofWord w)) else if (FmtR.ofWord w).fn == 2 then some (.popc (FmtR.ofWord w)) else if (FmtR.ofWord w).fn == 3 then some (.mov (FmtR.ofWord w)) else if (FmtR.ofWord w).fn == 4 then some (.ext (FmtR.ofWord w)) else none
  | 0x1F =>
    if (FmtI.ofWord w).fn == 0 then some (.li (FmtI.ofWord w)) else if (FmtI.ofWord w).fn == 1 then some (.lih (FmtI.ofWord w)) else none
  | 0x20 => some (.bc (FmtB.ofWord w))
  | 0x21 => some (.j (FmtB.ofWord w))
  | 0x22 => some (.call (FmtB.ofWord w))
  | 0x23 => some (.ret (FmtB.ofWord w))
  | 0x24 => some (.loopb (FmtB.ofWord w))
  | 0x25 => some (.loope (FmtB.ofWord w))
  | 0x26 => some (.bqp (FmtB.ofWord w))
  | 0x27 => some (.endS (FmtR.ofWord w))
  | 0x28 => some (.qpush (FmtR.ofWord w))
  | 0x29 => some (.qpop (FmtR.ofWord w))
  | 0x2A => some (.qpeek (FmtR.ofWord w))
  | 0x2B => some (.qcnt (FmtR.ofWord w))
  | 0x2C => some (.bqpush (FmtR.ofWord w))
  | 0x2D => some (.vpopq (FmtV.ofWord w))
  | 0x2E => some (.vpushq (FmtV.ofWord w))
  | 0x30 => some (.cld (FmtM.ofWord w))
  | 0x31 => some (.cst (FmtM.ofWord w))
  | 0x32 => some (.cnarrow (FmtR.ofWord w))
  | 0x33 => some (.crights (FmtR.ofWord w))
  | 0x34 => some (.coff (FmtR.ofWord w))
  | 0x35 => some (.cget (FmtR.ofWord w))
  | 0x36 => some (.clgen (FmtR.ofWord w))
  | 0x40 => some (.ld (FmtM.ofWord w))
  | 0x41 => some (.st (FmtM.ofWord w))
  | 0x42 => some (.ldt (FmtM.ofWord w))
  | 0x43 => some (.stt (FmtM.ofWord w))
  | 0x44 =>
    if (FmtM.ofWord w).fn == 0 then some (.pfL1 (FmtM.ofWord w)) else if (FmtM.ofWord w).fn == 1 then some (.pfL2 (FmtM.ofWord w)) else none
  | 0x45 =>
    if (FmtM.ofWord w).fn == 0 then some (.cboClean (FmtM.ofWord w)) else if (FmtM.ofWord w).fn == 1 then some (.cboInval (FmtM.ofWord w)) else if (FmtM.ofWord w).fn == 2 then some (.cboFlush (FmtM.ofWord w)) else none
  | 0x46 =>
    if (FmtM.ofWord w).fn == 0 then some (.otqAttr (FmtM.ofWord w)) else if (FmtM.ofWord w).fn == 1 then some (.otqCnt (FmtM.ofWord w)) else if (FmtM.ofWord w).fn == 2 then some (.otqDims (FmtM.ofWord w)) else if (FmtM.ofWord w).fn == 3 then some (.otqLayout (FmtM.ofWord w)) else if (FmtM.ofWord w).fn == 4 then some (.otqPlanes (FmtM.ofWord w)) else if (FmtM.ofWord w).fn == 5 then some (.otqExt (FmtM.ofWord w)) else none
  | 0x47 => some (.ldv (FmtM.ofWord w))
  | 0x48 => some (.vals (FmtM.ofWord w))
  | 0x49 =>
    if (FmtM.ofWord w).fn.toNat ≤ 8 then some (.amo (FmtM.ofWord w)) else if 16 ≤ (FmtM.ofWord w).fn.toNat ∧ (FmtM.ofWord w).fn.toNat ≤ 23 then some (.amoReduce (FmtM.ofWord w)) else none
  | 0x4A =>
    if (FmtM.ofWord w).fn == 0 then some (.amofFadd (FmtM.ofWord w)) else if (FmtM.ofWord w).fn == 1 then some (.amofFmax (FmtM.ofWord w)) else none
  | 0x4B => some (.cas (FmtM.ofWord w))
  | 0x4C => some (.casv (FmtM.ofWord w))
  | 0x4D => some (.fence (FmtS.ofWord w))
  | 0x4E => some (.acq (FmtM.ofWord w))
  | 0x4F => some (.rel (FmtM.ofWord w))
  | 0x50 =>
    if (FmtS.ofWord w).fn == 0 then some (.swait (FmtS.ofWord w)) else if (FmtS.ofWord w).fn == 1 then some (.swaitTake (FmtS.ofWord w)) else none
  | 0x51 => some (.ssig (FmtS.ofWord w))
  | 0x52 => some (.sadd (FmtS.ofWord w))
  | 0x53 => some (.bara (FmtS.ofWord w))
  | 0x54 => some (.barw (FmtS.ofWord w))
  | 0x55 =>
    if (FmtS.ofWord w).fn == 0 then some (.evpop (FmtS.ofWord w)) else if (FmtS.ofWord w).fn == 1 then some (.evpopPoll (FmtS.ofWord w)) else none
  | 0x60 => some (.vadd (FmtV.ofWord w))
  | 0x61 => some (.vsub (FmtV.ofWord w))
  | 0x62 => some (.vmul (FmtV.ofWord w))
  | 0x63 => some (.vfma (FmtV.ofWord w))
  | 0x64 => some (.vfms (FmtV.ofWord w))
  | 0x65 => some (.vnfma (FmtV.ofWord w))
  | 0x66 => some (.vmin (FmtV.ofWord w))
  | 0x67 => some (.vmax (FmtV.ofWord w))
  | 0x68 => some (.vabs (FmtV.ofWord w))
  | 0x69 => some (.vneg (FmtV.ofWord w))
  | 0x6A => some (.vrcp (FmtV.ofWord w))
  | 0x6B => some (.vrsq (FmtV.ofWord w))
  | 0x6C => some (.vsqrt (FmtV.ofWord w))
  | 0x6D => some (.vexp2 (FmtV.ofWord w))
  | 0x6E => some (.vlog2 (FmtV.ofWord w))
  | 0x6F => some (.vtanh (FmtV.ofWord w))
  | 0x70 => some (.vsin (FmtV.ofWord w))
  | 0x71 => some (.vcos (FmtV.ofWord w))
  | 0x72 => some (.vcvt (FmtV.ofWord w))
  | 0x73 =>
    if (FmtV.ofWord w).fn == 0 then some (.vscale (FmtV.ofWord w)) else if (FmtV.ofWord w).fn == 1 then some (.vscaleVec (FmtV.ofWord w)) else none
  | 0x74 => some (.vseed (FmtV.ofWord w))
  | 0x75 => some (.vcmp (FmtV.ofWord w))
  | 0x76 => some (.vsel (FmtV.ofWord w))
  | 0x77 => some (.vand (FmtV.ofWord w))
  | 0x78 => some (.vor (FmtV.ofWord w))
  | 0x79 => some (.vxor (FmtV.ofWord w))
  | 0x7A => some (.vnot (FmtV.ofWord w))
  | 0x7B => some (.vshl (FmtV.ofWord w))
  | 0x7C => some (.vshr (FmtV.ofWord w))
  | 0x7D => some (.vsra (FmtV.ofWord w))
  | 0x7E => some (.viadd (FmtV.ofWord w))
  | 0x7F => some (.visub (FmtV.ofWord w))
  | 0x80 => some (.vimul (FmtV.ofWord w))
  | 0x81 => some (.vimin (FmtV.ofWord w))
  | 0x82 => some (.vimax (FmtV.ofWord w))
  | 0x83 => some (.vred (FmtV.ofWord w))
  | 0x84 => some (.vperm (FmtV.ofWord w))
  | 0x85 =>
    if (FmtV.ofWord w).fn == 0 then some (.vbcast (FmtV.ofWord w)) else if (FmtV.ofWord w).fn == 1 then some (.vbcastLane (FmtV.ofWord w)) else none
  | 0x86 => some (.vins (FmtV.ofWord w))
  | 0x87 => some (.vext (FmtV.ofWord w))
  | 0x88 =>
    if (FmtV.ofWord w).fn == 0 then some (.vmov (FmtV.ofWord w)) else if (FmtV.ofWord w).fn == 1 then some (.vmovP (FmtV.ofWord w)) else if (FmtV.ofWord w).fn == 2 then some (.vmovV (FmtV.ofWord w)) else none
  | 0x89 =>
    if (FmtV.ofWord w).fn == 0 then some (.vlds (FmtV.ofWord w)) else if (FmtV.ofWord w).fn == 1 then some (.vldsFifo (FmtV.ofWord w)) else none
  | 0x8A =>
    if (FmtV.ofWord w).fn == 0 then some (.vsts (FmtV.ofWord w)) else if (FmtV.ofWord w).fn == 1 then some (.vstsFifo (FmtV.ofWord w)) else none
  | 0x8B => some (.vldsx (FmtV.ofWord w))
  | 0x8C => some (.vsmax (FmtV.ofWord w))
  | 0x8D => some (.vmerge (FmtV.ofWord w))
  | 0x8E => some (.vquant (FmtV.ofWord w))
  | 0x8F => some (.vdeq (FmtV.ofWord w))
  | 0xA0 => some (.mxlease (FmtT.ofWord w))
  | 0xA1 => some (.mxfree (FmtT.ofWord w))
  | 0xA2 => some (.mxmul (FmtT.ofWord w))
  | 0xA3 => some (.mxmulc (FmtT.ofWord w))
  | 0xA4 =>
    if (FmtT.ofWord w).fn == 0 then some (.mxzero (FmtT.ofWord w)) else if (FmtT.ofWord w).fn == 1 then some (.mxzeroBlk (FmtT.ofWord w)) else none
  | 0xA5 =>
    if (FmtT.ofWord w).fn == 0 then some (.mxrd (FmtT.ofWord w)) else if (FmtT.ofWord w).fn == 1 then some (.mxrdBand (FmtT.ofWord w)) else none
  | 0xA6 => some (.mxwr (FmtT.ofWord w))
  | 0xA7 => some (.tld (FmtT.ofWord w))
  | 0xA8 => some (.tst (FmtT.ofWord w))
  | 0xA9 => some (.tsl (FmtT.ofWord w))
  | 0xAA => some (.ttran (FmtT.ofWord w))
  | 0xB0 =>
    if (FmtE.ofWord w).fn == 0 then some (.cpy (FmtE.ofWord w)) else if (FmtE.ofWord w).fn == 1 then some (.cpySt (FmtE.ofWord w)) else none
  | 0xB1 =>
    if (FmtE.ofWord w).fn == 0 then some (.cpyl (FmtE.ofWord w)) else if (FmtE.ofWord w).fn == 1 then some (.cpylSt (FmtE.ofWord w)) else if (FmtE.ofWord w).fn == 2 then some (.cpylOo (FmtE.ofWord w)) else none
  | 0xB2 => some (.gath (FmtE.ofWord w))
  | 0xB3 => some (.scat (FmtE.ofWord w))
  | 0xB4 => some (.halo (FmtE.ofWord w))
  | 0xB5 =>
    if (FmtE.ofWord w).fn == 0 then some (.reshd (FmtE.ofWord w)) else if (FmtE.ofWord w).fn == 1 then some (.reshdInst (FmtE.ofWord w)) else none
  | 0xB6 => some (.send (FmtE.ofWord w))
  | 0xB7 => some (.sendt (FmtE.ofWord w))
  | 0xB8 => some (.mcast (FmtE.ofWord w))
  | 0xB9 => some (.recvadd (FmtE.ofWord w))
  | 0xBA => some (.attn (FmtE.ofWord w))
  | 0xBB => some (.attnc (FmtE.ofWord w))
  | 0xBC =>
    if (FmtE.ofWord w).fn == 0 then some (.kvmap (FmtE.ofWord w)) else if (FmtE.ofWord w).fn == 1 then some (.kvmapLen (FmtE.ofWord w)) else none
  | 0xBD => some (.kvunmap (FmtE.ofWord w))
  | 0xBE =>
    if (FmtE.ofWord w).fn == 0 then some (.cursRd (FmtE.ofWord w)) else if (FmtE.ofWord w).fn == 1 then some (.cursPlay (FmtE.ofWord w)) else if (FmtE.ofWord w).fn == 2 then some (.cursGen (FmtE.ofWord w)) else if (FmtE.ofWord w).fn == 3 then some (.cursInit (FmtE.ofWord w)) else if (FmtE.ofWord w).fn == 4 then some (.cursFree (FmtE.ofWord w)) else if (FmtE.ofWord w).fn == 5 then some (.cursRdc (FmtE.ofWord w)) else none
  | 0xBF => some (.trunc (FmtE.ofWord w))
  | 0xC0 =>
    if (FmtE.ofWord w).fn == 0 then some (.commit (FmtE.ofWord w)) else if (FmtE.ofWord w).fn == 1 then some (.commitSnap (FmtE.ofWord w)) else none
  | 0xC1 => some (.sinpop (FmtE.ofWord w))
  | 0xC2 => some (.launch (FmtE.ofWord w))
  | 0xE0 =>
    if (FmtS.ofWord w).csr == 0x104 then some (.csrrSysFlstat (FmtS.ofWord w)) else some (.csrr (FmtS.ofWord w))
  | 0xE1 =>
    if (FmtS.ofWord w).csr == 0x010 then some (.csrwSysCause (FmtS.ofWord w)) else if (FmtS.ofWord w).csr == 0x009 then some (.csrwSysPrio (FmtS.ofWord w)) else if (FmtS.ofWord w).csr == 0x105 then some (.csrwSysSave (FmtS.ofWord w)) else if (FmtS.ofWord w).csr == 0x102 then some (.csrwSysFq (FmtS.ofWord w)) else if (FmtS.ofWord w).csr == 0x103 then some (.csrwSysFlog (FmtS.ofWord w)) else some (.csrw (FmtS.ofWord w))
  | 0xE2 => some (.trap (FmtS.ofWord w))
  | 0xE3 =>
    if (FmtS.ofWord w).fn == 0 then some (.resumeRetry (FmtS.ofWord w)) else if (FmtS.ofWord w).fn == 1 then some (.resumeSkip (FmtS.ofWord w)) else if (FmtS.ofWord w).fn == 2 then some (.resumeCont (FmtS.ofWord w)) else if (FmtS.ofWord w).fn == 3 then some (.resumeKill (FmtS.ofWord w)) else if (FmtS.ofWord w).fn == 4 then some (.resumePark (FmtS.ofWord w)) else if (FmtS.ofWord w).fn == 5 then some (.resumeAbort (FmtS.ofWord w)) else none
  | 0xE4 =>
    if (FmtS.ofWord w).fn == 0 then some (.featTest (FmtS.ofWord w)) else if (FmtS.ofWord w).fn == 1 then some (.featReq (FmtS.ofWord w)) else none
  | 0xE5 =>
    if (FmtS.ofWord w).fn == 0 then some (.otinvExt (FmtS.ofWord w)) else if (FmtS.ofWord w).fn == 1 then some (.otinvObj (FmtS.ofWord w)) else if (FmtS.ofWord w).fn == 2 then some (.otinvAll (FmtS.ofWord w)) else none
  | 0xE6 =>
    if (FmtS.ofWord w).fn == 0 then some (.btinvAll (FmtS.ofWord w)) else if (FmtS.ofWord w).fn == 1 then some (.btinvSeq (FmtS.ofWord w)) else none
  | 0xE7 => some (.idle (FmtS.ofWord w))
  | 0xE8 => some (.yield (FmtS.ofWord w))
  | 0xE9 => some (.remain (FmtS.ofWord w))
  | 0xEA =>
    if (FmtS.ofWord w).fn == 0 then some (.cfgbankCache (FmtS.ofWord w)) else if (FmtS.ofWord w).fn == 1 then some (.cfgbankScratch (FmtS.ofWord w)) else if (FmtS.ofWord w).fn == 2 then some (.cfgbankFifo (FmtS.ofWord w)) else none
  | _ => none

/-- The form that a word's major and function select, with its raw fields, before checks 4 to 7 of R173;
none for an unassigned or extension major, a function or a csr that selects no form. -/
def decodeRaw (w : W64) : Option Instr := decodeMajor (w.extractLsb' 56 8).toNat w

/-- Why a word is no well-formed instruction (R173). -/
inductive DecodeError
  /-- Check 1: the major is not assigned. -/
  | unassignedMajor
  /-- Check 2: an extension major; no extension is defined on the IB8 (R172). -/
  | undefinedExtension
  /-- Check 6: the function or csr selects no form. -/
  | badFunction
  /-- Checks 6 and 7: a field or the latency bound is not admissible. -/
  | badField
  /-- Fewer than eight bytes. -/
  | shortWord
  deriving DecidableEq, Repr

/-- The majors of R169. -/
def majorAssigned (m : Nat) : Bool :=
  m ≤ 0x2E || (0x30 ≤ m && m ≤ 0x36) || (0x40 ≤ m && m ≤ 0x55) || (0x60 ≤ m && m ≤ 0x8F) ||
  (0xA0 ≤ m && m ≤ 0xAA) || (0xB0 ≤ m && m ≤ 0xC2) || (0xE0 ≤ m && m ≤ 0xEA)

/-- Decoding of a word: a well-formed instruction, or the named reason why it is none. -/
def decode (w : W64) : Except DecodeError Instr :=
  let m := (w.extractLsb' 56 8).toNat
  if 0xF0 ≤ m then .error .undefinedExtension
  else if !majorAssigned m then .error .unassignedMajor
  else match decodeRaw w with
    | none => .error .badFunction
    | some i => if Machine.fieldsOk i then .ok i else .error .badField

/-- The word of eight bytes, lowest address first (R3). -/
def wordOfBytes (b : List Byte) : W64 :=
  b.foldr (fun x acc => (acc <<< 8) ||| x.zeroExtend 64) 0

/-- Decoding of bytes: the instruction and the bytes after it. -/
def decodeBytes (b : List Byte) : Except DecodeError (Instr × List Byte) :=
  if b.length < 8 then .error .shortWord
  else match decode (wordOfBytes (b.take 8)) with
    | .ok i => .ok (i, b.drop 8)
    | .error e => .error e

/-- The word of an instruction form (R157 to R165, R169); an event has none. -/
def encode (i : Instr) : Option W64 :=
  match i with
  | .add f => some (f.toWord 0x00)
  | .addi f => some (f.toWord 0x01)
  | .sub f => some (f.toWord 0x02)
  | .mul f => some (f.toWord 0x03)
  | .mulh f => some (f.toWord 0x04)
  | .mulhz f => some (f.toWord 0x05)
  | .div f => some (f.toWord 0x06)
  | .divz f => some (f.toWord 0x07)
  | .rem f => some (f.toWord 0x08)
  | .remz f => some (f.toWord 0x09)
  | .and f => some (f.toWord 0x0A)
  | .andi f => some (f.toWord 0x0B)
  | .or f => some (f.toWord 0x0C)
  | .ori f => some (f.toWord 0x0D)
  | .xor f => some (f.toWord 0x0E)
  | .xori f => some (f.toWord 0x0F)
  | .shl f => some (f.toWord 0x10)
  | .shli f => some (f.toWord 0x11)
  | .shr f => some (f.toWord 0x12)
  | .shri f => some (f.toWord 0x13)
  | .sra f => some (f.toWord 0x14)
  | .srai f => some (f.toWord 0x15)
  | .min f => some (f.toWord 0x16)
  | .max f => some (f.toWord 0x17)
  | .minz f => some (f.toWord 0x18)
  | .maxz f => some (f.toWord 0x19)
  | .slt f => some (f.toWord 0x1A)
  | .sltz f => some (f.toWord 0x1B)
  | .seq f => some (f.toWord 0x1C)
  | .sel f => some (f.toWord 0x1D)
  | .clz f => some (f.toWord 0x1E)
  | .ctz f => some (f.toWord 0x1E)
  | .popc f => some (f.toWord 0x1E)
  | .mov f => some (f.toWord 0x1E)
  | .ext f => some (f.toWord 0x1E)
  | .li f => some (f.toWord 0x1F)
  | .lih f => some (f.toWord 0x1F)
  | .bc f => some (f.toWord 0x20)
  | .j f => some (f.toWord 0x21)
  | .call f => some (f.toWord 0x22)
  | .ret f => some (f.toWord 0x23)
  | .loopb f => some (f.toWord 0x24)
  | .loope f => some (f.toWord 0x25)
  | .bqp f => some (f.toWord 0x26)
  | .endS f => some (f.toWord 0x27)
  | .qpush f => some (f.toWord 0x28)
  | .qpop f => some (f.toWord 0x29)
  | .qpeek f => some (f.toWord 0x2A)
  | .qcnt f => some (f.toWord 0x2B)
  | .bqpush f => some (f.toWord 0x2C)
  | .vpopq f => some (f.toWord 0x2D)
  | .vpushq f => some (f.toWord 0x2E)
  | .cld f => some (f.toWord 0x30)
  | .cst f => some (f.toWord 0x31)
  | .cnarrow f => some (f.toWord 0x32)
  | .crights f => some (f.toWord 0x33)
  | .coff f => some (f.toWord 0x34)
  | .cget f => some (f.toWord 0x35)
  | .clgen f => some (f.toWord 0x36)
  | .ld f => some (f.toWord 0x40)
  | .st f => some (f.toWord 0x41)
  | .ldt f => some (f.toWord 0x42)
  | .stt f => some (f.toWord 0x43)
  | .pfL1 f => some (f.toWord 0x44)
  | .pfL2 f => some (f.toWord 0x44)
  | .cboClean f => some (f.toWord 0x45)
  | .cboInval f => some (f.toWord 0x45)
  | .cboFlush f => some (f.toWord 0x45)
  | .otqAttr f => some (f.toWord 0x46)
  | .otqCnt f => some (f.toWord 0x46)
  | .otqDims f => some (f.toWord 0x46)
  | .otqLayout f => some (f.toWord 0x46)
  | .otqPlanes f => some (f.toWord 0x46)
  | .otqExt f => some (f.toWord 0x46)
  | .ldv f => some (f.toWord 0x47)
  | .vals f => some (f.toWord 0x48)
  | .amo f => some (f.toWord 0x49)
  | .amoReduce f => some (f.toWord 0x49)
  | .amofFadd f => some (f.toWord 0x4A)
  | .amofFmax f => some (f.toWord 0x4A)
  | .cas f => some (f.toWord 0x4B)
  | .casv f => some (f.toWord 0x4C)
  | .fence f => some (f.toWord 0x4D)
  | .acq f => some (f.toWord 0x4E)
  | .rel f => some (f.toWord 0x4F)
  | .swait f => some (f.toWord 0x50)
  | .swaitTake f => some (f.toWord 0x50)
  | .ssig f => some (f.toWord 0x51)
  | .sadd f => some (f.toWord 0x52)
  | .bara f => some (f.toWord 0x53)
  | .barw f => some (f.toWord 0x54)
  | .evpop f => some (f.toWord 0x55)
  | .evpopPoll f => some (f.toWord 0x55)
  | .vadd f => some (f.toWord 0x60)
  | .vsub f => some (f.toWord 0x61)
  | .vmul f => some (f.toWord 0x62)
  | .vfma f => some (f.toWord 0x63)
  | .vfms f => some (f.toWord 0x64)
  | .vnfma f => some (f.toWord 0x65)
  | .vmin f => some (f.toWord 0x66)
  | .vmax f => some (f.toWord 0x67)
  | .vabs f => some (f.toWord 0x68)
  | .vneg f => some (f.toWord 0x69)
  | .vrcp f => some (f.toWord 0x6A)
  | .vrsq f => some (f.toWord 0x6B)
  | .vsqrt f => some (f.toWord 0x6C)
  | .vexp2 f => some (f.toWord 0x6D)
  | .vlog2 f => some (f.toWord 0x6E)
  | .vtanh f => some (f.toWord 0x6F)
  | .vsin f => some (f.toWord 0x70)
  | .vcos f => some (f.toWord 0x71)
  | .vcvt f => some (f.toWord 0x72)
  | .vscale f => some (f.toWord 0x73)
  | .vscaleVec f => some (f.toWord 0x73)
  | .vseed f => some (f.toWord 0x74)
  | .vcmp f => some (f.toWord 0x75)
  | .vsel f => some (f.toWord 0x76)
  | .vand f => some (f.toWord 0x77)
  | .vor f => some (f.toWord 0x78)
  | .vxor f => some (f.toWord 0x79)
  | .vnot f => some (f.toWord 0x7A)
  | .vshl f => some (f.toWord 0x7B)
  | .vshr f => some (f.toWord 0x7C)
  | .vsra f => some (f.toWord 0x7D)
  | .viadd f => some (f.toWord 0x7E)
  | .visub f => some (f.toWord 0x7F)
  | .vimul f => some (f.toWord 0x80)
  | .vimin f => some (f.toWord 0x81)
  | .vimax f => some (f.toWord 0x82)
  | .vred f => some (f.toWord 0x83)
  | .vperm f => some (f.toWord 0x84)
  | .vbcast f => some (f.toWord 0x85)
  | .vbcastLane f => some (f.toWord 0x85)
  | .vins f => some (f.toWord 0x86)
  | .vext f => some (f.toWord 0x87)
  | .vmov f => some (f.toWord 0x88)
  | .vmovP f => some (f.toWord 0x88)
  | .vmovV f => some (f.toWord 0x88)
  | .vlds f => some (f.toWord 0x89)
  | .vldsFifo f => some (f.toWord 0x89)
  | .vsts f => some (f.toWord 0x8A)
  | .vstsFifo f => some (f.toWord 0x8A)
  | .vldsx f => some (f.toWord 0x8B)
  | .vsmax f => some (f.toWord 0x8C)
  | .vmerge f => some (f.toWord 0x8D)
  | .vquant f => some (f.toWord 0x8E)
  | .vdeq f => some (f.toWord 0x8F)
  | .mxlease f => some (f.toWord 0xA0)
  | .mxfree f => some (f.toWord 0xA1)
  | .mxmul f => some (f.toWord 0xA2)
  | .mxmulc f => some (f.toWord 0xA3)
  | .mxzero f => some (f.toWord 0xA4)
  | .mxzeroBlk f => some (f.toWord 0xA4)
  | .mxrd f => some (f.toWord 0xA5)
  | .mxrdBand f => some (f.toWord 0xA5)
  | .mxwr f => some (f.toWord 0xA6)
  | .tld f => some (f.toWord 0xA7)
  | .tst f => some (f.toWord 0xA8)
  | .tsl f => some (f.toWord 0xA9)
  | .ttran f => some (f.toWord 0xAA)
  | .cpy f => some (f.toWord 0xB0)
  | .cpySt f => some (f.toWord 0xB0)
  | .cpyl f => some (f.toWord 0xB1)
  | .cpylSt f => some (f.toWord 0xB1)
  | .cpylOo f => some (f.toWord 0xB1)
  | .gath f => some (f.toWord 0xB2)
  | .scat f => some (f.toWord 0xB3)
  | .halo f => some (f.toWord 0xB4)
  | .reshd f => some (f.toWord 0xB5)
  | .reshdInst f => some (f.toWord 0xB5)
  | .send f => some (f.toWord 0xB6)
  | .sendt f => some (f.toWord 0xB7)
  | .mcast f => some (f.toWord 0xB8)
  | .recvadd f => some (f.toWord 0xB9)
  | .attn f => some (f.toWord 0xBA)
  | .attnc f => some (f.toWord 0xBB)
  | .kvmap f => some (f.toWord 0xBC)
  | .kvmapLen f => some (f.toWord 0xBC)
  | .kvunmap f => some (f.toWord 0xBD)
  | .cursRd f => some (f.toWord 0xBE)
  | .cursPlay f => some (f.toWord 0xBE)
  | .cursGen f => some (f.toWord 0xBE)
  | .cursInit f => some (f.toWord 0xBE)
  | .cursFree f => some (f.toWord 0xBE)
  | .cursRdc f => some (f.toWord 0xBE)
  | .trunc f => some (f.toWord 0xBF)
  | .commit f => some (f.toWord 0xC0)
  | .commitSnap f => some (f.toWord 0xC0)
  | .sinpop f => some (f.toWord 0xC1)
  | .launch f => some (f.toWord 0xC2)
  | .csrrSysFlstat f => some (f.toWord 0xE0)
  | .csrr f => some (f.toWord 0xE0)
  | .csrwSysCause f => some (f.toWord 0xE1)
  | .csrwSysPrio f => some (f.toWord 0xE1)
  | .csrwSysSave f => some (f.toWord 0xE1)
  | .csrwSysFq f => some (f.toWord 0xE1)
  | .csrwSysFlog f => some (f.toWord 0xE1)
  | .csrw f => some (f.toWord 0xE1)
  | .trap f => some (f.toWord 0xE2)
  | .resumeRetry f => some (f.toWord 0xE3)
  | .resumeSkip f => some (f.toWord 0xE3)
  | .resumeCont f => some (f.toWord 0xE3)
  | .resumeKill f => some (f.toWord 0xE3)
  | .resumePark f => some (f.toWord 0xE3)
  | .resumeAbort f => some (f.toWord 0xE3)
  | .featTest f => some (f.toWord 0xE4)
  | .featReq f => some (f.toWord 0xE4)
  | .otinvExt f => some (f.toWord 0xE5)
  | .otinvObj f => some (f.toWord 0xE5)
  | .otinvAll f => some (f.toWord 0xE5)
  | .btinvAll f => some (f.toWord 0xE6)
  | .btinvSeq f => some (f.toWord 0xE6)
  | .idle f => some (f.toWord 0xE7)
  | .yield f => some (f.toWord 0xE8)
  | .remain f => some (f.toWord 0xE9)
  | .cfgbankCache f => some (f.toWord 0xEA)
  | .cfgbankScratch f => some (f.toWord 0xEA)
  | .cfgbankFifo f => some (f.toWord 0xEA)
  | .mxmulEntry _ => none
  | .leaseGrant _ => none
  | .leaseTimeout _ => none
  | .bankModeComplete _ _ => none
  | .engineEntryStart _ => none
  | .engineEntryComplete _ => none
  | .haloFaceArrival _ _ => none
  | .reshdRendezvous _ _ => none
  | .reshdInstRendezvous _ _ => none
  | .sendtFire _ => none
  | .attnPage _ => none
  | .tiermiss _ => none
  | .frame _ _ => none
  | .hostLaunch _ _ _ => none
  | .launchAccept _ => none
  | .launchEvaluate _ _ _ => none
  | .dependenceReport _ _ _ => none
  | .crewPlace _ => none
  | .taskStart _ _ _ => none
  | .stratumEnd _ _ _ => none
  | .launchComplete _ _ => none
  | .tokenRefill _ => none
  | .skipBlock _ _ => none
  | .residency _ _ _ => none
  | .preempt _ _ => none
  | .drainWindowExpiry _ _ _ => none
  | .checkpoint _ _ _ => none
  | .crewRestore _ => none
  | .watchdog _ _ => none
  | .watchdogEngine _ => none
  | .faultRecordPost _ => none
  | .supervisorRestart _ => none
  | .walkComplete _ _ _ _ => none
  | .heldAccessProceed _ _ => none
  | .sideLogReplay _ => none
  | .lineFill _ _ => none
  | .extentMigration _ _ _ _ => none
  | .migrationWindow _ => none
  | .write _ _ => none
  | .read _ _ => none
  | .rdata _ _ => none
  | .atomic _ _ => none
  | .aresp _ _ => none
  | .ack _ _ => none
  | .refuse _ _ => none
  | .busy _ _ => none
  | .busyResend _ _ => none
  | .demand _ _ => none
  | .grant _ _ => none
  | .grantExpiry _ _ => none
  | .flag _ _ => none
  | .semadd _ _ => none
  | .forward _ _ => none
  | .stream _ _ => none
  | .mgmt _ _ => none
  | .regmr _ _ => none
  | .deregmr _ _ => none
  | .resync _ _ _ => none
  | .nop _ _ => none
  | .pactCreate _ _ _ => none
  | .pactResize _ _ _ => none
  | .pactCoreReset _ _ _ => none
  | .pactUncoreReset _ _ _ => none
  | .pactDestroy _ _ _ => none
  | .partitionDrainDone _ => none
  | .scrubComplete _ _ => none
  | .markAdmin _ _ => none
  | .firmwareDelivery _ _ => none
  | .svnFloorRaise _ _ => none
  | .packageReset _ _ _ => none
  | .uncorrectableError _ _ _ => none
  | .powerCap _ _ => none
  | .powerCapTick _ _ => none
  | .clockReport _ _ _ => none
  | .thermalTrip _ _ _ => none
  | .matrixEntryComplete _ => none
  | .resultLanding _ => none
  | .correctedError _ _ _ => none
  | .cnp _ _ => none
  | .invalidRequest _ _ => none
  | .unknownOp _ _ => none
  | .securedSessionOpen _ _ => none

/-- The eight bytes of a word, lowest address first (R3). -/
def bytesOfWord (w : W64) : List Byte := (List.range 8).map fun k => w.extractLsb' (8 * k) 8

/-- What the decoder reads from the instruction whose bits are `w`; every instruction is one 64-bit word. -/
def decodeTableWord (_nbits w : Nat) : Option Instr :=
  match decodeBytes (bytesOfWord (BitVec.ofNat 64 w)) with
  | .ok (i, _) => some i
  | .error _ => none

end Sys2Proof
end

