-- ==== Sys2Proof/Machine/Interlock.lean ====
section
/-! DEFINITION. The a registers that a form of the AS names: an instruction that names the destination of an engine
command whose result is still to come is interlocked (R276). -/

namespace Sys2Proof.Machine

/-- The scalar registers that an instruction of the AS reads or writes; an XS form and an event name none. -/
def aRegs (i : Instr) : List (BitVec 6) :=
  match i with
  | .add f => [f.dst, f.sa, f.sb]
  | .addi f => [f.dst, f.sa]
  | .sub f => [f.dst, f.sa, f.sb]
  | .mul f => [f.dst, f.sa, f.sb]
  | .mulh f => [f.dst, f.sa, f.sb]
  | .mulhz f => [f.dst, f.sa, f.sb]
  | .div f => [f.dst, f.sa, f.sb]
  | .divz f => [f.dst, f.sa, f.sb]
  | .rem f => [f.dst, f.sa, f.sb]
  | .remz f => [f.dst, f.sa, f.sb]
  | .and f => [f.dst, f.sa, f.sb]
  | .andi f => [f.dst, f.sa]
  | .or f => [f.dst, f.sa, f.sb]
  | .ori f => [f.dst, f.sa]
  | .xor f => [f.dst, f.sa, f.sb]
  | .xori f => [f.dst, f.sa]
  | .shl f => [f.dst, f.sa, f.sb]
  | .shli f => [f.dst, f.sa]
  | .shr f => [f.dst, f.sa, f.sb]
  | .shri f => [f.dst, f.sa]
  | .sra f => [f.dst, f.sa, f.sb]
  | .srai f => [f.dst, f.sa]
  | .min f => [f.dst, f.sa, f.sb]
  | .max f => [f.dst, f.sa, f.sb]
  | .minz f => [f.dst, f.sa, f.sb]
  | .maxz f => [f.dst, f.sa, f.sb]
  | .slt f => [f.dst, f.sa, f.sb]
  | .sltz f => [f.dst, f.sa, f.sb]
  | .seq f => [f.dst, f.sa, f.sb]
  | .sel f => [f.dst, f.sa, f.sb, f.sc]
  | .clz f => [f.dst, f.sa]
  | .ctz f => [f.dst, f.sa]
  | .popc f => [f.dst, f.sa]
  | .mov f => [f.dst, f.sa]
  | .ext f => [f.dst, f.sa, f.sb]
  | .li f => [f.dst]
  | .lih f => [f.dst]
  | .bc f => [f.sa, f.sb]
  | .j f => [f.sa]
  | .call f => [f.dst, f.sa]
  | .ret f => [f.sa]
  | .loopb f => [f.dst]
  | .loope _ => []
  | .bqp _ => []
  | .endS _ => []
  | .qpush f => [f.sa]
  | .qpop f => [f.dst]
  | .qpeek f => [f.dst]
  | .qcnt f => [f.dst]
  | .bqpush f => [f.sa]
  | .vpopq _ => []
  | .vpushq _ => []
  | .cld f => [f.sb]
  | .cst f => [f.sb]
  | .cnarrow f => [f.sb, f.sc]
  | .crights f => [f.sb]
  | .coff f => [f.sb]
  | .cget f => [f.dst, f.sb]
  | .clgen _ => []
  | .ld f => [f.dst, f.sb]
  | .st f => [f.dst, f.sb]
  | .ldt f => [f.sb]
  | .stt f => [f.sb]
  | .pfL1 f => [f.sb]
  | .pfL2 f => [f.sb]
  | .cboClean f => [f.sb]
  | .cboInval f => [f.sb]
  | .cboFlush f => [f.sb]
  | .otqAttr f => [f.dst, f.sb]
  | .otqCnt f => [f.dst, f.dst + 1, f.sb]
  | .otqDims f => [f.dst, f.dst + 1, f.sb]
  | .otqLayout f => [f.dst, f.sb]
  | .otqPlanes f => [f.dst, f.sb]
  | .otqExt f => [f.dst, f.sb]
  | .ldv f => [f.dst, f.dst + 1, f.sb]
  | .vals f => [f.dst, f.sb]
  | .amo f => [f.dst, f.sb]
  | .amoReduce f => [f.dst, f.sb]
  | .amofFadd f => [f.dst, f.sb]
  | .amofFmax f => [f.dst, f.sb]
  | .cas f => [f.dst, f.dst + 1, f.sb]
  | .casv f => [f.dst, f.dst + 1, f.sb]
  | .fence _ => []
  | .acq f => [f.dst, f.sb]
  | .rel f => [f.dst, f.sb]
  | .swait f => [f.dst, f.sa]
  | .swaitTake f => [f.dst, f.sa]
  | .ssig _ => []
  | .sadd f => [f.dst, f.sa]
  | .bara f => [f.dst, f.sa]
  | .barw f => [f.sa]
  | .evpop f => [f.dst, f.dst + 1, f.dst + 2, f.dst + 3]
  | .evpopPoll f => [f.dst, f.dst + 1, f.dst + 2, f.dst + 3]
  | .vadd _ => []
  | .vsub _ => []
  | .vmul _ => []
  | .vfma _ => []
  | .vfms _ => []
  | .vnfma _ => []
  | .vmin _ => []
  | .vmax _ => []
  | .vabs _ => []
  | .vneg _ => []
  | .vrcp _ => []
  | .vrsq _ => []
  | .vsqrt _ => []
  | .vexp2 _ => []
  | .vlog2 _ => []
  | .vtanh _ => []
  | .vsin _ => []
  | .vcos _ => []
  | .vcvt _ => []
  | .vscale _ => []
  | .vscaleVec _ => []
  | .vseed _ => []
  | .vcmp _ => []
  | .vsel _ => []
  | .vand _ => []
  | .vor _ => []
  | .vxor _ => []
  | .vnot _ => []
  | .vshl _ => []
  | .vshr _ => []
  | .vsra _ => []
  | .viadd _ => []
  | .visub _ => []
  | .vimul _ => []
  | .vimin _ => []
  | .vimax _ => []
  | .vred _ => []
  | .vperm _ => []
  | .vbcast _ => []
  | .vbcastLane _ => []
  | .vins _ => []
  | .vext _ => []
  | .vmov _ => []
  | .vmovP _ => []
  | .vmovV _ => []
  | .vlds _ => []
  | .vldsFifo _ => []
  | .vsts _ => []
  | .vstsFifo _ => []
  | .vldsx _ => []
  | .vsmax _ => []
  | .vmerge _ => []
  | .vquant _ => []
  | .vdeq _ => []
  | .mxlease _ => []
  | .mxfree _ => []
  | .mxmul _ => []
  | .mxmulc _ => []
  | .mxzero _ => []
  | .mxzeroBlk _ => []
  | .mxrd _ => []
  | .mxrdBand _ => []
  | .mxwr _ => []
  | .tld _ => []
  | .tst _ => []
  | .tsl _ => []
  | .ttran _ => []
  | .cpy f => [f.dst, f.sb, f.sc]
  | .cpySt f => [f.dst, f.sb, f.sc]
  | .cpyl f => [f.dst, f.sb, f.sc]
  | .cpylSt f => [f.dst, f.sb, f.sc]
  | .cpylOo f => [f.dst, f.sb]
  | .gath f => [f.dst, f.sb, f.sc]
  | .scat f => [f.dst, f.sb, f.sc]
  | .halo f => [f.dst, f.sa, f.sb, f.sc]
  | .reshd f => [f.dst, f.sb]
  | .reshdInst f => [f.dst, f.sb]
  | .send f => [f.dst, f.sb, f.sc]
  | .sendt f => [f.dst, f.sb, f.sc]
  | .mcast f => [f.dst, f.sb, f.sc]
  | .recvadd f => [f.dst, f.sa, f.sb]
  | .attn f => [f.dst, f.sb]
  | .attnc f => [f.dst, f.sb]
  | .kvmap f => [f.dst, f.sb, f.sc]
  | .kvmapLen f => [f.dst, f.sb, f.sc]
  | .kvunmap f => [f.dst, f.sb]
  | .cursRd f => [f.dst, f.sa, f.sb]
  | .cursPlay f => [f.dst, f.sa, f.sb]
  | .cursGen f => [f.dst, f.sa, f.sb]
  | .cursInit f => [f.dst, f.sa, f.sb]
  | .cursFree f => [f.dst, f.sa, f.sb]
  | .cursRdc f => [f.dst, f.sa, f.sb]
  | .trunc f => [f.dst, f.sb, f.sc]
  | .commit f => [f.dst, f.sa, f.sb]
  | .commitSnap f => [f.dst, f.sa, f.sb]
  | .sinpop f => [f.dst, f.sa]
  | .launch f => [f.dst]
  | .csrrSysFlstat f => [f.dst]
  | .csrr f => [f.dst]
  | .csrwSysCause f => [f.sa]
  | .csrwSysPrio f => [f.sa]
  | .csrwSysSave f => [f.sa]
  | .csrwSysFq f => [f.sa]
  | .csrwSysFlog f => [f.sa]
  | .csrw f => [f.sa]
  | .trap f => [f.sa]
  | .resumeRetry f => [f.dst, f.sa]
  | .resumeSkip f => [f.dst, f.sa]
  | .resumeCont f => [f.dst, f.sa]
  | .resumeKill f => [f.dst, f.sa]
  | .resumePark f => [f.dst, f.sa]
  | .resumeAbort f => [f.dst, f.sa]
  | .featTest f => [f.dst, f.sa]
  | .featReq f => [f.sa]
  | .otinvExt f => [f.dst, f.sa]
  | .otinvObj f => [f.dst, f.sa]
  | .otinvAll f => [f.dst]
  | .btinvAll _ => []
  | .btinvSeq f => [f.sa]
  | .idle f => [f.dst, f.sa]
  | .yield f => [f.dst]
  | .remain f => [f.sa]
  | .cfgbankCache f => [f.sa]
  | .cfgbankScratch f => [f.sa]
  | .cfgbankFifo f => [f.sa]
  | .mxmulEntry _ => []
  | .leaseGrant _ => []
  | .leaseTimeout _ => []
  | .bankModeComplete _ _ => []
  | .engineEntryStart _ => []
  | .engineEntryComplete _ => []
  | .haloFaceArrival _ _ => []
  | .reshdRendezvous _ _ => []
  | .reshdInstRendezvous _ _ => []
  | .sendtFire _ => []
  | .attnPage _ => []
  | .tiermiss _ => []
  | .frame _ _ => []
  | .hostLaunch _ _ _ => []
  | .launchAccept _ => []
  | .launchEvaluate _ _ _ => []
  | .dependenceReport _ _ _ => []
  | .crewPlace _ => []
  | .taskStart _ _ _ => []
  | .stratumEnd _ _ _ => []
  | .launchComplete _ _ => []
  | .tokenRefill _ => []
  | .skipBlock _ _ => []
  | .residency _ _ _ => []
  | .preempt _ _ => []
  | .drainWindowExpiry _ _ _ => []
  | .checkpoint _ _ _ => []
  | .crewRestore _ => []
  | .watchdog _ _ => []
  | .watchdogEngine _ => []
  | .faultRecordPost _ => []
  | .supervisorRestart _ => []
  | .walkComplete _ _ _ _ => []
  | .heldAccessProceed _ _ => []
  | .sideLogReplay _ => []
  | .lineFill _ _ => []
  | .extentMigration _ _ _ _ => []
  | .migrationWindow _ => []
  | .write _ _ => []
  | .read _ _ => []
  | .rdata _ _ => []
  | .atomic _ _ => []
  | .aresp _ _ => []
  | .ack _ _ => []
  | .refuse _ _ => []
  | .busy _ _ => []
  | .busyResend _ _ => []
  | .demand _ _ => []
  | .grant _ _ => []
  | .grantExpiry _ _ => []
  | .flag _ _ => []
  | .semadd _ _ => []
  | .forward _ _ => []
  | .stream _ _ => []
  | .mgmt _ _ => []
  | .regmr _ _ => []
  | .deregmr _ _ => []
  | .resync _ _ _ => []
  | .nop _ _ => []
  | .pactCreate _ _ _ => []
  | .pactResize _ _ _ => []
  | .pactCoreReset _ _ _ => []
  | .pactUncoreReset _ _ _ => []
  | .pactDestroy _ _ _ => []
  | .partitionDrainDone _ => []
  | .scrubComplete _ _ => []
  | .markAdmin _ _ => []
  | .firmwareDelivery _ _ => []
  | .svnFloorRaise _ _ => []
  | .packageReset _ _ _ => []
  | .uncorrectableError _ _ _ => []
  | .powerCap _ _ => []
  | .powerCapTick _ _ => []
  | .clockReport _ _ _ => []
  | .thermalTrip _ _ _ => []
  | .matrixEntryComplete _ => []
  | .resultLanding _ => []
  | .correctedError _ _ _ => []
  | .cnp _ _ => []
  | .invalidRequest _ _ => []
  | .unknownOp _ _ => []
  | .securedSessionOpen _ _ => []

end Sys2Proof.Machine
end

