-- ==== Sys2Proof/Machine/State.lean ====
section
/-! DEFINITION. The state of the part as plain data, its reset value, and the ways a step can stop.
Each structure cites the rules that name its fields; INVENTORY.md lists them one by one. -/

namespace Sys2Proof.Machine

/-- A capability register (R71, R72). -/
structure CapReg where
  tag : Bool := false
  bits : BitVec 256 := 0
  deriving DecidableEq, Repr

/-- The key of an extent translation (R75). -/
structure TKey where
  oid : BitVec 32
  facet : DieId
  ext : Nat
  deriving DecidableEq, Repr

/-- A cached translation: extent entry, word 0, geometry, layout and the well-formed bit (R69, R75). -/
structure TEntry where
  ext : W64 := 0
  word0 : W64 := 0
  dims : BitVec 128 := 0
  layout : W64 := 0
  vshadow : W64 := 0
  wf : Bool := false
  deriving DecidableEq, Repr

/-- An owner record at a home (R83, R112). -/
structure Rec where
  die : DieId
  task : W64
  clus : Nat
  sync : Bool
  mask : BitVec 64
  closed : BitVec 64
  deriving DecidableEq, Repr

/-- An engine mark: the entry, by queue and serial number, and its words (R112). -/
structure Mark where
  q : QueueId
  serial : Nat
  mask : BitVec 64
  deriving DecidableEq, Repr

/-- Unpublished words held beside a record (R210, R213). -/
structure Pend where
  task : W64
  mask : BitVec 64
  data : Line
  tags : BitVec 8
  deriving DecidableEq, Repr

/-- A line resident at its home (R78, R83, R86, R90). The home slice knows the line's physical place: slab, address of its
(coded) bytes, rate, and the address of its version-shadow entry, none when unversioned (R82, R89). -/
structure HLine where
  home : SlabId
  pa : Nat
  rate : Nat := 0
  vsh : Option Nat := none
  data : Line := 0
  ver : BitVec 48 := 0
  /-- The version has changed since the line was filled (R89). -/
  verNew : Bool := false
  tags : BitVec 8 := 0
  written : BitVec 64 := 0
  recs : List Rec := []
  marks : List Mark := []
  pend : List Pend := []
  deriving DecidableEq, Repr

/-- Words of an L1 line that a task owns, and those of them that are dirty (R83). -/
structure Own where
  task : W64
  mask : BitVec 64
  dirty : BitVec 64
  deriving DecidableEq, Repr

/-- A line in the CACHE banks of a cluster, with the home of its words; `bank` is the way that holds it (R79, R84), `bytes` the bytes
that stores to another die left of words that are not valid (R210). -/
structure L1Line where
  home : SlabId
  data : Line := 0
  valid : BitVec 64 := 0
  bytes : BitVec 256 := 0
  tags : BitVec 8 := 0
  own : List Own := []
  bank : Nat := 0
  deriving DecidableEq, Repr

/-- What a side-log entry or a remote write does to its bytes (R92, R93, R126). -/
inductive WOp
  | bytes (b : List Byte)
  | cap (k : CapReg)
  | reduce (fn : Nat) (width : Nat) (b : W64)
  | release (b : List Byte)
  deriving DecidableEq, Repr

/-- One access by object byte: object, facet die, byte (R103, R206). -/
structure Where where
  oid : BitVec 32
  facet : DieId
  byte : Nat
  deriving DecidableEq, Repr

/-- A translated access: where it lands, the object's word 0, the home slab, the physical address of the line's (coded)
bytes, its rate, the address of its version-shadow entry, none when unversioned (R69, R75, R82, R89). A packet carries it as
its descriptor, so an access completes under the translation it was made with (R77, R347). -/
structure Res where
  loc : Where
  word0 : W64
  key : LineKey
  home : SlabId
  pa : Nat
  rate : Nat
  vsh : Option Nat
  tkey : TKey
  host : Bool := false
  /-- The extent is being migrated (R99 step 1): the access is handled as one to an absent extent, and no record is posted. -/
  moving : Bool := false
  deriving DecidableEq, Repr

/-- The ordering kind and the scope of an access (R106, R107); kind 0 is an unordered access. -/
structure Ordr where
  kind : BitVec 2 := 0
  scope : BitVec 3 := 0
  deriving DecidableEq, Repr

/-- A side-log entry; `sent` while its home on another die has not answered its replay (R93). -/
structure SideEnt where
  loc : Where
  op : WOp
  tag : BitVec 32
  sent : Bool := false
  ord : Ordr := {}
  deriving DecidableEq, Repr

/-- Why a strand holds at its next instruction (R146, R325). `movingAt n` is a wait for the MOVING object of the n-th access of a
form that makes several (R74), `fetch` the wait of a fetch for one; `btinv` is the wait of step 3 of R318; `replay` is that of a
restored task for its side log (R93). -/
inductive HoldWhy
  | qpop (n : Nat) | qpush (n : Nat)
  | sem | bar | event
  | idle (changed : Bool)
  | extent | moving | movingAt (n : Nat) | transit | fifo | engineFull | matrixFull | sideLog
  | release | btinv | remote | reg | result | vseed | resume | sidelogLoad | mxread | fetch | replay
  deriving DecidableEq, Repr

/-- A hold and the cycle from which it counts (R325). -/
structure Held where
  why : HoldWhy
  since : Nat
  deriving DecidableEq, Repr

/-- The state of an access of the AS to a home on another die, with the access as it was sent (R115, R126, R128): `tag` is
the one by which its answer is known; an answer fills the L1 only while `fill` stands (R116, R117). `posted` and `accepted`
are those of a reduction of kind acq or ar, which waits for its acceptance before its acquire (R117). -/
inductive Remote
  | idle
  | sent (r : Res) (tag : BitVec 32) (fill : Bool)
  | line (r : Res) (fill : Bool) (data : Line) (tags : BitVec 8) (ver : BitVec 48) (isOpen : Bool)
  | old (r : Res) (v : W64) (ver : BitVec 48) (ok : Bool)
  | refused (r : Res) (reason : Nat) (owner : W64)
  | unsupported (r : Res) (die : DieId)
  | posted (tag : BitVec 32)
  | accepted
  deriving DecidableEq, Repr

/-- One strand: program counter, loop stack with the top first, ended, held (R187, R190, R196). `past` is the number of the latest
access of the held instruction that has met a MOVING object, `fetchPast` says that its fetch has: that access and those before it go on
from check 7 (R74). `got` holds the granules of its packet that a held LAUNCH has read (R305). -/
structure StrandSt where
  pc : W64 := 0
  loops : List W64 := []
  ended : Bool := false
  held : Option Held := none
  past : Option Nat := none
  fetchPast : Bool := false
  got : List CapReg := []
  deriving DecidableEq, Repr

/-- The destination that an open latency window covers (R166). -/
inductive WinDst
  | v (n : Nat)
  | t (n : Nat)
  | slice (n : Nat) (col : Bool) (idx : Nat)
  | p (n : Nat)
  | x (n : Nat)
  | scr (old : List (Nat × Byte))
  deriving DecidableEq, Repr

/-- Whose scratch write overwrote bytes: an XS write of a core, by its issue number, or an engine entry, by its serial number
(R123, R251). -/
inductive ScrSrc
  | core (c : CoreId) (issued : Nat)
  | entry (serial : Nat)
  deriving DecidableEq, Repr

/-- An open window of the XS issue `issued` at cycle `since`: it covers the issues below `closes` (R166, R167; log 7). `src` names the
party whose own overwritten bytes it keeps under a later write of this XS (R251), none for the XS itself. -/
structure Window where
  dst : WinDst
  closes : Nat
  issued : Nat := 0
  since : Nat := 0
  src : Option ScrSrc := none
  deriving DecidableEq, Repr

/-- A fault record (R329); CIX, CLUS, TASKID, LSEQ and LTAG are those of the task or unit it names. -/
structure FaultRec where
  cls : Nat
  src : Nat
  susp : Bool
  more : Bool := false
  clus : Nat := 0
  cix : Nat := 0
  oid : BitVec 32 := 0
  taskId : W64 := 0
  ltag : BitVec 32 := 0
  lseq : BitVec 32 := 0
  pc : W64 := 0
  d0 : W64 := 0
  d1 : W64 := 0
  d2 : W64 := 0
  deriving DecidableEq, Repr

/-- A fault-log entry (R334), packed as its map gives. -/
structure LogEnt where
  bits : BitVec 256
  deriving DecidableEq, Repr

/-- The progress of an engine entry (R277, R278, R307). -/
inductive EState
  | queued | running | halted
  deriving DecidableEq, Repr

/-- A command queue entry (R164, R274, R276): the command, the registers and capabilities copied at issue, its issuer; how
far its work went, whether its work is done, and the scratch bytes that it overwrote, which an unordered reader may still
see (R123). -/
structure Entry where
  cmd : Instr
  serial : Nat
  tag : BitVec 32
  core : CoreId
  taskId : W64
  lseq : BitVec 32
  pid : BitVec 32
  pc : W64
  regs : List W64 := []
  caps : List CapReg := []
  wv : Bool := false
  wsem : Nat := 0
  wcnt : Nat := 0
  sv : Bool := false
  ssem : Nat := 0
  dst : Nat := 0
  st : EState := .queued
  attnc : Bool := false
  prog : Nat := 0
  done : Bool := false
  fifo : Bool := false
  old : List (Nat × Byte) := []
  acks : Nat := 0
  result : W64 := 0
  since : Nat := 0
  reported : Bool := false
  /-- The class of the fault that halted the entry (R278), 0 for none. -/
  stop : Nat := 0
  /-- The place in its die list at which a die has refused the entry's chain: no die from there on takes more of it (R290, R352). -/
  cut : Option Nat := none
  deriving DecidableEq, Repr

/-- The data of a task's crew (R130, R134, R139, R143). -/
structure CrewInfo where
  lseq : BitVec 32 := 0
  ltag : BitVec 32 := 0
  index : Nat := 0
  size : Nat := 1
  scrm : BitVec 48 := 0
  fifom : BitVec 48 := 0
  semlo : Nat := 0
  semn : Nat := 0
  restart : Bool := false
  coresid : Bool := false
  feat : W64 := 0
  deriving DecidableEq, Repr

/-- A task: every piece of state that R139, R331 and the register rules give it. `pushed` is the XS issue of the last push
of a strand queue, which orders the scratch writes before it (R123); `replay` holds a restored task until its side log is
empty (R93). -/
structure Task where
  pid : BitVec 32 := 0
  taskId : W64 := 0
  pos : Nat := 0
  ord : Nat := 0
  crew : CrewInfo := {}
  a : AMap Nat W64 := []
  x : AMap Nat W64 := []
  c : AMap Nat CapReg := []
  kcap : CapReg := {}
  v : AMap Nat VReg := []
  t : AMap (Nat × Nat) VReg := []
  p : AMap Nat (BitVec 32) := []
  as : StrandSt := {}
  xs : StrandSt := {}
  q0 : List W64 := []
  q1 : List W64 := []
  q2 : List W64 := []
  q3 : List W64 := []
  bq : List Bool := []
  vq : List (VReg × BitVec 4) := []
  wq : List VReg := []
  gen : AMap Nat (BitVec 32) := []
  windows : List Window := []
  xissue : Nat := 0
  pushed : Nat := 0
  side : List SideEnt := []
  discarded : List SideEnt := []
  evq : List (BitVec 256) := []
  evLost : Bool := false
  stag : BitVec 32 := 1
  etag : BitVec 32 := 1
  refusals : List (BitVec 32 × Nat × BitVec 32) := []
  unacked : AMap DieId Nat := []
  /-- Those of the unacknowledged accesses that are ordered: a later ordered access waits for them (R110). -/
  unackedOrd : AMap DieId Nat := []
  remBase : Nat := 0
  remAt : Nat := 0
  pendReg : List (Nat × BitVec 32) := []
  remote : Remote := .idle
  susp : Option FaultRec := none
  replay : Bool := false
  deriving DecidableEq, Repr

/-- A matrix queue entry (R259, R264, R267): a multiply with the bytes that open windows of its own core may still show,
the latest write first (R271), a multiply that has run and is about to leave, and the other forms. -/
inductive MxEntry
  | mul (f : FmtT) (complex : Bool) (a b : W64) (old : List (List (Nat × Byte)))
  | ran
  | zero
  | zeroBlk (fmt : BitVec 4) (bi : Nat)
  | wr (fmt : BitVec 4) (bi : Nat) (rows : List VReg)
  | free
  deriving DecidableEq, Repr

/-- One row of the accumulator bank: 256 FP32 words (R259). -/
abbrev AccRow := BitVec 8192

/-- A core (R21, R259): its task, accumulator bank by rows of FP32 words, dirty blocks, matrix queue, wanted bit and first-level
extent cache. -/
structure Core where
  feature : W64 := 0x3FF
  task : Option Task := none
  acc : AMap Nat AccRow := []
  dirty : List Nat := []
  mxq : List MxEntry := []
  wanted : Bool := false
  ecache : AMap TKey TEntry := []
  fenced : Bool := false
  deriving DecidableEq, Repr

/-- Bank modes; TRANSIT carries the mode to enter and the completion semaphore (R79, R80). -/
inductive Mode
  | cache | scratch | fifo
  deriving DecidableEq, Repr
structure Transit where
  target : Mode
  sem : Option Nat
  since : Nat
  deriving DecidableEq, Repr
structure Bank where
  mode : Mode := .cache
  transit : Option Transit := none
  epoch : Nat := 0
  fifo : List Line := []
  dirty : List Nat := []
  deriving DecidableEq, Repr

/-- The lease of the matrix array (R148, R261). -/
structure Lease where
  holder : Option Nat := none
  cmds : Nat := 0
  since : Nat := 0
  last : Nat := 3
  reqs : List Nat := []
  deriving DecidableEq, Repr

/-- A crew resident on a cluster (R143): its data, tasks still to start (position and ordinal), effective class, whether its
semaphores heard another die (R330), its drain or capture (`choice` 0 none, 1 drain, 3 capture, 4 capture with the fault
kept by .park) and the queued entries that a capture has set aside (R307). -/
structure CrewRes where
  info : CrewInfo
  pid : BitVec 32
  cores : List Nat
  tids : List W64 := []
  unstarted : List (Nat × Nat)
  cls : Nat := 3
  heard : Bool := false
  drainBy : Option Nat := none
  choice : Nat := 0
  saved : List Entry := []
  deriving DecidableEq, Repr

/-- A page translation that an attention request holds (R301). -/
structure AeTrans where
  pid : BitVec 32
  serial : Nat
  seq : Nat
  layer : Nat
  lblk : Nat
  page : Nat
  vlen : Nat := 0
  since : Nat := 0
  deriving DecidableEq, Repr

/-- A cluster (R21, R79, R225, R273). -/
structure Cluster where
  bank : AMap Nat Bank := []
  scr : AMap Nat Byte := []
  sems : AMap Nat (BitVec 32) := []
  queues : AMap EngQ (List Entry) := []
  l1 : List (LineKey × L1Line) := []
  ae : List AeTrans := []
  lease : Lease := {}
  crews : List CrewRes := []
  reserved : Option (BitVec 32) := none
  fenced : Bool := false
  deriving DecidableEq, Repr

/-- A lode entry: the launch, and what its scheduler knows of it (R141, R142, R145). -/
structure LodeEnt where
  lseq : BitVec 32
  pcrit : Bool
  reserve : Bool := false
  ready : Option Nat := none
  deps : List Bool := []
  skipped : Option Nat := none
  blocking : Bool := false
  deriving DecidableEq, Repr

/-- A bank as a checkpoint image holds it: bytes outside `frames` are zero, or once a write has harmed the image undefined, those of
`epoch` (R312, R331). -/
structure BankImg where
  idx : Nat
  mode : Mode
  frames : AMap Nat (List (Nat × Byte))
  fifo : List Line
  epoch : Nat := 0
  deriving DecidableEq, Repr

/-- A checkpoint image of one crew, which keeps its slot until the crew ends (R312, R331): `away` while the crew is captured,
`held` while it is PARKED, `resumable` its place among the crews to restore, `slot` its place in the area of SYS.SAVE, `harmed`
once a write has reached its bytes. -/
structure Image where
  info : CrewInfo
  pid : BitVec 32
  slab : Nat
  tasks : List Task
  acc : List (AMap Nat AccRow)
  wanted : List Bool
  dirtyBlk : List (List Nat)
  banks : List BankImg
  sems : AMap Nat (BitVec 32)
  entries : List Entry
  resumable : Option Nat := none
  held : Bool := true
  away : Bool := true
  slot : Nat := 0
  harmed : Bool := false
  deriving DecidableEq, Repr

/-- A slab's scheduler, system registers, queues and buffers (R21, R141 to R145, R308 to R312, R329). -/
structure Slab where
  pid : BitVec 32 := 0
  drain : W64 := 20000
  wdog : W64 := 0x4000
  fq : W64 := 0
  flog : W64 := 0
  save : W64 := 0
  causeTail : BitVec 28 := 0
  causeHead : BitVec 28 := 0
  flLost : BitVec 32 := 0
  flTail : BitVec 32 := 0
  /-- Entries that the ring of SYS.FLOG holds, at most its size (R334). -/
  flHeld : Nat := 0
  prio : W64 := 0
  prioNow : W64 := 0
  buckets : List Nat := [0, 0, 0]
  refillAt : Nat := 0
  otbase : W64 := 0
  pending : List FaultRec := []
  /-- How many of the pending records the launches they name have taken note of (R152). -/
  noted : Nat := 0
  fbuf : List FaultRec := []
  fring : List FaultRec := []
  logbuf : List (BitVec 256) := []
  lode : List LodeEnt := []
  overflow : List (BitVec 32 × Bool) := []
  queues : AMap EngQ (List Entry) := []
  armed : List Entry := []
  fired : List Entry := []
  shcache : AMap TKey TEntry := []
  posted : List TKey := []
  images : List Image := []
  supst : Nat := 2
  fencedSlices : List Nat := []
  fencedChans : List Nat := []
  fence : Bool := false
  deriving DecidableEq, Repr

/-- A counting barrier (R226). -/
structure Barrier where
  phase : BitVec 32 := 0
  expect : BitVec 24 := 0
  count : BitVec 24 := 0
  deriving DecidableEq, Repr

/-- A stream record with its input FIFO, oldest first, and its listener (R302, R337); FCNT, SCNT and FHEAD's frames are
the list's. -/
structure SRec where
  seq : BitVec 24 := 0
  policy : Nat := 0
  v : Bool := false
  play : BitVec 32 := 0
  gen : BitVec 32 := 0
  cmt : BitVec 32 := 0
  rply : BitVec 32 := 0
  sint : BitVec 16 := 0
  fhead : Nat := 0
  shead : Nat := 0
  nlm1 : BitVec 12 := 0
  svalid : BitVec 8 := 0
  snap : AMap Nat (BitVec 32) := []
  fifo : List (BitVec 32 × BitVec 32) := []
  listener : Option W64 := none
  deriving DecidableEq, Repr

/-- A die (R21, R30, R333). `downLinks` are the logical directions whose link stays in STATE 4 because it failed R370 or joins a die
that failed its controller's authentication (R371); `full` the packet types whose input buffer is full, 16 standing for the transit
buffers of its router (R350). -/
structure Die where
  live : Bool := true
  downLinks : List Nat := []
  full : List Nat := []
  heTurn : Nat := 0
  leTurn : Nat := 0
  barriers : AMap Nat Barrier := []
  recs : AMap Nat SRec := []
  streams : AMap (Nat × Nat) (List Byte) := []
  fencedPorts : List Nat := []
  fencedRouter : Bool := false
  corrected : AMap (Nat × Nat) Nat := []
  deriving DecidableEq, Repr

/-- What a packet carries (R346, R347, R352): the partition under whose key it travels, its descriptor, its order and its
data. -/
inductive Body
  | write (pid : BitVec 32) (src : CoreId) (task : W64) (r : Res) (op : WOp) (ord : Ordr)
  | read (pid : BitVec 32) (src : CoreId) (task : W64) (r : Res) (n : Nat) (versioned : Bool) (sync : Bool)
  | rdata (pid : BitVec 32) (dst : CoreId) (task : W64) (data : Line) (tags : BitVec 8) (ver : BitVec 48) (isOpen : Bool)
  | atomic (pid : BitVec 32) (src : CoreId) (task : W64) (r : Res) (fn : Nat) (ty : BitVec 4) (b : W64) (e : W64)
      (kind : Nat) (ord : Ordr)
  | aresp (pid : BitVec 32) (dst : CoreId) (task : W64) (v : W64) (ver : BitVec 48) (ok : Bool) (unsupported : Bool)
  | ack (pid : Option (BitVec 32)) (seq : Option (BitVec 24)) (task : W64) (entry : Option (QueueId × Nat))
  | refuse (pid : Option (BitVec 32)) (seq : Option (BitVec 24)) (task : W64) (src : CoreId) (reason : Nat) (owner : W64)
      (byte : Option Nat) (posted : Bool) (entry : Option (QueueId × Nat)) (place : Nat)
  | busy (pid : Option (BitVec 32)) (seq : BitVec 24)
  | demand (pid : Option (BitVec 32)) (flits : Nat)
  | grant (pid : Option (BitVec 32)) (flits : Nat)
  | flag (pid : BitVec 32) (r : Res) (q : QueueId) (serial : Nat)
  | semadd (pid : BitVec 32) (clus : Nat) (sem : Nat) (q : QueueId) (serial : Nat)
  | forward (pid : BitVec 32) (oid : BitVec 32) (byte : Nat) (data : List Byte) (rest : List DieId) (sem : Option Nat)
      (clus : Nat) (q : QueueId) (serial : Nat) (place : Nat)
  | ewrite (pid : BitVec 32) (r : Res) (data : List Byte) (q : QueueId) (serial : Nat)
  | stream (pid : BitVec 32) (clus : Nat) (port : Nat) (data : List Byte) (q : QueueId) (serial : Nat) (byte : Nat)
  | mgmt (payload : BitVec 256)
  | reserved
  deriving DecidableEq, Repr

/-- A packet in flight or kept by its sender (R346, R349). `key` and `secret` are the key epoch and the secret of its
partition at sending: a link key is a function of these and of the pair (R348, R372). `zeros` is false when a zero field of its
header is not zero. -/
structure Packet where
  seq : BitVec 24
  key : BitVec 6
  secret : BitVec 384 := 0
  tag : BitVec 32
  circ : Bool := false
  zeros : Bool := true
  body : Body
  deriving DecidableEq, Repr

/-- The traffic of one (SRC, DST) pair (R346 to R351). -/
structure Pair where
  next : BitVec 24 := 0
  wraps : BitVec 48 := 0
  expect : BitVec 24 := 0
  flight : List Packet := []
  kept : List (Packet × Nat) := []
  waiting : List Packet := []
  demand : Bool := false
  grants : List (Nat × Nat) := []
  resendAt : Option (BitVec 24 × Nat) := none
  deriving DecidableEq, Repr

/-- A stratum of a launch on one die; `turn` is the slab whose scheduler takes the next crew that both could place (R134,
R138, R141, R152). -/
structure Stratum where
  owned : List Nat
  crews : Nat
  nextCrew : Nat := 0
  restartq : List (Nat × List Nat) := []
  left : Nat
  turn : Nat := 0
  reported : Bool := false
  deriving DecidableEq, Repr

/-- A packet on its way to the root: from a host queue, or from a LAUNCH with the entry that issued it (R137, R305). -/
structure Sub where
  packet : BitVec 2048
  kcap : CapReg
  acap : CapReg
  qp : Option Nat := none
  ctag : BitVec 32 := 0
  issuer : Option Entry := none
  deriving DecidableEq, Repr

/-- A launch (R135 to R153). -/
structure Launch where
  lseq : BitVec 32
  packet : BitVec 2048
  kcap : CapReg
  acap : CapReg
  header : BitVec 512 := 0
  qp : Option Nat := none
  ctag : BitVec 32 := 0
  issuer : Option Entry := none
  dies : List DieId := []
  evaluated : Bool := false
  strata : AMap DieId Stratum := []
  status : Nat := 7
  reported : Nat := 0
  ending : Bool := false
  /-- By die, the cycle from which the conditions of R150 have held without a break. -/
  watch : AMap DieId Nat := []
  /-- Dies whose co-resident stratum has been reported as unable ever to fit (R151). -/
  raised : List DieId := []
  /-- The class of the latest fault record that names the launch, 0 for none (R152). -/
  last : Nat := 0
  deriving DecidableEq, Repr

/-- A re-shard schedule: object and ordered pair of layouts (R287). -/
structure Sched where
  oid : BitVec 32
  frm : W64
  tgt : W64
  deriving DecidableEq, Repr

/-- A partition action in progress (R33, R358). -/
structure Action where
  act : Nat
  step : Nat
  kill : Bool
  slabs : List SlabId
  newSlabs : List SlabId
  newShape : Nat
  newLo : DieId
  newHi : DieId
  qp : Option Nat
  ctag : BitVec 32
  /-- The package whose controller performs it and answers. -/
  pkg : DieId := 0
  deriving DecidableEq, Repr

/-- A partition (R27, R28, R33, R137, R287, R361, R372). -/
structure Part where
  shape : Nat
  lo : DieId
  hi : DieId
  dies : List DieId
  slabs : List SlabId
  limit : Nat
  out : Nat := 0
  next : BitVec 32 := 1
  launches : AMap (BitVec 32) Launch := []
  /-- Launches that have ended, whose LDONE record waits for room in the issuer's event queue (R306). -/
  done : AMap (BitVec 32) Launch := []
  subs : List Sub := []
  epoch : BitVec 6 := 1
  secret : BitVec 384 := 0
  windowAt : Nat := 0
  follow : AMap TKey (DieId × Nat × Nat) := []
  windowed : List TKey := []
  /-- Extents that a migration has marked moving (R99 step 1), with the die and slab they move to. -/
  moving : AMap TKey SlabId := []
  scheds : List Sched := []
  /-- Tasks that no core and no image held when an event record for them was dropped (R337). -/
  lostTo : List W64 := []
  action : Option Action := none
  deriving DecidableEq, Repr

/-- A host command (R356): header and, for LAUNCH, the packet. -/
structure HostCmd where
  hdr : BitVec 256
  body : BitVec 2048 := 0
  deriving DecidableEq, Repr

/-- A host queue pair (R354 to R358, R361). -/
structure QPair where
  pid : BitVec 32 := 0
  admin : Bool := false
  error : Bool := false
  naks : Nat := 0
  sqHead : BitVec 16 := 0
  sqTail : BitVec 16 := 0
  cqTail : BitVec 16 := 0
  waiting : List HostCmd := []
  cq : List (BitVec 256) := []
  rate : Nat := 1600
  deriving DecidableEq, Repr

/-- A registered host region (R356): its key, host address and length. -/
structure Region where
  pid : BitVec 32
  oid : BitVec 32
  rkey : BitVec 32
  addr : W64
  len : Nat
  deriving DecidableEq, Repr

/-- Counters of a fabric link (R361). -/
structure LinkSt where
  state : Nat
  corr : BitVec 32 := 0
  drop : BitVec 32 := 0
  authFail : BitVec 32 := 0
  returns : BitVec 32 := 0
  deriving DecidableEq, Repr

/-- What the management port answers (R358, R360, R367): the status of a partition action with its tag, a summary's number, or BUSY to
a second delivery. -/
inductive MgmtAns
  | pact (status : Nat) (ctag : BitVec 32)
  | resync (sgen : BitVec 32)
  | busy
  deriving DecidableEq, Repr

/-- What a boot meets outside the controller (R15, R359, R363, R369, R370): the wrap bits that training sets, the dies that fail the
controller's authentication, the links by 6n + k whose own authentication fails, the expanders (bit 0 logical die 1, bit 1 logical die 3)
whose link cannot run CXL IDE, the logical directions in which the session with the neighbouring controller fails, and whether the links'
training takes until a later turn. -/
structure BootIn where
  wrap : BitVec 3 := Config.wrap
  dieFail : BitVec 8 := 0
  linkFail : BitVec 48 := 0
  cxlFail : BitVec 2 := 0
  pmcFail : BitVec 6 := 0
  pause : Bool := false
  deriving DecidableEq, Repr

/-- An identity key and what its certificate says: the package serial, the physical position, 8 for the controller, and the root of its
chain (R369). -/
structure Ident where
  key : BitVec 384 := 0
  serial : W64 := 0
  pos : Nat := 0
  root : BitVec 384 := 0
  deriving DecidableEq, Repr

/-- A die's own slab, launch and link entries of a summary (R362). -/
structure DieCap where
  slabs : List (BitVec 256)
  launches : List (BitVec 256)
  links : List (BitVec 256)
  deriving DecidableEq, Repr

/-- A copy in the controller's flash (R367): empty, the image the part left test with, or a delivered one (log 4). -/
inductive FwCopy
  | empty | shipped
  | image (i : FwImage)
  deriving DecidableEq, Repr

/-- A package and its management controller (R15, R23, R354 to R376). `boot` is what its last reset met, `cxlOff` its disabled
expanders (R359), `booting` set while its links train (R363 step 4), `exported` its part of the keys that its links' sessions export
(R372), `transfer` the image of a delivery in progress (R367), `answers` what its management port has answered, oldest first; `serial`
and `root` are the package's serial and fused root, `idents` its dies' and its controller's identities by die number, 8 for the
controller (R369); `asked` is the cycle at which a RESYNC not yet answered came, `early` what dies have captured for it (R362). -/
structure Pkg where
  wrap : BitVec 3 := Config.wrap
  qps : AMap Nat QPair := []
  regions : List Region := []
  links : AMap (Nat × Nat) LinkSt := []
  sgen : BitVec 32 := 0
  summary : List (BitVec 256) := []
  fwver : BitVec 32 := 0
  fwstate : Nat := 0
  digest : BitVec 384 := 0
  svn : BitVec 32 := 0
  svnFloor : Nat := 0
  rsaHash : BitVec 384 := 0
  slhHash : BitVec 384 := 0
  active : FwCopy := .shipped
  staging : FwCopy := .empty
  selector : Bool := false
  transfer : Option FwImage := none
  boot : BootIn := {}
  booting : Bool := false
  serial : W64 := 0
  root : BitVec 384 := 0
  idents : AMap Nat Ident := []
  asked : Option Nat := none
  early : AMap DieId DieCap := []
  cxlOff : BitVec 2 := 0
  exported : BitVec 384 := 0
  session : Bool := false
  answers : List MgmtAns := []
  cap : Nat := 4600
  drawn : Nat := 0
  mhz : Nat := 1200
  ownMhz : Nat := 1200
  others : AMap DieId Nat := []
  celsius : Nat := 0
  tripped : Bool := false
  trips : Nat := 0
  log : List (BitVec 256) := []
  frecs : List FaultRec := []
  resetAt : Nat := 0
  deriving DecidableEq, Repr

/-- Whose turn it is: an event of the table, an instruction of a strand, or the passing of cycles (log 1). The others have no row in
the table: a buffer of a die fills or empties (R350), a port begins or ends to compress (R353), a package goes on booting (R363, R368),
the transfer of a delivery begins (R367), a package's next boot gets the outcome of what it meets (R359, R369, R370), a partition action
goes on to its next step (R33), a RESYNC's request comes, or a die captures its entries for it (R362). -/
inductive Turn
  | event (e : Instr)
  | strand (c : CoreId) (x : Strand)
  | elapse (n : Nat)
  | buffer (d : DieId) (type : Nat) (full : Bool)
  | compress (d : DieId) (k : Nat) (on : Bool)
  | boot (pkg : DieId)
  | transfer (pkg : DieId) (img : FwImage)
  | training (pkg : DieId) (linkFail : BitVec 48) (cxlFail : BitVec 2) (pmcFail : BitVec 6) (pause : Bool)
  | partStep (pid : BitVec 32)
  | capture (pkg : DieId) (d : Option DieId)
  deriving DecidableEq, Repr

/-- The strand whose instruction is next when no turn is listed (log 1). -/
structure Cur where
  core : CoreId
  x : Strand
  deriving DecidableEq, Repr

/-- The whole machine. -/
structure State where
  ck : Nat
  mem : List Host.Cell
  memTags : List Nat
  hostMem : List Host.Cell
  l2 : List (LineKey × HLine)
  cores : List (CoreId × Core)
  clusters : List (ClusterId × Cluster)
  slabs : List (SlabId × Slab)
  dies : List (DieId × Die)
  parts : List (BitVec 32 × Part)
  pkgs : List (DieId × Pkg)
  net : List ((DieId × DieId) × Pair)
  agenda : List Turn
  cur : Option Cur
  free : Nat
  serial : Nat
  deriving DecidableEq, Repr

/-- Ways a run stops with a fault. The faults of the spec are next states (R326); this type holds only what no rule
gives an effect. -/
inductive Fault
  /-- Raised by `step`: the current strand stands on a die coordinate outside the 48×48×32 torus of R2, which does not
  exist. Safe: nothing is claimed of such a state. -/
  | noSuchDie
  deriving DecidableEq, Repr

/-- Ways a step is refused. -/
inductive Refusal
  /-- Raised by `exec` for an instruction without a meaning yet. Safe. -/
  | notModelled (mnemonic : String)
  deriving DecidableEq, Repr

/-- The machine right after package reset (R363): no partition, no task, memory zero-filled. -/
def State.reset : State :=
  { ck := 0, mem := [], memTags := [], hostMem := [], l2 := [], cores := [], clusters := [], slabs := [], dies := [],
    parts := [], pkgs := [], net := [], agenda := [], cur := none, free := 0, serial := 0 }

end Sys2Proof.Machine
end

