-- ==== Sys2Proof/Machine/Ops.lean ====
section
/-! DEFINITION. The named operations over memory, units and registers, and the one operation by which a strand takes a
fault (R326). -/

namespace Sys2Proof.Machine

abbrev Out := Host.Outcome State Fault Refusal

/-! ### Memory (R66): a rising list of cells; an unlisted byte reads 0 (log 5). -/

def memByte (m : List Host.Cell) (a : Nat) : Byte :=
  match m with
  | [] => 0
  | (k, v) :: r => if k = a then v else if a < k then 0 else memByte r a

/-- Writing 0 removes the entry, so equal memories are equal lists. -/
def memPut (m : List Host.Cell) (a : Nat) (b : Byte) : List Host.Cell :=
  match m with
  | [] => if b = 0 then [] else [(a, b)]
  | (k, v) :: r =>
    if k = a then (if b = 0 then r else (a, b) :: r)
    else if a < k then (if b = 0 then (k, v) :: r else (a, b) :: (k, v) :: r)
    else (k, v) :: memPut r a b

/-- Addresses strictly rising from a bound, no entry equal to what an unlisted address reads as. -/
def memWfFrom (lo : Nat) (m : List Host.Cell) : Bool :=
  match m with
  | [] => true
  | (k, v) :: r => decide (lo ≤ k) && v != 0 && memWfFrom (k + 1) r
def Memory.wf (m : List Host.Cell) : Bool := memWfFrom 0 m

def memBytes (m : List Host.Cell) (a : Nat) (n : Nat) : List Byte := (List.range n).map fun i => memByte m (a + i)
def memPutAll (m : List Host.Cell) (a : Nat) (b : List Byte) : List Host.Cell :=
  match b with
  | [] => m
  | x :: r => memPutAll (memPut m a x) (a + 1) r

/-! ### Units -/

def coreAt (s : State) (c : CoreId) : Core := lkpD s.cores c {}
def setCore (s : State) (c : CoreId) (k : Core) : State := { s with cores := ins s.cores c k }
def clusterAt (s : State) (c : ClusterId) : Cluster := lkpD s.clusters c {}
def setCluster (s : State) (c : ClusterId) (k : Cluster) : State := { s with clusters := ins s.clusters c k }
def slabAt (s : State) (c : SlabId) : Slab := lkpD s.slabs c {}
def setSlab (s : State) (c : SlabId) (k : Slab) : State := { s with slabs := ins s.slabs c k }
def dieAt (s : State) (d : DieId) : Die := lkpD s.dies d {}
def setDie (s : State) (d : DieId) (k : Die) : State := { s with dies := ins s.dies d k }
def pkgAt (s : State) (p : DieId) : Pkg := lkpD s.pkgs p {}
def setPkg (s : State) (p : DieId) (k : Pkg) : State := { s with pkgs := ins s.pkgs p k }
def partAt (s : State) (pid : BitVec 32) : Option Part := lkp s.parts pid
def setPart (s : State) (pid : BitVec 32) (k : Part) : State := { s with parts := ins s.parts pid k }
def pairAt (s : State) (a b : DieId) : Pair := lkpD s.net (a, b) {}
def setPair (s : State) (a b : DieId) (k : Pair) : State := { s with net := ins s.net (a, b) k }
def modCore (s : State) (c : CoreId) (f : Core → Core) : State := setCore s c (f (coreAt s c))
def modCluster (s : State) (c : ClusterId) (f : Cluster → Cluster) : State := setCluster s c (f (clusterAt s c))
def modSlab (s : State) (c : SlabId) (f : Slab → Slab) : State := setSlab s c (f (slabAt s c))
def modDie (s : State) (d : DieId) (f : Die → Die) : State := setDie s d (f (dieAt s d))
def modPkg (s : State) (p : DieId) (f : Pkg → Pkg) : State := setPkg s p (f (pkgAt s p))
def modPart (s : State) (pid : BitVec 32) (f : Part → Part) : State :=
  match partAt s pid with | none => s | some p => setPart s pid (f p)
def modPair (s : State) (a b : DieId) (f : Pair → Pair) : State := setPair s a b (f (pairAt s a b))
def modTask (s : State) (c : CoreId) (f : Task → Task) : State :=
  modCore s c fun k => { k with task := k.task.map f }

/-- The core on which a task is resident. -/
def coreOfTask (s : State) (pid : BitVec 32) (tid : W64) : Option CoreId :=
  match s.cores.find? (fun ck => match ck.2.task with | some t => t.pid == pid && t.taskId == tid | none => false) with
  | some (c, _) => some c
  | none => none
/-- Change a task on its core, or in the image that holds it. -/
def modTaskId (s : State) (pid : BitVec 32) (tid : W64) (f : Task → Task) : State :=
  match coreOfTask s pid tid with
  | some c => modTask s c f
  | none =>
    let mine := fun (t : Task) => t.pid == pid && t.taskId == tid
    let img := fun (im : Image) => if im.away then { im with tasks := im.tasks.map fun t => if mine t then f t else t } else im
    if s.slabs.any fun sb => sb.2.images.any fun im => im.away && im.tasks.any mine then
      { s with slabs := s.slabs.map fun sb => (sb.1, { sb.2 with images := sb.2.images.map img }) }
    else s

/-- A supervisor task has LSEQ 0 (R140). -/
def isSup (t : Task) : Bool := t.crew.lseq == 0

/-! ### Physical memory (R66, R75): an access sees the resident line of oid 0 before memory. -/

def isPhysLine (line : Nat) (kl : LineKey × HLine) : Bool := kl.1.oid == 0 && kl.1.line == line

def physByte (s : State) (a : Nat) : Byte :=
  match s.l2.find? (isPhysLine (a / 256)) with
  | some (_, l) => BitVec.ofNat 8 (lineGet l.data (a % 256) 1)
  | none => memByte s.mem a
def physRead (s : State) (a n : Nat) : Nat := ofBytes ((List.range n).map fun i => physByte s (a + i))
/-- A write below the L2: memory, and the resident line of oid 0 where there is one; the granule loses its tag (R72). -/
def physPut (s : State) (a : Nat) (b : Byte) : State :=
  { s with
    mem := memPut s.mem a b
    memTags := s.memTags.filter (· != a / 32)
    l2 := s.l2.map fun kl =>
      if isPhysLine (a / 256) kl then
        (kl.1, { kl.2 with data := lineSet kl.2.data (a % 256) 1 b.toNat, tags := kl.2.tags &&& ~~~ granulesTouched (a % 256) 1 })
      else kl }
def physWrite (s : State) (a : Nat) (b : List Byte) : State :=
  match b with
  | [] => s
  | x :: r => physWrite (physPut s a x) (a + 1) r

/-! ### The strand that executes -/

/-- The executing strand, its core and its task. -/
structure Here where
  core : CoreId
  x : Strand
  k : Core
  t : Task
  deriving DecidableEq, Repr

def here (s : State) : Option Here :=
  match s.cur with
  | none => none
  | some c =>
    match (coreAt s c.core).task with
    | none => none
    | some t => some { core := c.core, x := c.x, k := coreAt s c.core, t := t }

def strandOf (t : Task) (x : Strand) : StrandSt := match x with | .as => t.as | .xs => t.xs
def setStrand (t : Task) (x : Strand) (st : StrandSt) : Task :=
  match x with | .as => { t with as := st } | .xs => { t with xs := st }
def otherStrand (x : Strand) : Strand := match x with | .as => .xs | .xs => .as

/-- PC of the executing strand (R187). -/
def pcOf (h : Here) : W64 := (strandOf h.t h.x).pc

/-- A window still covers an instruction that issues now: fewer than L cycles and fewer than L XS issues have passed
(R166, R167; log 7). -/
def winOpen (ck : Nat) (t : Task) (w : Window) : Bool :=
  decide (t.xissue < w.closes ∧ ck < w.since + (w.closes - w.issued))
/-- The windows that stay, oldest first, with the scratch addresses that closed ones wrote: a closed write has landed over the
bytes that older windows cover (R167, R251). -/
def pruneWins (stays : Window → Bool) : List Window → List Window × List Nat
  | [] => ([], [])
  | w :: r =>
    let (ws, gone) := pruneWins stays r
    match w.dst with
    | .scr old =>
      if stays w then ({ w with dst := .scr (old.filter fun x => !gone.contains x.1) } :: ws, gone)
      else (ws, old.map (·.1) ++ gone)
    | _ => if stays w then (w :: ws, gone) else (ws, gone)
def closeWins (stays : Window → Bool) (l : List Window) : List Window := (pruneWins stays l).1
/-- The strand waits for nothing, and its next access passes every check of R74. -/
def unheld (st : StrandSt) : StrandSt := { st with held := none, past := none, fetchPast := false, got := [] }
/-- The strand goes on at `pc`; an XS instruction counts as one issue and closed windows are dropped (R155, R167). -/
def advance (x : Strand) (pc : W64) (t : Task) : Task :=
  let t1 := setStrand t x { unheld (strandOf t x) with pc := pc }
  match x with
  | .as => t1
  | .xs => { t1 with xissue := t1.xissue + 1, windows := closeWins (fun w => decide (t1.xissue + 1 < w.closes)) t1.windows }
/-- The instruction has its effect and the strand goes on at `pc` (R155). -/
def retireTo (h : Here) (pc : W64) (s : State) : State :=
  modTask { s with free := s.free + 1 } h.core (advance h.x pc)
def retire (h : Here) (s : State) : State := retireTo h (pcOf h + 8) s

def sameHold (a b : HoldWhy) : Bool :=
  match a, b with
  | .idle _, .idle _ => true
  | a, b => a == b
/-- The holds that the watchdog counts (R325). -/
def counted (y : HoldWhy) : Bool :=
  match y with
  | .extent | .moving | .movingAt _ | .fetch | .transit | .fifo | .engineFull | .matrixFull | .sideLog => true
  | _ => false
/-- The waits of one instruction that count from its issue: those that the watchdog counts (R325). -/
def sameCount (a b : HoldWhy) : Bool := counted a && counted b
/-- A wait for a MOVING object is noted: the access goes on from check 7 when it is made again, whatever it waits for in between (R74). -/
def notePast (why : HoldWhy) (st : StrandSt) : StrandSt :=
  match why with
  | .moving => { st with past := some (max 0 (st.past.getD 0)) }
  | .movingAt n => { st with past := some (max n (st.past.getD 0)) }
  | .fetch => { st with fetchPast := true }
  | _ => st
/-- The instruction waits: it has not executed, and the core's other strand is next (R146, R195, R325). -/
def hold (h : Here) (why : HoldWhy) (s : State) : State :=
  let s1 := modTask s h.core fun t =>
    let st := strandOf t h.x
    let since := match st.held with
      | some hd =>
        if sameHold hd.why why then hd else if sameCount hd.why why then ⟨why, hd.since⟩ else ⟨why, s.ck⟩
      | none => ⟨why, s.ck⟩
    setStrand t h.x { notePast why st with held := some since }
  { s1 with cur := some { core := h.core, x := otherStrand h.x } }

/-- SYS.REMAIN at a cycle: it falls by 1 a cycle while the task is resident and not suspended (R309). -/
def remainOf (s : State) (t : Task) : Nat := if t.susp.isSome then t.remBase else t.remBase - (s.ck - t.remAt)
def freezeRemain (s : State) (t : Task) : Task := { t with remBase := remainOf s t, remAt := s.ck }

/-- The record of a precise fault of the executing strand (R329). -/
def strandRec (h : Here) (cls : Nat) (oid : BitVec 32) (d0 d1 d2 : W64) : FaultRec :=
  { cls := cls, src := (match h.x with | .as => 8 | .xs => 9), susp := true, clus := (CoreId.cluster h.core).clus,
    cix := cix h.core, oid := oid, taskId := h.t.taskId, ltag := h.t.crew.ltag, lseq := h.t.crew.lseq, pc := pcOf h,
    d0 := d0, d1 := d1, d2 := d2 }

/-- Suspend a task: issued V and T results land, so every window is closed, and its strands issue nothing (R168, R326). -/
def suspendTask (r : FaultRec) (t : Task) : Task :=
  { t with susp := some r, windows := [], as := unheld t.as, xs := unheld t.xs }

/-- Post a record toward the fault queue of a slab; FAULT_RECORD_POST writes it to the ring (R329). -/
def postRec (s : State) (sl : SlabId) (r : FaultRec) : State :=
  modSlab s sl fun b => { b with pending := b.pending ++ [r] }

/-- TAKING A FAULT (R326): the instruction has no effect, the task is suspended on its core, and a record with SUSP = 1 is
posted. The supervisor's own fault goes to the package management controller instead (R323). -/
def takeFault (s : State) (h : Here) (cls : Nat) (d0 : W64 := 0) (d1 : W64 := 0) (d2 : W64 := 0)
    (oid : BitVec 32 := 0) : State :=
  let r := strandRec h cls oid d0 d1 d2
  let s1 := modTask s h.core fun t => suspendTask r (freezeRemain s t)
  if isSup h.t then
    modSlab (modPkg s1 (pkgOf h.core.die) fun p => { p with frecs := p.frecs ++ [r] }) (coreSlab h.core) fun b =>
      { b with supst := 1 }
  else postRec s1 (coreSlab h.core) r

/-- The word of an instruction, for a record's D0 (R328). -/
def wordOf (i : Instr) : W64 := (encode i).getD 0

/-- The instruction names the destination of an engine result that is still to come (R276). -/
def interlocked (h : Here) (i : Instr) : Bool :=
  h.x == .as && h.t.pendReg.any fun p => (aRegs i).any fun r => r.toNat == p.1
/-- The task's crew is being captured, so its strands issue nothing more (R331). -/
def capturing (s : State) (c : ClusterId) (pid : BitVec 32) (tid : W64) : Bool :=
  (clusterAt s c).crews.any fun cr => decide (3 ≤ cr.choice) && cr.pid == pid && cr.tids.contains tid
/-- Checks 4, 5, 6 and 7 of R173, privilege among check 6 (R171, R308), then the form's own effect. -/
def onStrand (i : Instr) (s : State) (f : Here → State) : Out :=
  .next <|
    match here s with
    | none => s
    | some h =>
      if h.t.susp.isSome || capturing s (CoreId.cluster h.core) h.t.pid h.t.taskId then s
      else if !strandOk i h.x then takeFault s h 1 (wordOf i)
      else if featuresOf i &&& ~~~ h.k.feature != 0 then takeFault s h 2 (wordOf i) (featuresOf i &&& ~~~ h.k.feature)
      else if !fieldsOk i || (supOnly i && !isSup h.t) then takeFault s h 1 (wordOf i)
      else if interlocked h i then hold h .reg s
      else if h.t.replay && !h.t.side.isEmpty then hold h .replay s
      else f h

/-! ### Scalar and capability registers (R156, R166) -/

/-- The XS register is inside the latency window of a VEXT (R246). -/
def xInWindow (ck : Nat) (t : Task) (n : Nat) : Bool := t.windows.any fun w => w.dst == .x n && winOpen ck t w

/-- A scalar register of the executing strand; register 0 reads 0; an x register inside its window is undefined. -/
def rdG (s : State) (h : Here) (n : BitVec 6) : W64 :=
  if n = 0 then 0
  else match h.x with
    | .as => lkpD h.t.a n.toNat 0
    | .xs => if xInWindow s.ck h.t n.toNat then Config.freeBits s.free n.toNat else lkpD h.t.x n.toNat 0
/-- Writes to register 0 are discarded (R156). -/
def wrReg (x : Strand) (n : Nat) (v : W64) (t : Task) : Task :=
  if n = 0 then t
  else match x with
    | .as => { t with a := ins t.a n v }
    | .xs => { t with x := ins t.x n v }
def wrG (h : Here) (n : BitVec 6) (v : W64) (s : State) : State := modTask s h.core (wrReg h.x n.toNat v)
def rdC (t : Task) (n : BitVec 6) : CapReg := lkpD t.c n.toNat {}
def wrC (h : Here) (n : BitVec 6) (k : CapReg) (s : State) : State :=
  modTask s h.core fun t => { t with c := ins t.c n.toNat k }

/-! ### Capability fields (R71) -/

def capOid (k : CapReg) : BitVec 32 := k.bits.extractLsb' 0 32
def capLgen (k : CapReg) : Nat := bitsN k.bits 32 16
def capRights (k : CapReg) : Nat := bitsN k.bits 48 12
def capSealed (k : CapReg) : Bool := k.bits.getLsbD 59
def capBase (k : CapReg) : Nat := bitsN k.bits 64 64
def capLen (k : CapReg) : Nat := bitsN k.bits 128 64
def capOff (k : CapReg) : Int := (k.bits.extractLsb' 192 64).toInt
/-- A capability from its fields. -/
def mkCap (oid : Nat) (lgen rights base len off : Nat) : BitVec 256 :=
  BitVec.ofNat 256 (oid % 2 ^ 32 + lgen % 2 ^ 16 * 2 ^ 32 + rights % 2 ^ 12 * 2 ^ 48 + base % 2 ^ 64 * 2 ^ 64 +
    len % 2 ^ 64 * 2 ^ 128 + off % 2 ^ 64 * 2 ^ 192)
def hasRights (k : CapReg) (need : Nat) : Bool := decide (capRights k &&& need = need)
def rLD : Nat := 1
def rST : Nat := 2
def rAMO : Nat := 4
def rVER : Nat := 8
def rENG : Nat := 16
def rEXEC : Nat := 32
def rGRANT : Nat := 64
def rCLD : Nat := 128
def rCST : Nat := 256
def rLAUNCH : Nat := 512
def rREFRESH : Nat := 1024

/-! ### Semaphores (R225) and events (R306) -/

def semAt (s : State) (c : ClusterId) (n : Nat) : BitVec 32 := lkpD (clusterAt s c).sems n 0
/-- The semaphores a task may name (R225): its crew's, or any for the supervisor. -/
def semAllowed (t : Task) (n : Nat) : Bool :=
  isSup t || decide (t.crew.semlo ≤ n ∧ n < t.crew.semlo + t.crew.semn)

/-- Armed sends of a cluster whose threshold the semaphore meets fire, in their order of arming; from then their waits count (R289, R325). -/
def fireArmed (s : State) (c : ClusterId) (n : Nat) : State :=
  let hit := fun (e : Entry) => CoreId.cluster e.core == c && e.wsem == n && decide (e.wcnt ≤ (semAt s c n).toNat)
  let sl := clusterSlab c
  if (slabAt s sl).armed.any hit then
    modSlab s sl fun b => { b with
      fired := b.fired ++ (b.armed.filter hit).map fun e => { e with since := s.ck }, armed := b.armed.filter fun e => !hit e }
  else s
/-- An IDLE that waits on the cluster notes the change of a semaphore that its task may name (R319). -/
def wakeIdle (s : State) (c : ClusterId) (n : Nat) : State :=
  let idles := fun (t : Task) =>
    match t.as.held with
    | some ⟨.idle false, _⟩ => semAllowed t n
    | _ => false
  let hit := fun (x : CoreId × Core) => CoreId.cluster x.1 == c && (match x.2.task with | some t => idles t | none => false)
  let f := fun (t : Task) =>
    match t.as.held with
    | some ⟨_, ck⟩ => { t with as := { t.as with held := some ⟨.idle true, ck⟩ } }
    | none => t
  if s.cores.any hit then
    { s with cores := s.cores.map fun x => if hit x then (x.1, { x.2 with task := x.2.task.map f }) else x }
  else s
def setSem (s : State) (c : ClusterId) (n : Nat) (v : BitVec 32) : State :=
  let s1 := if v = semAt s c n then s else wakeIdle s c n
  fireArmed (modCluster s1 c fun k => { k with sems := ins k.sems n v }) c n
def addSem (s : State) (c : ClusterId) (n : Nat) (v : BitVec 32) : State := setSem s c n (semAt s c n + v)
def eventRec (kind src : Nat) (oid : BitVec 32) (w1 w2 w3 : W64) : BitVec 256 :=
  BitVec.ofNat 256 (oid.toNat + src % 16 * 2 ^ 52 + kind % 256 * 2 ^ 56 + w1.toNat * 2 ^ 64 + w2.toNat * 2 ^ 128 +
    w3.toNat * 2 ^ 192)
/-- Append an event record; LOST marks the record after a drop; a full queue drops it (R306). -/
def postEvent (r : BitVec 256) (t : Task) : Task :=
  if 64 ≤ t.evq.length then { t with evLost := true }
  else { t with evq := t.evq ++ [if t.evLost then setBits r 51 1 1 else r], evLost := false }

/-- The slabs, dies and clusters a partition holds (R27, R29). -/
def partSlabs (s : State) (pid : BitVec 32) : List SlabId := match partAt s pid with | some p => p.slabs | none => []
def partDies (s : State) (pid : BitVec 32) : List DieId := match partAt s pid with | some p => p.dies | none => []
def holdsSlab (s : State) (pid : BitVec 32) (sl : SlabId) : Bool := (partSlabs s pid).contains sl
/-- The slab of a partition on a die at which its per-die objects stand: the slab it holds, slab 0 when both (R70). -/
def slabOnDie (s : State) (pid : BitVec 32) (d : DieId) : SlabId :=
  if holdsSlab s pid ⟨d, 0⟩ then ⟨d, 0⟩ else ⟨d, 1⟩

/-- One fault-log entry of KIND REFUSED, UNCORRECTABLE, FENCED or UNFENCED, as die at' writes it (R334). -/
def logEntry (s : State) (at' : DieId) (tag oid : BitVec 32) (task : W64) (kind reason unit : Nat) (src : CoreId) (index : Nat) : BitVec 256 :=
  BitVec.ofNat 256 (index % 2 ^ 16 + src.core % 64 * 2 ^ 25 + src.die.toNat * 2 ^ 31 + unit % 16 * 2 ^ 48 +
    reason % 16 * 2 ^ 52 + kind % 256 * 2 ^ 56 + task.toNat * 2 ^ 64 + oid.toNat * 2 ^ 128 + tag.toNat * 2 ^ 160 +
    (s.ck - (pkgAt s (pkgOf at')).resetAt) % 2 ^ 64 * 2 ^ 192)

end Sys2Proof.Machine
end

