-- ==== Sys2Proof/Machine/Objects.lean ====
section
/-! DEFINITION. Objects: table entries, geometry, distribution, extent translation and the checks of R74
(R66 to R77, R101 to R103). -/

namespace Sys2Proof.Machine

/-! ### Object-table entries (R67, R70) -/

/-- SYS.OTBASE of a partition's copy on a die. -/
def otBase (s : State) (pid : BitVec 32) (d : DieId) : W64 := (slabAt s (slabOnDie s pid d)).otbase
def otEntryAddr (s : State) (pid : BitVec 32) (d : DieId) (oid : Nat) : Nat :=
  bitsN (otBase s pid d) 12 52 * 4096 + 64 * oid
/-- Word k of an entry; an oid beyond the table reads FREE (R70). -/
def otWord (s : State) (pid : BitVec 32) (d : DieId) (oid : Nat) (k : Nat) : W64 :=
  if 2 ^ bitsN (otBase s pid d) 0 5 ≤ oid then 0
  else BitVec.ofNat 64 (physRead s (otEntryAddr s pid d oid + 8 * k) 8)
/-- Word 0 as it reads: its zero field reads 0 (R6, R67). -/
def wRead (w0 : W64) : W64 := w0 &&& 0xFFFFFFFFFFFF0000
def wState (w0 : W64) : Nat := bitsN w0 62 2
def wFmt (w0 : W64) : BitVec 4 := w0.extractLsb' 58 4
def wCoding (w0 : W64) : Nat := bitsN w0 54 4
def wNdim (w0 : W64) : Nat := bitsN w0 52 2
def wVer (w0 : W64) : Bool := w0.getLsbD 51
def wCapstore (w0 : W64) : Bool := w0.getLsbD 50
def wDist (w0 : W64) : Bool := w0.getLsbD 49
def wLinear (w0 : W64) : Bool := w0.getLsbD 48
def wHome (w0 : W64) : Nat := bitsN w0 46 2
def wTier (w0 : W64) : Nat := bitsN w0 44 2
def wLgen (w0 : W64) : Nat := bitsN w0 16 16

/-! ### Geometry (R68, R101, R102) -/

/-- DIM k, a dimension beyond NDIM counting as 1. -/
def dimEff (w0 : W64) (dims : BitVec 128) (k : Nat) : Nat :=
  if k ≤ wNdim w0 then bitsN dims (32 * k) 32 else 1
def rowBytes (w0 : W64) (dims : BitVec 128) : Nat := 32 * cdiv (dimEff w0 dims 0 * fmtWidth (wFmt w0)) 256
/-- (T0, DIM1, DIM2, DIM3) of a tiled object. -/
def geom (w0 : W64) (dims : BitVec 128) : Nat × Nat × Nat × Nat :=
  (rowBytes w0 dims / 32, dimEff w0 dims 1, dimEff w0 dims 2, dimEff w0 dims 3)
def geomSize (g : Nat × Nat × Nat × Nat) : Nat := 256 * g.1 * cdiv g.2.1 8 * g.2.2.1 * g.2.2.2
/-- Line number of tile (a, b, c, d). -/
def lineNo (g : Nat × Nat × Nat × Nat) (a b c d : Nat) : Nat :=
  ((d * g.2.2.1 + c) * cdiv g.2.1 8 + b) * g.1 + a

/-- A partition's extent along a torus axis; axis 3 means not split (R102). -/
def axisExtent (p : Part) (ax : Nat) : Nat :=
  if p.shape = 0 then 1
  else match ax with
    | 0 => dx p.hi - dx p.lo + 1 | 1 => dy p.hi - dy p.lo + 1 | 2 => dz p.hi - dz p.lo + 1 | _ => 1
structure Layout where
  kind : Nat
  axt : Nat
  axh : Nat
  axw : Nat
  bt : Nat
  bh : Nat
  bw : Nat
  heads : Nat
  deriving DecidableEq, Repr
def layoutOf (w : W64) : Layout :=
  ⟨bitsN w 62 2, bitsN w 60 2, bitsN w 58 2, bitsN w 56 2, bitsN w 40 16, bitsN w 24 16, bitsN w 8 16, bitsN w 32 16⟩
/-- A descriptor that keeps R101. -/
def layoutOk (p : Part) (rb : Nat) (w : W64) : Bool :=
  let l := layoutOf w
  bitsN w 0 8 = 0 &&
  (if l.kind = 1 then
    l.bt != 0 && l.bh != 0 && l.bw != 0 &&
    [0, 1, 2].all fun ax => axisExtent p ax ≤ 1 || decide (([l.axt, l.axh, l.axw].filter (· == ax)).length = 1)
  else if l.kind = 2 then
    l.heads != 0 && decide (rb % (32 * l.heads) = 0)
  else false)
/-- Facet geometry of a layout (R102). -/
def facetGeom (p : Part) (w : W64) (g : Nat × Nat × Nat × Nat) : Nat × Nat × Nat × Nat :=
  let l := layoutOf w
  if l.kind = 1 then
    let f := fun (ax b dsz : Nat) => if ax = 3 then dsz else cdiv dsz (b * axisExtent p ax) * b
    (g.1, f l.axw l.bw g.2.1, f l.axh l.bh g.2.2.1, f l.axt l.bt g.2.2.2)
  else
    let gh := cdiv l.heads p.dies.length
    let c := g.1 / l.heads
    (c * gh, g.2.1, g.2.2.1, g.2.2.2)
/-- Owner die and local coordinates of a tile (R102, R103). -/
def tileOwner (p : Part) (w : W64) (g : Nat × Nat × Nat × Nat) (q ww h t : Nat) : DieId × (Nat × Nat × Nat × Nat) :=
  let l := layoutOf w
  if l.kind = 1 then
    let own := fun (ax b e : Nat) => if ax = 3 then 0 else e / b % axisExtent p ax
    let loc := fun (ax b e : Nat) => if ax = 3 then e else e / (b * axisExtent p ax) * b + e % b
    let coord := fun (ax : Nat) =>
      (if l.axw = ax then own l.axw l.bw ww else if l.axh = ax then own l.axh l.bh h
       else if l.axt = ax then own l.axt l.bt t else 0)
    (mkDie (dx p.lo + coord 0) (dy p.lo + coord 1) (dz p.lo + coord 2),
      (q, loc l.axw l.bw ww, loc l.axh l.bh h, loc l.axt l.bt t))
  else
    let gh := cdiv l.heads p.dies.length
    let c := g.1 / l.heads
    let e := q / (c * gh)
    (p.dies.getD e 0, (q - e * (c * gh), ww, h, t))

/-- The scale planes of a tiled E2M1 object have the geometry of R68. -/
def planesOk (s : State) (pid : BitVec 32) (d : DieId) (w0 : W64) (dims : BitVec 128) (cntA cntB : W64) : Bool :=
  let plane := fun (oid : Nat) (fmt : BitVec 4) (want : List Nat) =>
    let p0 := otWord s pid d oid 0
    let pd := (otWord s pid d oid 2).extractLsb' 0 64 ++ (otWord s pid d oid 1)
    oid != 0 && wFmt p0 == fmt && wCoding p0 == 0 && !wDist p0 && !wLinear p0 &&
    (List.range 4).map (dimEff p0 pd) == want
  plane (bitsN cntA 0 32) 0xC [cdiv (dimEff w0 dims 0) 8, dimEff w0 dims 1, dimEff w0 dims 2, dimEff w0 dims 3] &&
  plane (bitsN cntB 0 32) 3 [cdiv (dimEff w0 dims 1) 64, dimEff w0 dims 2, dimEff w0 dims 3, 1]

/-- The well-formed bit of R75: none of the FORMAT conditions of R36, R57, R68 and R101 holds. -/
def entryOk (s : State) (pid : BitVec 32) (d : DieId) (w0 : W64) (dims : BitVec 128) (layout cntA cntB : W64) : Bool :=
  let raw := fun k => bitsN dims (32 * k) 32
  wFmt w0 != 7 && decide (wCoding w0 ≤ 0xA) && (wCoding w0 == 0 || wFmt w0 == 0) &&
  (if wLinear w0 then wNdim w0 == 0 && raw 2 == 0 && raw 3 == 0
   else (List.range 4).all fun k => decide (wNdim w0 < k) || raw k != 0) &&
  (!wDist w0 || (wNdim w0 == 3 && !wLinear w0 &&
    (match partAt s pid with | some p => layoutOk p (rowBytes w0 dims) layout | none => false))) &&
  (wFmt w0 != 6 ||
    (if wLinear w0 then bitsN cntA 0 32 == 0 && bitsN cntB 0 32 == 0 else planesOk s pid d w0 dims cntA cntB))

/-- The zero fields of a HEAD descriptor read 0 (R6, R101). -/
def layoutRead (w : W64) : W64 := if bitsN w 62 2 = 2 then w &&& 0xC000FFFF000000FF else w

/-! ### Translation (R69, R75, R76) -/

def extV (e : W64) : Bool := e.getLsbD 11
def extTier (e : W64) : Nat := bitsN e 9 2
def extPA (e : W64) : Nat := bitsN e 12 52 * 4096
def paDie (a : Nat) : DieId := BitVec.ofNat 17 (a / 2 ^ 47)
def paSlab (a : Nat) : SlabId := ⟨paDie a, a / 2 ^ 46 % 2⟩

/-- Word 0 of the implicit object oid 0: LIVE, LINEAR, unversioned, uncoded bytes (log 6). -/
def physWord0 : W64 := 0x7001000000000000 -- STATE 1, FMT .z8, LINEAR
/-- A die has an expander, behind the CXL port of logical dies 1 and 3, and its link runs CXL IDE (R1, R359). -/
def hasExpander (s : State) (d : DieId) : Bool :=
  (ldie d == 1 && !(pkgAt s (pkgOf d)).cxlOff.getLsbD 0) || (ldie d == 3 && !(pkgAt s (pkgOf d)).cxlOff.getLsbD 1)
/-- A memory holds the physical address: HBM of the slab, or the expander of its die (R1, R66, R95, R359; log 71). -/
def physExists (s : State) (a : Nat) : Bool :=
  decide (a % 2 ^ 46 < Config.hbmBytes) ||
  (decide (Config.cxlBase ≤ a % 2 ^ 46 ∧ a % 2 ^ 46 < Config.cxlBase + 2 ^ 44) && hasExpander s (paDie a))
/-- The translation of oid 0: the identity over the physical window. -/
def physEntry (ext : Nat) : TEntry :=
  { ext := BitVec.ofNat 64 (ext * 2 ^ 21 + 2 ^ 11 + (if Config.cxlBase ≤ ext * 2 ^ 21 % 2 ^ 46 then 2 ^ 9 else 0)),
    word0 := physWord0, dims := 0, layout := 0, vshadow := 0, wf := true }

/-- The partition holds the slab of a physical address: the tables and shadows that its object table names elsewhere are not
there (R29; log 91). -/
def ownsPhys (s : State) (pid : BitVec 32) (a : Nat) : Bool := holdsSlab s pid (paSlab a)
/-- What a walker of die `d` reads for a key: its own copy of the entry, and for a DIST object the facet die's EXTTAB and
VSHADOW (R67, R75). The extents of a host object are V = 1, TIER 2; their table stands outside memory (R96; log 17). -/
def walk (s : State) (pid : BitVec 32) (d : DieId) (k : TKey) : TEntry :=
  if k.oid = 0 then physEntry k.ext
  else
    let d' := if wDist (otWord s pid d k.oid.toNat 0) then k.facet else d
    let w := fun (n : Nat) => otWord s pid (if n = 3 ∨ n = 4 then d' else d) k.oid.toNat n
    let dims : BitVec 128 := w 2 ++ w 1
    let a := bitsN (w 3) 12 52 * 4096 + 8 * k.ext
    { ext := if wTier (w 0) = 2 then 0xC00 else if k.ext < 2 ^ 44 && ownsPhys s pid a then BitVec.ofNat 64 (physRead s a 8) else 0,
      word0 := w 0, dims := dims, layout := w 5, vshadow := BitVec.ofNat 64 (bitsN (w 4) 12 52 * 4096),
      wf := entryOk s pid d (w 0) dims (w 5) (w 6) (w 7) }

/-- A cache of n entries; the oldest leaves when it is full. -/
def cachePut (n : Nat) (m : AMap TKey TEntry) (k : TKey) (e : TEntry) : AMap TKey TEntry :=
  if n ≤ m.length then ins (m.drop 1) k e else ins m k e

/-- Who accesses: partition, die, cluster and slab, core when it is a strand, task, privilege, and the serial number of the
engine entry when it is one. -/
structure Who where
  pid : BitVec 32
  die : DieId
  slab : SlabId
  clus : Nat
  core : Option CoreId
  task : W64
  sup : Bool
  entry : Option (QueueId × Nat) := none
  deriving DecidableEq, Repr

def whoOf (h : Here) : Who :=
  { pid := h.t.pid, die := h.core.die, slab := coreSlab h.core, clus := h.core.core / 4, core := some h.core,
    task := h.t.taskId, sup := isSup h.t }

/-- Translation through the first-level cache, the shared cache and a walk that fills both (R75). -/
def xlate (s : State) (w : Who) (k : TKey) : State × TEntry :=
  let l1 := match w.core with | some c => lkp (coreAt s c).ecache k | none => none
  match l1 with
  | some e => (s, e)
  | none =>
    let e := (lkp (slabAt s w.slab).shcache k).getD (walk s w.pid w.die k)
    let s1 := modSlab s w.slab fun b => { b with shcache := cachePut 4096 b.shcache k e }
    let s2 := match w.core with
      | some c => modCore s1 c fun kk => { kk with ecache := cachePut 128 kk.ecache k e }
      | none => s1
    (s2, e)

/-- Remove translations from every cache of the partition (R77, R317). -/
def dropTrans (s : State) (pid : BitVec 32) (p : TKey → Bool) : State :=
  let mine := fun (sl : SlabId) => holdsSlab s pid sl
  { s with
    cores := s.cores.map fun ck =>
      if mine (coreSlab ck.1) then (ck.1, { ck.2 with ecache := ck.2.ecache.filter fun e => !p e.1 }) else ck
    slabs := s.slabs.map fun sb =>
      if mine sb.1 then
        (sb.1, { sb.2 with shcache := sb.2.shcache.filter (fun e => !p e.1), posted := sb.2.posted.filter fun e => !p e })
      else sb }

/-! ### Accesses (R74) -/

/-- A refused check: class and detail words (R328). -/
structure FInfo where
  cls : Nat
  d0 : W64 := 0
  d1 : W64 := 0
  d2 : W64 := 0
  oid : BitVec 32 := 0
  /-- Where an engine entry stopped (R306), if not D0 or D1. -/
  pos : Option W64 := none
  deriving DecidableEq, Repr

inductive Chk
  | ok (r : Res)
  | fault (f : FInfo)
  | moving
  | unmapped (r : Res)
  deriving DecidableEq, Repr

def dieOfFacet (w : Who) (word0 : W64) : DieId := if wDist word0 then w.die else 0

/-- The object size of check 4 of R74: bytes of the whole object, for a DIST object those of its global geometry (R68). -/
def objBytes (_s : State) (_w : Who) (oid : BitVec 32) (word0 : W64) (dims : BitVec 128) (_layout : W64) : Nat :=
  if oid = 0 then 2 ^ 64
  else if wLinear word0 then dims.toNat % 2 ^ 64
  else geomSize (geom word0 dims)
/-- The bytes of the issuing die's facet, which also bound the ranges of CPYL (R103, R281); the object's where it has none. -/
def facetBytes (s : State) (w : Who) (oid : BitVec 32) (e : TEntry) : Nat :=
  let whole := objBytes s w oid e.word0 e.dims e.layout
  if oid ≠ 0 ∧ wDist e.word0 ∧ e.wf then
    match partAt s w.pid with
    | some p => min whole (geomSize (facetGeom p e.layout (geom e.word0 e.dims)))
    | none => whole
  else whole

/-- Where byte `a` of a facet lands under its translation. -/
def resOf (w : Who) (oid : BitVec 32) (facet : DieId) (a : Nat) (e : TEntry) : Res :=
  let line := a / 256
  let rate := codingRate (wCoding e.word0)
  let inExt := line % 8192
  { loc := ⟨oid, facet, a⟩, word0 := e.word0, key := ⟨w.pid, oid, facet, line⟩, home := paSlab (extPA e.ext),
    pa := extPA e.ext + (if rate = 0 then 256 * inExt else 4 * rate * inExt), rate := rate,
    vsh := if wVer e.word0 then some (e.vshadow.toNat + 8 * line) else none, tkey := ⟨oid, facet, a / 2 ^ 21⟩,
    host := wTier e.word0 == 2 || extTier e.ext == 2 }

/-- What an access asks of R74: rights, width, alignment, versions, format of an LDT or STT, host objects admitted, the
facet's bound of R281, and whether it goes on from check 7 after a wait for a MOVING object. -/
structure Ask where
  rights : Nat
  n : Nat
  align : Nat
  ver : Bool := false
  fmt : Option (BitVec 4) := none
  host : Bool := false
  facet : Bool := false
  again : Bool := false
  deriving DecidableEq, Repr

/-- Global tile coordinates (q, w, h, t) packed as R207 gives them. -/
def coordsOf (x : W64) : Nat × Nat × Nat × Nat := (bitsN x 0 16, bitsN x 16 16, bitsN x 32 16, bitsN x 48 16)

/-- Checks 1 to 3 of R74. -/
def checkCap (w : Who) (reg : Nat) (c : CapReg) (rights : Nat) : Option FInfo :=
  let f := fun (cls d0 d1 : Nat) => some { cls := cls, d0 := BitVec.ofNat 64 d0, d1 := BitVec.ofNat 64 d1, oid := capOid c : FInfo }
  if !c.tag then f 5 reg 0
  else if capSealed c || (capOid c == 0 && !w.sup) then f 4 rights reg
  else if !hasRights c rights then f 4 rights reg
  else none

/-- The access of the strand's instruction has waited for a MOVING object: it goes on from check 7 (R74). -/
def heldMoving (h : Here) : Bool := (strandOf h.t h.x).past.isSome
/-- The n-th access of a form that makes several, or a later one, has waited for a MOVING object: the n-th goes on from check 7 (R74). -/
def heldMovingAt (h : Here) (n : Nat) : Bool := match (strandOf h.t h.x).past with | some m => decide (n ≤ m) | none => false
/-- The extent is marked moving (R99 step 1). -/
def extMoving (s : State) (pid : BitVec 32) (k : TKey) : Bool :=
  match partAt s pid with | some p => (lkp p.moving k).isSome | none => false
/-- The last physical byte of a line (R69, R90). -/
def lineEnd (r : Res) : Nat := r.pa + (if r.rate = 0 then 255 else 4 * r.rate - 1)
/-- Check 11 of R74 fails on the extent entry: TIER 3, or a mapped HBM or CXL extent outside the slabs of the partition; a line that
runs past the memory of the slab that EPA names lies outside it too (log 71). -/
def badExt (s : State) (pid : BitVec 32) (e : TEntry) (r : Res) : Bool :=
  extTier e.ext == 3 || (extV e.ext && decide (extTier e.ext ≤ 1) &&
    (!holdsSlab s pid r.home || paSlab r.pa != r.home || paSlab (lineEnd r) != r.home || !physExists s r.pa || !physExists s (lineEnd r)))
/-- Checks 6 to 11 of R74 after the translation of byte `a` in `facet`; `localOk` is check 10. -/
def checkObj (s : State) (w : Who) (c : CapReg) (ask : Ask) (facet : DieId) (a : Nat) (objByte : Nat) (localOk : Bool)
    (e : TEntry) : Chk :=
  let w0 := e.word0
  let f := fun (cls : Nat) (d0 d1 d2 : Nat) =>
    Chk.fault { cls := cls, d0 := BitVec.ofNat 64 d0, d1 := BitVec.ofNat 64 d1, d2 := BitVec.ofNat 64 d2, oid := capOid c,
                pos := some (BitVec.ofNat 64 objByte) }
  let ext := a / 2 ^ 21
  if wState w0 = 2 then .moving
  else if wState w0 ≠ 1 || wHome w0 == 3 || wTier w0 == 3 || (wTier w0 == 2 && !ask.host) then f 8 objByte ext facet.toNat
  else if !e.wf || (ask.fmt.isSome && ask.fmt != some (wFmt w0)) then f 6 (wRead w0).toNat 0 0
  else if wDist w0 && capLgen c != wLgen w0 then f 7 (capLgen c) (wLgen w0) 0
  else if ask.ver && !wVer w0 then f 17 objByte 0 0
  else if !localOk then f 9 objByte 0 0
  else
    let r := resOf w (capOid c) facet a e
    if badExt s w.pid e r || (extTier e.ext == 2 && !ask.host) then f 8 objByte ext facet.toNat
    else if extMoving s w.pid r.tkey then .unmapped { r with moving := true }
    else if extV e.ext then .ok r else .unmapped r

/-- R74 for a byte-addressed access at the exact object byte `a`. Check 4 reads an object size where the entry is well formed:
a malformed entry gives none, and its access takes the fault of check 6 or 7 (R68; log 72). -/
def checkAcc (s : State) (w : Who) (reg : Nat) (c : CapReg) (ask : Ask) (a : Int) : State × Chk :=
  match (if ask.again then none else checkCap w reg c ask.rights) with
  | some fi => (s, .fault fi)
  | none =>
    let oid := capOid c
    -- word 0 says whether the object is distributed; its key carries the facet die
    let (s1, e0) := xlate s w ⟨oid, 0, a.toNat / 2 ^ 21⟩
    let facet := dieOfFacet w e0.word0
    let (s2, e) := if facet = 0 then (s1, e0) else xlate s1 w ⟨oid, facet, a.toNat / 2 ^ 21⟩
    let size := objBytes s w oid e.word0 e.dims e.layout
    let d0 : W64 := BitVec.ofInt 64 a
    if !ask.again && !(decide ((capBase c : Int) ≤ a) && decide (a + ask.n ≤ capBase c + capLen c) &&
         (decide (capBase c + capLen c ≤ size) || !e.wf) &&
         (!ask.facet || decide (a + ask.n ≤ facetBytes s2 w oid e) || !e.wf)) then
      (s2, .fault { cls := 3, d0 := d0, d1 := BitVec.ofNat 64 reg, oid := oid })
    else if !ask.again && a.toNat % ask.align != 0 then (s2, .fault { cls := 9, d0 := d0, oid := oid })
    else (s2, checkObj s2 w c ask facet a.toNat a.toNat true e)

/-- R74 and R207 for a tile-line access: for a DIST object `co` are global coordinates (q, w, h, t) and `disp` must be 0. -/
def checkTile (s : State) (w : Who) (reg : Nat) (c : CapReg) (ask : Ask) (a : Int) (co : Nat × Nat × Nat × Nat) (disp : Int) :
    State × Chk :=
  match (if ask.again then none else checkCap w reg c ask.rights) with
  | some fi => (s, .fault fi)
  | none =>
    let oid := capOid c
    let (s1, e0) := xlate s w ⟨oid, 0, a.toNat / 2 ^ 21⟩
    if !wDist e0.word0 then checkAcc s1 w reg c { ask with n := 256, align := 256 } a
    else match partAt s w.pid with
      | none => (s1, .moving)
      | some p =>
        let g := geom e0.word0 e0.dims
        let (q, ww, hh, t) := co
        let b : Int := capBase c + capOff c + 256 * (lineNo g q (ww / 8) hh t : Nat)
        let inside := decide (q < g.1 ∧ ww < g.2.1 ∧ hh < g.2.2.1 ∧ t < g.2.2.2)
        if !ask.again && !(decide ((capBase c : Int) ≤ b) && decide (b + 256 ≤ capBase c + capLen c) &&
             (decide (capBase c + capLen c ≤ geomSize g) || !e0.wf) && (inside || !e0.wf)) then
          (s1, .fault { cls := 3, d0 := BitVec.ofInt 64 b, d1 := BitVec.ofNat 64 reg, oid := oid })
        else if !ask.again && (b % 256 != 0 || disp != 0) then (s1, .fault { cls := 9, d0 := BitVec.ofInt 64 b, oid := oid })
        else
          let (own, l) := tileOwner p e0.layout g q ww hh t
          let fg := facetGeom p e0.layout g
          let ln := lineNo fg l.1 (l.2.1 / 8) l.2.2.1 l.2.2.2
          let (s2, e) := xlate s1 w ⟨oid, own, ln / 8192⟩
          (s2, checkObj s2 w c ask own (256 * ln) b.toNat (decide (l.2.1 % 8 = 0)) e)

/-- Translate again: the replay of a side-log entry (R93). A mapping that check 11 of R74 would refuse is none (log 92). -/
def locate (s : State) (w : Who) (l : Where) : State × Option Res :=
  let (s1, e) := xlate s w ⟨l.oid, l.facet, l.byte / 2 ^ 21⟩
  let r := resOf w l.oid l.facet l.byte e
  (s1, if extV e.ext && wState e.word0 == 1 && !extMoving s w.pid r.tkey && !badExt s w.pid e r then some r else none)

/-- The walker posts one EXTENT record for a missing extent (R92); none for one that is being migrated (R99). -/
def postExtent (s : State) (w : Who) (r : Res) : State :=
  if r.moving || (slabAt s w.slab).posted.contains r.tkey then s
  else
    postRec (modSlab s w.slab fun b => { b with posted := b.posted ++ [r.tkey] }) w.slab
      { cls := 8, src := 10, susp := false, oid := r.loc.oid, d0 := BitVec.ofNat 64 r.loc.byte,
        d1 := BitVec.ofNat 64 r.tkey.ext, d2 := r.loc.facet.zeroExtend 64 }

/-! ### Rings of the fault queue and the fault log (R310, R334) -/

/-- The entry of extent k of a ring object: mapped in the HBM or expander of its slab (R69, R310). -/
def ringExt (s : State) (pid : BitVec 32) (sl : SlabId) (oid : BitVec 32) (k : Nat) : TEntry := walk s pid sl.die ⟨oid, 0, k⟩
/-- The physical address of byte 0 of a usable ring object that holds `n` records, all of it on the slab; none otherwise (R310). -/
def ringBase (s : State) (pid : BitVec 32) (sl : SlabId) (reg : W64) (recSize : Nat) : Option (Nat × Nat) :=
  let oid : BitVec 32 := reg.extractLsb' 32 32
  let n := 2 ^ (min 10 (bitsN reg 28 4) + 6)
  let e := ringExt s pid sl oid 0
  let homed := (List.range (cdiv (recSize * n) (2 ^ 21))).all fun k =>
    let x := (ringExt s pid sl oid k).ext
    extV x && decide (extTier x ≤ 1) && paSlab (extPA x) == sl
  if oid ≠ 0 ∧ wState e.word0 = 1 ∧ wLinear e.word0 ∧ wCoding e.word0 = 0 ∧ ¬ wVer e.word0 ∧ wTier e.word0 ≠ 2 ∧ homed ∧
      recSize * n ≤ e.dims.toNat % 2 ^ 64 then some (extPA e.ext, n) else none
/-- The physical address of a byte of a ring object: a ring of 2^16 fault records spans two extents. -/
def ringAddr (s : State) (pid : BitVec 32) (sl : SlabId) (reg : W64) (byte : Nat) : Nat :=
  extPA (ringExt s pid sl (reg.extractLsb' 32 32) (byte / 2 ^ 21)).ext + byte % 2 ^ 21

/-- A hardware write to a line of a non-distributed object: memory, the resident line, and their tags (R72). -/
def hwWrite (s : State) (pid oid : BitVec 32) (line off : Nat) (pa : Nat) (b : List Byte) : State :=
  let s1 := physWrite s pa b
  let g := pa / 32
  let e := (pa + b.length + 31) / 32
  { s1 with
    memTags := s1.memTags.filter fun x => decide (x < g ∨ e ≤ x)
    l2 := s1.l2.map fun kl =>
      if kl.1 == ⟨pid, oid, 0, line⟩ then
        (kl.1, { kl.2 with data := lineSet kl.2.data off b.length (ofBytes b), tags := kl.2.tags &&& ~~~ granulesTouched off b.length })
      else kl }

/-- Entry number `k` of the fault log stands at its place of a usable ring (R334). -/
def logCell (s : State) (pid : BitVec 32) (sl : SlabId) (n k : Nat) (e : BitVec 256) : State :=
  let b := slabAt s sl
  let i := k % n
  let s1 := hwWrite s pid (b.flog.extractLsb' 32 32) (32 * i / 256) (32 * i % 256) (ringAddr s pid sl b.flog (32 * i))
    (bytesOf 32 e.toNat)
  modSlab s1 sl fun b => { b with
    flHeld := min n (b.flHeld + 1)
    flLost := if n ≤ b.flHeld ∧ b.flLost ≠ 0xFFFFFFFF then b.flLost + 1 else b.flLost }
/-- TAIL counts an entry, and its semaphore is signalled (R310, R311). -/
def logPosted (s : State) (sl : SlabId) : State :=
  let b := slabAt s sl
  let s1 := modSlab s sl fun b => { b with flTail := b.flTail + 1 }
  if b.flog.getLsbD 8 then addSem s1 ⟨sl.die, sl.slab * 5 + 4⟩ (bitsN b.flog 0 8) 1 else s1
/-- Buffered entries enter the ring under their numbers, oldest first, once one is usable (R310; log 61). -/
def flushLog (s : State) (pid : BitVec 32) (sl : SlabId) : State :=
  match ringBase s pid sl (slabAt s sl).flog 32 with
  | none => s
  | some (_, n) =>
    let b := slabAt s sl
    let first := b.flTail - BitVec.ofNat 32 b.logbuf.length
    b.logbuf.zipIdx.foldl (fun acc x => logCell acc pid sl n (first + BitVec.ofNat 32 x.2).toNat x.1)
      (modSlab s sl fun b => { b with logbuf := [] })
/-- Write a fault-log entry on the slab's ring, or in the slab's buffer of 64, which acts as the ring while none is usable
(R310, R334). -/
def writeLog (s : State) (pid : BitVec 32) (d : DieId) (e : BitVec 256) : State :=
  let sl := slabOnDie s pid d
  if !holdsSlab s pid sl then modPkg s (pkgOf d) fun p => { p with log := p.log ++ [e] }
  else
    match ringBase s pid sl (slabAt s sl).flog 32 with
    | some (_, n) =>
      let s1 := flushLog s pid sl
      logPosted (logCell s1 pid sl n (slabAt s1 sl).flTail.toNat e) sl
    | none =>
      logPosted (modSlab s sl fun b =>
        if 64 ≤ b.logbuf.length then
          { b with logbuf := b.logbuf.drop 1 ++ [e], flLost := if b.flLost = 0xFFFFFFFF then b.flLost else b.flLost + 1 }
        else { b with logbuf := b.logbuf ++ [e] }) sl

end Sys2Proof.Machine
end

