-- ==== Sys2Proof/Machine/Home.lean ====
section
/-! DEFINITION. Lines at their homes, ownership records and CONFLICT, the cluster's L1, publication, fills and write-backs
(R78 to R91, R112 to R118, R63 to R65). -/

namespace Sys2Proof.Machine

/-! ### Fill and write-back (R89, R90, R91) -/

/-- The tags of the eight granules at a physical line address, of the resident line of oid 0 before those of memory (R72). -/
def tagsAt (s : State) (pa : Nat) : BitVec 8 :=
  match s.l2.find? (isPhysLine (pa / 256)) with
  | some (_, l) => l.tags
  | none => BitVec.ofNat 8 ((List.range 8).foldl (fun acc i => if s.memTags.contains (pa / 32 + i) then acc + 2 ^ i else acc) 0)
def insNat (l : List Nat) (n : Nat) : List Nat :=
  match l with
  | [] => [n]
  | x :: r => if x = n then x :: r else if n < x then n :: x :: r else x :: insNat r n
def setTags (l : List Nat) (pa : Nat) (tags : BitVec 8) : List Nat :=
  (List.range 8).foldl (fun acc i => if tags.getLsbD i then insNat acc (pa / 32 + i) else acc.filter (· != pa / 32 + i)) l

/-- The tags of a physical line address become the given ones, in memory and in the resident line of oid 0. -/
def putTags (s : State) (pa : Nat) (tags : BitVec 8) : State :=
  { s with memTags := setTags s.memTags pa tags
           l2 := s.l2.map fun kl => if isPhysLine (pa / 256) kl then (kl.1, { kl.2 with tags := tags }) else kl }

/-- The first physical line and the number of lines of extent k of a slab's checkpoint area, where it is mapped (R69, R312). -/
def areaExt (s : State) (b : SlabId × Slab) (k : Nat) : Option (Nat × Nat) :=
  let e := walk s b.2.pid b.1.die ⟨b.2.save.extractLsb' 32 32, 0, k⟩
  let r := codingRate (wCoding e.word0)
  if b.2.save.extractLsb' 32 32 != 0 && extV e.ext then some (extPA e.ext / 256, if r = 0 then 8192 else 128 * r) else none
def inLines (e : Nat × Nat) (line : Nat) : Bool := decide (e.1 ≤ line ∧ line < e.1 + e.2)
/-- The slot of a slab's checkpoint area that holds a physical line: eight extents of the area's object make a slot (R69, R312). -/
def saveSlotAt (s : State) (b : SlabId × Slab) (line : Nat) : Option Nat :=
  ((List.range (8 * bitsN b.2.save 16 16)).find? fun k => match areaExt s b k with | some e => inLines e line | none => false).map (· / 8)
/-- The slot of a checkpoint area in which a line of an object, or of the physical window, lies: the slab of the area, and the slot
(R312). -/
def saveSlot (s : State) (key : LineKey) : Option (SlabId × Nat) :=
  if key.oid = 0 then s.slabs.findSome? fun b => (saveSlotAt s b key.line).map fun n => (b.1, n)
  else (s.slabs.find? fun b => b.2.pid == key.pid && b.2.save.extractLsb' 32 32 == key.oid &&
    decide (key.line / 2 ^ 16 < bitsN b.2.save 16 16)).map fun b => (b.1, key.line / 2 ^ 16)
/-- A line of free bits: the bytes of a checkpoint area read undefined (R7, R312). -/
def freeLine (s : State) (key : LineKey) : Line :=
  ofLanes 2048 64 ((List.range 32).map fun i => (Config.freeBits s.free (32 * key.line + i)).toNat)
/-- A write to the bytes of an image harms it: its crew restores with undefined state (R312). -/
def harm (s : State) (key : LineKey) : State :=
  match saveSlot s key with
  | none => s
  | some (sl, n) => modSlab s sl fun b => { b with images := b.images.map fun im => if im.slot = n then { im with harmed := true } else im }

/-- The line as a fill delivers it: decoded, with its version and tags (R62, R89, R90). -/
def fillOf (s : State) (r : Res) : HLine :=
  { home := r.home, pa := r.pa, rate := r.rate, vsh := r.vsh,
    data := if (saveSlot s r.key).isSome then freeLine s r.key
      else if r.rate = 0 then BitVec.ofNat 2048 (physRead s r.pa 256) else decodeLine r.rate (physRead s r.pa (4 * r.rate)),
    ver := (match r.vsh with | none => 0 | some a => if ownsPhys s r.key.pid a then BitVec.ofNat 48 (physRead s a 8) else 0),
    tags := if r.rate = 0 ∧ (saveSlot s r.key).isNone then tagsAt s r.pa else 0 }
def putLine (s : State) (k : LineKey) (l : HLine) : State := { s with l2 := ins s.l2 k l }

/-- One more version, for a line of a VER object (R86). -/
def bumpVer (l : HLine) : HLine := if l.vsh.isNone then l else { l with ver := l.ver + 1, verNew := true }

/-- MAXLOSS of the two stored words: −128 while no encode has lost a bit, whatever byte Create left (R63, R70; log 68). -/
def maxLoss (a b : Nat) : Int := if b % 2 ^ 48 = 0 then -128 else readInt true 8 (a / 2 ^ 56)
/-- OTQ word 0 as the counters read (R63). -/
def cntWord0 (a b : W64) : W64 := BitVec.ofNat 64 (bitsN a 0 48 + wrapN 8 (maxLoss a.toNat b.toNat) * 2 ^ 56)

/-- The codec counters of an object after one encode (R63, R64), in the copy at die-list entry 0. -/
def countEncode (s : State) (pid oid : BitVec 32) (loss : Option Int) : State :=
  let d := (partDies s pid).headD 0
  let addr := otEntryAddr s pid d oid.toNat
  let a := physRead s (addr + 48) 8
  let b := physRead s (addr + 56) 8
  let enc := min (2 ^ 48 - 1) (a % 2 ^ 48 + 1)
  let old : Int := maxLoss a b
  let ml : Int := match loss with | none => old | some x => max old x
  let lossy := match loss with | none => b % 2 ^ 48 | some _ => min (2 ^ 48 - 1) (b % 2 ^ 48 + 1)
  physWrite (physWrite s (addr + 48) (bytesOf 8 (enc + wrapN 8 ml * 2 ^ 56))) (addr + 56) (bytesOf 8 lossy)

/-- Write a line's published contents to memory. The words written since the fill go there; blocks of a coded line with a written
word are encoded and counted, and a lossy encode raises the version, the line going on with the values that a fill returns
(R59, R64, R90, R91). -/
def writeBack (s : State) (k : LineKey) (l : HLine) : State × HLine :=
  if l.written = 0 then (s, l)
  else if l.rate = 0 then
    let g := someGranules l.written
    let tags := (tagsAt s l.pa &&& ~~~ g) ||| (l.tags &&& g)
    let d := mergeWords (BitVec.ofNat 2048 (physRead s l.pa 256)) l.data l.written
    (putTags (physWrite s l.pa (bytesOf 256 d.toNat)) l.pa tags, { l with written := 0 })
  else
    let blk := fun (acc : State × HLine) (i : Nat) =>
      if bitsN l.written (32 * i) 32 = 0 then acc
      else
        let (code, loss) := encodeBlock l.rate (toLanes 64 (l.data.extractLsb' (1024 * i) 1024))
        let s1 := physWrite acc.1 (l.pa + 2 * l.rate * i) (bytesOf (2 * l.rate) code)
        (countEncode s1 k.pid k.oid loss,
          if loss.isSome then
            bumpVer { acc.2 with data := setBits acc.2.data (1024 * i) 1024 (ofLanes 1024 64 (decodeBlock l.rate code)).toNat }
          else acc.2)
    let (s2, l2) := [0, 1].foldl blk (s, l)
    (s2, { l2 with written := 0 })

/-- Evict a line: write back, write a changed version to the shadow, leave the L2 (R89, R90). -/
def evictLine (s : State) (k : LineKey) (l : HLine) : State :=
  let (s1, l1) := writeBack s k l
  let s2 := match l1.vsh with
    | none => s1
    | some a => if l1.verNew && ownsPhys s1 k.pid a then physWrite s1 a (bytesOf 8 l1.ver.toNat) else s1
  { s2 with l2 := del s2.l2 k }

/-- The resident line stands where the translation of an access says (R82). -/
def samePlace (r : Res) (l : HLine) : Bool := l.home == r.home && l.pa == r.pa && l.rate == r.rate && l.vsh == r.vsh
/-- A line as its new place delivers it, with the registrations that it has. -/
def refill (s : State) (r : Res) (l : HLine) : HLine := { fillOf s r with recs := l.recs, marks := l.marks, pend := l.pend }
/-- The line at its home: resident, or as a fill delivers it. A line resident at another place, which the extent was mapped to
before, goes back there; its registrations are those of the new home (log 93). -/
def homeLine (s : State) (r : Res) : HLine :=
  match lkp s.l2 r.key with
  | none => fillOf s r
  | some l =>
    if samePlace r l then l else refill (evictLine s r.key l) r l

/-! ### Places and residency (R1, R21, R82, R90) -/

/-- The L2 slice of a physical address within its slab (R82). -/
def l2Slice (pa : Nat) : Nat :=
  let y := pa / 256 % 2 ^ 38
  (y % 2 ^ 20 ^^^ y / 2 ^ 20 % 2 ^ 18) % 80
/-- The logical channel of an HBM address within its slab; 16 is the expander port (R359). -/
def channelOf (pa : Nat) : Nat :=
  if Config.cxlBase ≤ pa % 2 ^ 46 then 16 else (pa / 2 ^ 12 % 16) ^^^ (pa / 2 ^ 16 % 16)
/-- PORTMAP's six port numbers and CHX at a physical position (R17). -/
def portsOf (p : Nat) : List Nat :=
  (match p % 4 with | 0 => [0, 3, 1, 4] | 1 => [4, 1, 0, 3] | 2 => [3, 0, 4, 1] | _ => [1, 4, 3, 0]) ++ (if p < 4 then [2, 5] else [5, 2])
def chxOf (p : Nat) : Nat := match p % 4 with | 0 => 0 | 1 => 3 | 2 => 0xC | _ => 0xF
/-- Physical index of a slab's logical channel (R18); 32 is the expander port (R359). -/
def physChannel (sl : SlabId) (c : Nat) : Nat := if c = 16 then 32 else 16 * sl.slab + (c ^^^ chxOf (Config.posOf (ldie sl.die)))
/-- No registration, mark or unpublished word holds the line. -/
def lineClosed (l : HLine) : Bool := l.recs.isEmpty && l.marks.isEmpty && l.pend.isEmpty
/-- The resident lines of the slice and set that a line at `pa` of a home belongs to; the set is a function of the physical
line (log 70). -/
def l2Mates (s : State) (sl : SlabId) (pa : Nat) : List (LineKey × HLine) :=
  s.l2.filter fun kl => decide (kl.2.home = sl ∧ l2Slice kl.2.pa = l2Slice pa ∧ Config.l2Set kl.2.pa = Config.l2Set pa)
/-- Room for a line in its 16-way set: the resident line longest there that no open registration holds is evicted
(R21, R90; log 70). -/
def l2Room (s : State) (sl : SlabId) (pa : Nat) : State :=
  if s.l2.length < 16 then s
  else if (l2Mates s sl pa).length < 16 then s
  else match (l2Mates s sl pa).find? fun kl => lineClosed kl.2 with
    | some (k, l) => evictLine s k l
    | none => s
/-- The line is resident at its home. -/
def bring (s : State) (r : Res) : State :=
  match lkp s.l2 r.key with
  | some l =>
    if samePlace r l then s
    else
      let s1 := l2Room (evictLine s r.key l) r.home r.pa
      putLine s1 r.key (refill s1 r l)
  | none =>
    let s1 := l2Room s r.home r.pa
    putLine s1 r.key (homeLine s1 r)

/-- Every resident line rewritten. -/
def mapL2 (s : State) (f : LineKey → HLine → HLine) : State := { s with l2 := s.l2.map fun kl => (kl.1, f kl.1 kl.2) }
/-- Every line of a cluster's L1 rewritten. -/
def mapL1 (s : State) (c : ClusterId) (f : LineKey → L1Line → L1Line) : State :=
  modCluster s c fun k => { k with l1 := k.l1.map fun kl => (kl.1, f kl.1 kl.2) }

/-! ### Rings (R15, R344, R345) -/

/-- Dies along the ring of an axis from a die: two where its wrap bit closes the axis inside the package (R15); on an open axis
the model installs the largest torus of R2, 48, 48 and 32 dies (DESIGN CHOICE, log 69: R2 and R27 leave a system's size open). -/
def ringSize (s : State) (d : DieId) (ax : Nat) : Nat :=
  if (pkgAt s (pkgOf d)).wrap.getLsbD ax then 2 else if ax = 2 then 32 else 48
def coordOf (d : DieId) (ax : Nat) : Nat := match ax with | 0 => dx d | 1 => dy d | _ => dz d
def setCoord (d : DieId) (ax v : Nat) : DieId :=
  match ax with | 0 => mkDie v (dy d) (dz d) | 1 => mkDie (dx d) v (dz d) | _ => mkDie (dx d) (dy d) v
/-- The next die of a ring in a direction. -/
def ringNext (s : State) (d : DieId) (ax : Nat) (plus : Bool) : DieId :=
  let c := coordOf d ax
  let n := ringSize s d ax
  if n = 2 then setCoord d ax (if c % 2 = 0 then c + 1 else c - 1)
  else setCoord d ax (if plus then (c + 1) % n else (c + n - 1) % n)
/-- The physical number of a die's logical port, and of its router (R17, R333). -/
def physPort (d : DieId) (k : Nat) : Nat := (portsOf (Config.posOf (ldie d))).getD k 0
def physRouter (d : DieId) : Nat := Config.posOf (ldie d)
/-- What keeps a packet from a hop: a port at either end, a link that has not come up or a router, by unit code and physical index
(R333, R370, R371). -/
def hopFault (s : State) (a b : DieId) (ax : Nat) (plus : Bool) : Option (Nat × Nat) :=
  let k := 2 * ax + (if plus then 0 else 1)
  let o := 2 * ax + (if plus then 1 else 0)
  if (dieAt s a).fencedRouter then some (5, physRouter a)
  else if (dieAt s a).fencedPorts.contains k || (dieAt s a).downLinks.contains k then some (4, physPort a k)
  else if (dieAt s b).fencedPorts.contains o then some (4, physPort b o)
  else if (dieAt s b).fencedRouter || !(dieAt s b).live then some (5, physRouter b)
  else none
/-- The first obstacle along a ring up to coordinate `t`. -/
def ringFault (s : State) (ax : Nat) (plus : Bool) (t : Nat) : Nat → DieId → Option (Nat × Nat)
  | 0, d => if coordOf d ax = t then none else some (5, physRouter d)
  | k + 1, d =>
    if coordOf d ax = t then none
    else match hopFault s d (ringNext s d ax plus) ax plus with
      | some u => some u
      | none => ringFault s ax plus t k (ringNext s d ax plus)
/-- The obstacle of a dimension, when neither of its rings reaches the coordinate; the + ring names it (log 73). -/
def dimFault (s : State) (d : DieId) (ax t : Nat) : Option (Nat × Nat) :=
  match ringFault s ax true t 47 d, ringFault s ax false t 47 d with
  | some u, some _ => some u
  | _, _ => none
/-- Why no ring reaches a die: X first, then Y, then Z (R333, R345). -/
def pathFault (s : State) (src dst : DieId) : Option (Nat × Nat) :=
  let a := setCoord src 0 (dx dst)
  (dimFault s src 0 (dx dst)).orElse fun _ => (dimFault s a 1 (dy dst)).orElse fun _ => dimFault s (setCoord a 1 (dy dst)) 2 (dz dst)
/-- Rings reach the destination, dimension by dimension (R345). -/
def reaches (s : State) (src dst : DieId) : Bool := (pathFault s src dst).isNone

/-! ### Records and marks (R112, R113, R114) -/

/-- The words of a record that are open to an accessor (R113). -/
def recOpen (w : Who) (r : Rec) : BitVec 64 :=
  if r.task = w.task ∧ w.entry = none then 0
  else if r.die = w.die ∧ r.clus = w.clus then r.mask &&& ~~~ r.closed
  else r.mask
/-- The words of an engine mark that are open to an accessor: all but those of its own entry. -/
def markOpen (w : Who) (m : Mark) : BitVec 64 := if w.entry = some (m.q, m.serial) then 0 else m.mask
def plainOpen (w : Who) (l : HLine) : BitVec 64 :=
  (l.recs.filter fun r => !r.sync).foldl (fun a r => a ||| recOpen w r) 0 ||| l.marks.foldl (fun a m => a ||| markOpen w m) 0
def syncOpen (w : Who) (l : HLine) : BitVec 64 := (l.recs.filter (·.sync)).foldl (fun a r => a ||| recOpen w r) 0
/-- The line is open to the accessor (R87). -/
def lineOpen (w : Who) (l : HLine) : Bool := (plainOpen w l ||| syncOpen w l) != 0
/-- CONFLICT on these words: a PLAIN record or mark always, a SYNC record for an access of kind none (R114). -/
def conflicts (w : Who) (l : HLine) (mask : BitVec 64) (ordered : Bool) : Bool :=
  (plainOpen w l &&& mask) != 0 || (!ordered && (syncOpen w l &&& mask) != 0)
/-- The owner that a CONFLICT record names. -/
def ownerOf (w : Who) (l : HLine) (mask : BitVec 64) : W64 :=
  match l.recs.find? (fun r => (recOpen w r &&& mask) != 0) with
  | some r => r.task
  | none => 0

/-- The home's slice or channel is fenced, its slab is fenced by a partition action, or its die is fenced whole
(R35, R333, R371): the refusal reason of R334. -/
def homeRefuses (s : State) (sl : SlabId) (pa : Nat) : Option Nat :=
  let b := slabAt s sl
  if b.fence || !(dieAt s sl.die).live then some 1
  else if b.fencedSlices.contains (l2Slice pa) || b.fencedChans.contains (channelOf pa) then some 3
  else none
/-- A home refuses an access that starts on a die: as it refuses its own, or because no ring reaches it (R333). -/
def refusesFrom (s : State) (src : DieId) (sl : SlabId) (pa : Nat) : Option Nat :=
  if src ≠ sl.die ∧ !reaches s src sl.die then some 3 else homeRefuses s sl pa

/-! ### The cluster's L1 (R79, R83, R84) -/

def bankAt (k : Cluster) (b : Nat) : Bank := lkpD k.bank b {}
def cacheBanks (k : Cluster) : List Nat :=
  (List.range 48).filter fun b => (bankAt k b).mode == .cache && (bankAt k b).transit.isNone
def l1Find (k : Cluster) (key : LineKey) : Option L1Line := lkp k.l1 key
/-- The line becomes the most recently used. -/
def l1Put (k : Cluster) (key : LineKey) (l : L1Line) : Cluster := { k with l1 := (key, l) :: del k.l1 key }

/-- Words of an L1 line become invalid, with the bytes that it holds of them. -/
def invalWords (x : L1Line) (m : BitVec 64) : L1Line := { x with valid := x.valid &&& ~~~ m, bytes := x.bytes &&& ~~~ wordBytes m }
/-- What the line holds over another's data: valid words, and bytes of others (R79, R210). -/
def overData (data : Line) (x : L1Line) : Line := mergeBytes (mergeWords data x.data x.valid) x.data x.bytes
/-- The words of which the line holds something. -/
def heldWords (x : L1Line) : BitVec 64 :=
  x.valid ||| ofLanes 64 1 ((List.range 64).map fun i => if bitsN x.bytes (4 * i) 4 = 0 then 0 else 1)
/-- Write a task's dirty words of an L1 line beside its record at the home (R213, R331). -/
def spill (s : State) (key : LineKey) (l : L1Line) : State :=
  l.own.foldl (fun acc o =>
    match lkp acc.l2 key with
    | none => acc
    | some h =>
      if o.dirty == 0#64 then acc
      else
        let old : Pend := (h.pend.find? (·.task == o.task)).getD { task := o.task, mask := 0, data := 0, tags := 0 }
        let p : Pend := { old with mask := old.mask ||| o.dirty, data := mergeWords old.data l.data o.dirty,
                                   tags := (old.tags &&& ~~~ someGranules o.dirty) ||| (l.tags &&& wholeGranules o.dirty) }
        putLine acc key { h with pend := p :: h.pend.filter (·.task != o.task) }) s

/-- Room for a new line: the way that takes it, after evicting the least recently used line of its set when every way is
occupied; a bank in TRANSIT takes none (R79, R80, log 10). -/
def l1Room (s : State) (c : ClusterId) (key : LineKey) : Option (State × Nat) :=
  let k := clusterAt s c
  let ways := cacheBanks k
  match ways with
  | [] => none
  | w0 :: _ =>
    match ways.find? (fun b => !k.l1.any fun x => x.2.bank == b) with
    | some b => some (s, b)
    | none =>
      let set := k.l1.filter fun x => Config.l1Set x.1.line == Config.l1Set key.line && ways.contains x.2.bank
      match ways.find? (fun b => !set.any fun x => x.2.bank == b) with
      | some b => some (s, b)
      | none =>
        match set.getLast? with
        | none => some (s, w0)
        | some (vk, vl) => some (modCluster (spill s vk vl) c fun kk => { kk with l1 := del kk.l1 vk }, vl.bank)

/-- The records of other tasks of the accessor's cluster: they share its L1 (R113, R118). -/
def mates (w : Who) (l : HLine) : List Rec := l.recs.filter fun r => r.task != w.task && r.die == w.die && r.clus == w.clus
def pendOf (l : HLine) (task : W64) : List Pend := (l.pend.find? (·.task == task)).toList
/-- The unpublished words beside the line that the accessor's cluster sees: those of its tasks, its own last. -/
def besides (w : Who) (l : HLine) : List Pend := (mates w l).flatMap (fun r => pendOf l r.task) ++ pendOf l w.task
/-- The line as its home shows it to a task: published data under the unpublished words. -/
def viewFor (w : Who) (l : HLine) : Line := (besides w l).foldl (fun d p => mergeWords d p.data p.mask) l.data
def tagsFor (w : Who) (l : HLine) : BitVec 8 :=
  (besides w l).foldl (fun g p => (g &&& ~~~ someGranules p.mask) ||| p.tags) l.tags
/-- The words that other tasks of the cluster have closed by a CLUSTER release and that are dirty in its L1 (R118 step 3). -/
def closedDirty (w : Who) (l : HLine) (x : L1Line) : BitVec 64 :=
  (mates w l).foldl (fun a r => a ||| (r.closed &&& (x.own.filter (fun (o : Own) => o.task == r.task)).foldl (fun b o => b ||| o.dirty) 0)) 0
/-- The answer of a home to a load: a word closed to the accessor's cluster is the one in its L1 (R108, R113). -/
def viewIn (s : State) (w : Who) (key : LineKey) (l : HLine) : Line × BitVec 8 :=
  match l1Find (clusterAt s ⟨w.die, w.clus⟩) key with
  | none => (viewFor w l, tagsFor w l)
  | some x =>
    let own := pendOf l w.task
    let m := closedDirty w l x &&& ~~~ own.foldl (fun a p => a ||| p.mask) 0
    (mergeWords (viewFor w l) x.data m, (tagsFor w l &&& ~~~ someGranules m) ||| (x.tags &&& wholeGranules m))

/-- Bring a line into the L1: invalid words come from the home's view, words already valid stay; a granule of words from both
is no capability (R72, R79, R116). -/
def l1Fill (s : State) (c : ClusterId) (r : Res) (data : Line) (tags : BitVec 8) : State :=
  match l1Find (clusterAt s c) r.key with
  | some l =>
    modCluster s c fun k => l1Put k r.key { l with
      home := r.home, data := overData data l, valid := BitVec.allOnes 64, bytes := 0,
      tags := (tags &&& ~~~ someGranules (heldWords l)) ||| (l.tags &&& wholeGranules l.valid) }
  | none =>
    match l1Room s c r.key with
    | none => s
    | some (s1, b) =>
      modCluster s1 c fun k => l1Put k r.key { home := r.home, data := data, valid := BitVec.allOnes 64, tags := tags, bank := b }

/-! ### Registration and publication (R83, R118) -/

def myMask (w : Who) (l : HLine) : BitVec 64 :=
  (l.recs.filter fun r => r.task == w.task && r.die == w.die).foldl (fun a r => a ||| r.mask) 0
/-- Unpublished words less some, and less the tags of the granules that those cut (R72). -/
def pendLess (p : Pend) (m : BitVec 64) : Pend := { p with mask := p.mask &&& ~~~ m, tags := p.tags &&& ~~~ someGranules m }
/-- Register ownership of the words not yet owned; one registration event raises the version once (R83, R86). The words that
another task of the cluster left beside the line give way to the newer ones. -/
def register (w : Who) (l : HLine) (mask : BitVec 64) (sync : Bool) : HLine :=
  let new := mask &&& ~~~ myMask w l
  if new = 0 then l
  else
    let give := fun (p : Pend) => if (mates w l).any (fun q => q.task == p.task) then pendLess p new else p
    bumpVer { l with recs := l.recs ++ [{ die := w.die, task := w.task, clus := w.clus, sync := sync, mask := new, closed := 0 }]
                     pend := l.pend.map give }

/-- Physical address of the extent entry of a key (R67, R69). -/
def extAddr (s : State) (pid : BitVec 32) (d : DieId) (k : TKey) : Nat :=
  bitsN (otWord s pid d k.oid.toNat 3) 12 52 * 4096 + 8 * k.ext
/-- The first access of a window that reaches an extent clears its MOVES and PIN (R98). -/
def touchExtent (s : State) (w : Who) (r : Res) : State :=
  if r.key.oid = 0 || r.host then s
  else match partAt s w.pid with
    | none => s
    | some p =>
      if p.windowed.contains r.tkey then s
      else
        let a := extAddr s w.pid (if wDist r.word0 then r.key.facet else r.home.die) r.tkey
        let e := physRead s a 8
        let s1 := setPart s w.pid { p with windowed := r.tkey :: p.windowed }
        if e / 2 ^ 5 % 16 = 0 || !ownsPhys s w.pid a then s1 else physWrite s1 a (bytesOf 8 (e - e / 2 ^ 5 % 16 * 2 ^ 5))
/-- FOLLOW counts consecutive registrations and atomics from one other die, and their slab (R99); an event from the home's own
die or a third die starts the count again. EXTENT_MIGRATION acts on the 64th, which stands until then. -/
def noteFollow (s : State) (w : Who) (r : Res) : State :=
  if wHome r.word0 ≠ 2 || wDist r.word0 then touchExtent s w r
  else modPart (touchExtent s w r) w.pid fun p =>
    let (d, n, _) := lkpD p.follow r.tkey (w.die, 0, w.slab.slab)
    if 64 ≤ n then p
    else if w.die = r.home.die then { p with follow := del p.follow r.tkey }
    else if d = w.die then { p with follow := ins p.follow r.tkey (d, n + 1, w.slab.slab) }
    else { p with follow := ins p.follow r.tkey (w.die, 1, w.slab.slab) }

/-- What a write of a strand that registers a word notes: its extent, and an image under it (R98, R99, R312). -/
def noteWrite (s : State) (w : Who) (r : Res) : State := noteFollow (harm s r.key) w r
/-- What a store notes that registers the words `new`: one that registers none is no event of R99. -/
def noteStore (s : State) (w : Who) (r : Res) (new : BitVec 64) : State :=
  if new = 0 then touchExtent (harm s r.key) w r else noteWrite s w r

/-- Words written at the home (published): data, written marks; any write clears the granule's tag, a whole granule takes
the given tags (R72, R90). -/
def publishWords (l : HLine) (mask : BitVec 64) (data : Line) (tags : BitVec 8) : HLine :=
  { l with data := mergeWords l.data data mask, written := l.written ||| mask,
           tags := (l.tags &&& ~~~ someGranules mask) ||| (tags &&& wholeGranules mask) }

/-- The home is covered by a scope of an accessor (R106). -/
def covers (scope : Nat) (w : Who) (home : SlabId) : Bool :=
  match scope with | 0 => false | 1 => false | 2 => home.die == w.die | _ => true

/-- Publish one task's words of one line and remove its records there (R83, R118 step 3). -/
def publishLine (w : Who) (l1 : Option L1Line) (l : HLine) : HLine :=
  let mine := myMask w l
  let a : HLine := match l.pend.find? (·.task == w.task) with
    | some p => publishWords l (p.mask &&& mine) p.data p.tags
    | none => l
  let b : HLine := match l1 with
    | some k =>
      match k.own.find? (·.task == w.task) with
      | some o => publishWords a (o.dirty &&& mine) k.data k.tags
      | none => a
    | none => a
  { b with recs := b.recs.filter (fun r => !(r.task == w.task && r.die == w.die)),
           pend := b.pend.filter (·.task != w.task) }
def disown (task : W64) (l : L1Line) : L1Line := { l with own := l.own.filter (·.task != task) }

/-- A task's unpublished words of a line: beside it, and dirty in its cluster's L1. -/
def unpublished (w : Who) (l1 : Option L1Line) (l : HLine) : BitVec 64 :=
  let mine := myMask w l
  (pendOf l w.task).foldl (fun a (p : Pend) => a ||| (p.mask &&& mine)) 0 |||
  (match l1 with
   | some k => (k.own.filter fun (o : Own) => o.task == w.task).foldl (fun a (o : Own) => a ||| (o.dirty &&& mine)) 0
   | none => 0)
/-- A line holds records of the accessor's task, at a home of `p`. -/
def ownsAt (w : Who) (p : SlabId → Bool) (kl : LineKey × HLine) : Bool := kl.1.pid == w.pid && p kl.2.home && myMask w kl.2 != 0
/-- A write-back of a release that meets another party's open PLAIN record or mark: its line, the first such word and the owner
(R114). -/
def releaseClash (s : State) (w : Who) (p : SlabId → Bool) : Option (LineKey × Nat × W64) :=
  s.l2.findSome? fun kl =>
    if ownsAt w p kl then
      let m := unpublished w (l1Find (clusterAt s ⟨w.die, w.clus⟩) kl.1) kl.2 &&& plainOpen w kl.2
      ((List.range 64).find? m.getLsbD).map fun i => (kl.1, i, ownerOf w kl.2 m)
    else none
/-- Publish the task's words at the homes of `p` and remove its records there (R118 step 3). -/
def publishWhere (s : State) (w : Who) (p : SlabId → Bool) : State :=
  let c : ClusterId := ⟨w.die, w.clus⟩
  let keys := (s.l2.filter (ownsAt w p)).map (·.1)
  let s1 := mapL2 s fun k l => if ownsAt w p (k, l) then publishLine w (l1Find (clusterAt s c) k) l else l
  mapL1 s1 c fun k l => if keys.contains k then disown w.task l else l
/-- Step 3 of R118 at a scope: publish at DIE scope or wider, mark cluster-closed at CLUSTER scope, nothing at CORE. -/
def publishAll (s : State) (w : Who) (scope : Nat) : State :=
  if scope = 0 then s
  else if scope = 1 then
    mapL2 s fun k l =>
      if k.pid = w.pid then { l with recs := l.recs.map fun r => if r.task = w.task ∧ r.die = w.die then { r with closed := r.mask } else r }
      else l
  else publishWhere s w (covers scope w)

/-- The tasks resident in a cluster. -/
def residents (s : State) (c : ClusterId) : List W64 :=
  (List.range 4).filterMap fun k => (coreAt s (coreOf c k)).task.map (·.taskId)

/-- A task of the cluster. -/
def inCluster (c : ClusterId) (x : CoreId × Core) : Bool := CoreId.cluster x.1 == c
/-- An answer to a task's outstanding read no longer fills the L1 (R116, R117). -/
def unfill (p : Res → Bool) (t : Task) : Task :=
  match t.remote with
  | .sent r g f => if p r then { t with remote := .sent r g false } else { t with remote := .sent r g f }
  | .line r f d tg v o => if p r then { t with remote := .line r false d tg v o } else { t with remote := .line r f d tg v o }
  | _ => t
/-- The outstanding reads of a cluster's tasks that `p` names will not fill its L1. -/
def noFill (s : State) (c : ClusterId) (p : Res → Bool) : State :=
  let hit := fun (x : CoreId × Core) => inCluster c x && (match x.2.task with | some t => decide (unfill p t ≠ t) | none => false)
  if s.cores.any hit then
    { s with cores := s.cores.map fun x => if hit x then (x.1, { x.2 with task := x.2.task.map (unfill p) }) else x }
  else s

/-- R84: an acquire at DIE scope or wider invalidates the unowned words of the cluster's L1 whose home the scope covers; reads
on their way do not bring them back (R116, R117). -/
def acquireInval (s : State) (w : Who) (scope : Nat) : State :=
  if scope ≤ 1 then s
  else
    let c : ClusterId := ⟨w.die, w.clus⟩
    let live := residents s c
    let f := fun (kl : LineKey × L1Line) =>
      if covers scope w kl.2.home then
        let keep : BitVec 64 := (kl.2.own.filter fun o => live.contains o.task || o.dirty != 0).foldl
          (fun a o => a ||| (if live.contains o.task then o.mask else o.dirty)) 0
        if keep = 0 then none else some (kl.1, invalWords kl.2 (~~~ keep))
      else some kl
    modCluster (noFill s c fun r => covers scope w r.home) c fun k => { k with l1 := k.l1.filterMap f }

/-! ### Accesses at a home -/

/-- Chosen records without these words; an empty record goes. -/
def dropWords (l : List Rec) (p : Rec → Bool) (m : BitVec 64) : List Rec :=
  l.filterMap fun r => if p r then (if r.mask &&& ~~~ m = 0 then none else some { r with mask := r.mask &&& ~~~ m }) else some r
/-- An L1 line whose task no longer owns these words. -/
def unown (x : L1Line) (task : W64) (m : BitVec 64) : L1Line :=
  let f := fun (o : Own) => if o.task = task then { o with mask := o.mask &&& ~~~ m, dirty := o.dirty &&& ~~~ m } else o
  { x with own := x.own.map f }

/-- The words of the granules that a mask touches. -/
def wholeWords (m : BitVec 64) : BitVec 64 := granuleWords (someGranules m)
/-- The words of a task that go to the home with the words `m`: also the others of a granule that holds a capability of its, so that the
tag stays while nothing writes it (R72). -/
def withTags (own m : BitVec 64) (tags : BitVec 8) : BitVec 64 := own &&& (m ||| (wholeWords m &&& granuleWords tags))
/-- A task's words `m` of those that it owns, beside the line and in its L1, go to the home. -/
def bringHome (x : Option L1Line) (task : W64) (own m : BitVec 64) (l : HLine) : HLine :=
  let a := (pendOf l task).foldl (fun h (p : Pend) => publishWords h (p.mask &&& withTags own m p.tags) p.data p.tags) l
  let b := match x with
    | some x => (x.own.filter (fun (o : Own) => o.task == task)).foldl (fun h (o : Own) =>
        publishWords h (o.dirty &&& withTags own m x.tags) x.data x.tags) a
    | none => a
  { b with pend := b.pend.map fun (p : Pend) => if p.task = task then pendLess p (withTags own m p.tags) else p }
/-- An L1 line whose task no longer owns the words `m`, and holds none dirty of those that went home with them. -/
def wentHome (x : L1Line) (task : W64) (own m : BitVec 64) : L1Line :=
  let y := unown x task m
  { y with own := y.own.map fun (o : Own) => if o.task = task then { o with dirty := o.dirty &&& ~~~ withTags own m x.tags } else o }
/-- The words that a task owns of a line. -/
def taskWords (die : DieId) (task : W64) (l : HLine) : BitVec 64 :=
  (l.recs.filter fun r => r.task == task && r.die == die).foldl (fun a r => a ||| r.mask) 0
/-- A SYNC owner that the record is open to writes its words to the home and drops its record (R114, R221). -/
def syncYield (s : State) (w : Who) (key : LineKey) (mask : BitVec 64) : State :=
  match lkp s.l2 key with
  | none => s
  | some l =>
    (l.recs.filter fun r => r.sync && (recOpen w r &&& mask) != 0).foldl (fun acc r =>
      let c : ClusterId := ⟨r.die, r.clus⟩
      let m := recOpen w r &&& mask
      let own := taskWords r.die r.task (lkpD acc.l2 key l)
      let h1 := bringHome (l1Find (clusterAt acc c) key) r.task own m (lkpD acc.l2 key l)
      let h2 := { h1 with recs := dropWords h1.recs (fun q => decide (q = r)) m }
      mapL1 (putLine acc key h2) c fun k2 x => if k2 = key then wentHome x r.task own m else x) s
/-- Words that other tasks of the accessor's cluster closed by a CLUSTER release go to the home before an atomic or an engine
write; the records stay (R108, R113). -/
def closedYield (s : State) (w : Who) (key : LineKey) (mask : BitVec 64) : State :=
  match lkp s.l2 key with
  | none => s
  | some l =>
    ((mates w l).filter fun r => (r.closed &&& mask) != 0).foldl (fun acc r =>
      let c : ClusterId := ⟨r.die, r.clus⟩
      let m := r.closed &&& mask
      let own := taskWords r.die r.task (lkpD acc.l2 key l)
      let h1 := bringHome (l1Find (clusterAt acc c) key) r.task own m (lkpD acc.l2 key l)
      mapL1 (putLine acc key h1) c fun k2 x => if k2 = key then wentHome x r.task own m else x) s

def yieldWords (s : State) (w : Who) (key : LineKey) (mask : BitVec 64) : State := closedYield (syncYield s w key mask) w key mask
/-- The issuing task's own dirty words are written to the home and its record on them is removed (R221). The other words of a
granule that holds an unpublished capability go with them, still owned (R72). -/
def ownWriteBack (s : State) (w : Who) (key : LineKey) (mask : BitVec 64) : State :=
  match lkp s.l2 key with
  | none => s
  | some l =>
    let c : ClusterId := ⟨w.die, w.clus⟩
    let own := myMask w l
    let m := own &&& mask
    if m = 0 then s
    else
      let b := bringHome (l1Find (clusterAt s c) key) w.task own m l
      let h : HLine := { b with recs := dropWords b.recs (fun r => decide (r.task = w.task ∧ r.die = w.die)) m }
      let shed := fun (x : L1Line) => invalWords (wentHome x w.task own m) (withTags own m x.tags)
      mapL1 (putLine s key h) c fun k2 x => if k2 = key then shed x else x

/-- An answer of a home: done with a new state, CONFLICT with the owner, or a refusal with its reason (R334). -/
inductive HAns (α : Type)
  | ok (s : State) (v : α)
  | conflict (owner : W64)
  | refused (reason : Nat)

/-- Bytes written over a line, with the tag of a stored capability (R72, R204). -/
def writeOp (d : Line) (tags : BitVec 8) (off : Nat) (op : WOp) : Line × BitVec 8 × BitVec 64 :=
  match op with
  | .bytes b | .release b =>
    (lineSet d off b.length (ofBytes b), tags &&& ~~~ granulesTouched off b.length, wordsTouched off b.length)
  | .cap k => (lineSet d off 32 (setBits k.bits 60 4 0).toNat, tags ||| granulesTouched off 32, wordsTouched off 32)
  | .reduce _ w _ => (d, tags, wordsTouched off (w / 8))

/-- The value an atomic leaves (R220, R222, R223): fn 0 to 8 (and 16 to 23), 32 fadd, 33 fmax, 34 compare and swap. -/
def amoOp (fn : Nat) (ty : BitVec 4) (old b e : Nat) : Nat :=
  let n := fmtWidth ty
  let so := readInt true n old
  let sb := readInt true n b
  match fn % 16, fn / 16 with
  | 0, 2 => roundF ty .rne (addF false (decodeF ty old) (decodeF ty (b % 2 ^ n)))
  | 1, 2 => roundF ty .rne (minMaxF true false (decodeF ty old) (decodeF ty (b % 2 ^ n)))
  | 2, 2 => if old = e % 2 ^ n then b % 2 ^ n else old
  | 0, _ => (old + b) % 2 ^ n
  | 1, _ => old &&& b % 2 ^ n
  | 2, _ => old ||| b % 2 ^ n
  | 3, _ => old ^^^ b % 2 ^ n
  | 4, _ => if sb < so then b % 2 ^ n else old
  | 5, _ => if so < sb then b % 2 ^ n else old
  | 6, _ => min old (b % 2 ^ n)
  | 7, _ => max old (b % 2 ^ n)
  | 8, _ => b % 2 ^ n
  | _, _ => old

/-- Kinds acq and ar, rel and ar (R107). -/
def ordAcq (o : BitVec 2) : Bool := o == 1 || o == 3
def ordRel (o : BitVec 2) : Bool := o == 2 || o == 3
/-- An access that a task of another die made as a release at PARTITION scope or wider: its earlier stores to this die arrived
before it, and are published with it (R118 steps 3 and 4, R126). -/
def pubAt (w : Who) (r : Res) (ord : Ordr) : Option (SlabId → Bool) :=
  if ordRel ord.kind && decide (3 ≤ ord.scope.toNat ∧ w.die ≠ r.home.die) then some fun h => h.die == r.home.die else none
def publishFor (s : State) (w : Who) (p : Option (SlabId → Bool)) : State :=
  match p with | some q => publishWhere s w q | none => s
def clashFor (s : State) (w : Who) (p : Option (SlabId → Bool)) : Option W64 :=
  match p with | some q => (releaseClash s w q).map (·.2.2) | none => none

/-- A load at the home of a line (R114): the whole line as the accessor sees it. `ordered` for ACQ. -/
def homeLoad (s : State) (w : Who) (r : Res) (n : Nat) (ordered : Bool) : HAns (Line × BitVec 8) :=
  match refusesFrom s w.die r.home r.pa with
  | some why => .refused why
  | none =>
    let mask := wordsTouched (r.loc.byte % 256) n
    if conflicts w (homeLine s r) mask ordered then .conflict (ownerOf w (homeLine s r) mask)
    else
      let s1 := bring s r
      let s2 := if ordered then syncYield s1 w r.key mask else s1
      .ok (touchExtent s2 w r) (viewIn s2 w r.key (homeLine s2 r))

/-- A store at a home: registration, and the bytes held beside the record, unpublished (R83, R210); a reduction or the write
of a release is made and published there. The caller keeps a store's bytes in the L1 instead when it has one. Only words that
the task does not yet own are registered, and so checked (R113, R114). -/
def homeStore (s : State) (w : Who) (r : Res) (op : WOp) (ord : Ordr) : HAns Unit :=
  match refusesFrom s w.die r.home r.pa with
  | some why => .refused why
  | none =>
    let l := homeLine s r
    let off := r.loc.byte % 256
    let (d, tg, mask) := writeOp (viewFor w l) (tagsFor w l) off op
    let pub := pubAt w r ord
    let write := fun (v : Nat → Nat) (n : Nat) =>
      let s1 := ownWriteBack (yieldWords (publishFor (bring s r) w pub) w r.key mask) w r.key mask
      let l1 := homeLine s1 r
      HAns.ok (noteWrite (putLine s1 r.key (bumpVer (publishWords l1 mask (lineSet l1.data off n (v (lineGet l1.data off n))) 0))) w r) ()
    match op with
    | .reduce fn width b =>
      if conflicts w l mask true then .conflict (ownerOf w l mask)
      else match clashFor s w pub with
        | some o => .conflict o
        | none => write (fun old => amoOp fn (if width = 32 then 0xE else 0xF) old b.toNat 0) (width / 8)
    | .release b =>
      if conflicts w l mask true then .conflict (ownerOf w l mask)
      else match clashFor s w pub with
        | some o => .conflict o
        | none => write (fun _ => ofBytes b) b.length
    | _ =>
      let new := mask &&& ~~~ myMask w l
      if conflicts w l new false then .conflict (ownerOf w l new)
      else
        let l1 := register w l mask false
        let old := (l1.pend.find? (·.task == w.task)).getD { task := w.task, mask := 0, data := 0, tags := 0 }
        let p : Pend := { old with mask := old.mask ||| mask, data := mergeWords old.data d mask,
                                   tags := (old.tags &&& ~~~ someGranules mask) ||| (tg &&& wholeGranules mask) }
        .ok (noteStore (putLine (bring s r) r.key { l1 with pend := p :: l1.pend.filter (·.task != w.task) }) w r new) ()

/-- An atomic at the home (R85, R217, R218, R221). `kind` 0: AMO, AMOF, CAS; 1: CASV with the expected version in `e`, which
fails before it changes any word or record (R125). The answer is the old value, the line's version, and whether it stored. -/
def homeAtomic (s : State) (w : Who) (r : Res) (fn : Nat) (ty : BitVec 4) (b e : W64) (kind : Nat) (ord : Ordr) :
    HAns (W64 × BitVec 48 × Bool) :=
  match refusesFrom s w.die r.home r.pa with
  | some why => .refused why
  | none =>
    let n := fmtWidth ty / 8
    let off := r.loc.byte % 256
    let mask := wordsTouched off n
    let pub := pubAt w r ord
    if conflicts w (homeLine s r) mask true then .conflict (ownerOf w (homeLine s r) mask)
    else match clashFor s w pub with
      | some o => .conflict o
      | none =>
        let s0 := publishFor (bring s r) w pub
        let l := homeLine s0 r
        if kind = 1 ∧ (lineOpen w l ∨ l.ver ≠ e.truncate 48) then
          .ok (noteFollow s0 w r) (BitVec.ofNat 64 (lineGet l.data off n), l.ver, false)
        else
          let s1 := ownWriteBack (yieldWords s0 w r.key mask) w r.key mask
          let l1 := homeLine s1 r
          let old := lineGet l1.data off n
          let v := if kind = 1 then b.toNat % 2 ^ (8 * n) else amoOp fn ty old b.toNat e.toNat
          let stores := decide (kind = 1 ∨ fn ≠ 34 ∨ old = e.toNat % 2 ^ (8 * n))
          let l2 := bumpVer (if stores then publishWords l1 mask (lineSet l1.data off n v) 0 else l1)
          .ok ((if stores then noteWrite else noteFollow) (putLine s1 r.key l2) w r) (BitVec.ofNat 64 old, l2.ver, stores)

/-- The copies in a cluster's L1 of granules that a write at the home has passed by, where no task owns their words
(R72, R84, R110). -/
def dropStale (s : State) (c : ClusterId) (key : LineKey) (mask : BitVec 64) : State :=
  mapL1 s c fun k x =>
    if k = key then invalWords x (wholeWords mask &&& ~~~ (x.own.foldl (fun a o => a ||| o.mask) 0)) else x

/-- LDV's read at the home: value of the line, version, open (R87, R88, R215). -/
def homeVersioned (s : State) (w : Who) (r : Res) : HAns (Line × BitVec 48 × Bool) :=
  match refusesFrom s w.die r.home r.pa with
  | some why => .refused why
  | none =>
    let s1 := bring s r
    let l := homeLine s1 r
    .ok (touchExtent s1 w r) (l.data, l.ver, lineOpen w l)

end Sys2Proof.Machine
end

