-- ==== Sys2Proof/Machine/Net.lean ====
section
/-! DEFINITION. Sending packets between dies (R346 to R351). Ring slots, hops and compression change no order, grant or
visibility (R344, R345, R353) and are left out (log 14). -/

namespace Sys2Proof.Machine

/-! ### Ports -/

/-- The logical port of the destination at which a packet arrives: the last axis that turns, the shorter way, + on a tie, and
the other way while a port of the chosen direction is fenced (R345). -/
def arrivalPort (s : State) (src dst : DieId) : Nat :=
  match ([2, 1, 0] : List Nat).find? fun ax => coordOf src ax != coordOf dst ax with
  | none => 0
  | some ax =>
    let n := ringSize s dst ax
    let d := (coordOf dst ax + n - coordOf src ax % n) % n
    let plus := decide (2 * d ≤ n)
    let from' := match ax with
      | 0 => src
      | 1 => setCoord src 0 (dx dst)
      | _ => setCoord (setCoord src 0 (dx dst)) 1 (dy dst)
    let way := if (ringFault s ax plus (coordOf dst ax) 47 from').isSome then !plus else plus
    if way then 2 * ax + 1 else 2 * ax

/-! ### Packets -/

/-- Flits of a packet: 16 bytes of descriptor, the data, a FORWARD's die list of 4 bytes a die, 16 bytes of tag, in 64-byte
flits (R347, R352; log 75). RDATA carries a line and no descriptor. -/
def flitsOf (b : Body) : Nat :=
  match b with
  | .write _ _ _ _ (.bytes d) _ => cdiv (32 + d.length) 64
  | .forward _ _ _ d rest _ _ _ _ _ => cdiv (32 + d.length + 4 * rest.length) 64
  | .stream _ _ _ d .. | .ewrite _ _ d _ _ => cdiv (32 + d.length) 64
  | .rdata .. => 5
  | _ => 1
/-- The granted types (R346). -/
def granted (b : Body) : Bool := match b with | .write .. | .ewrite .. | .forward .. | .stream .. => true | _ => false
/-- Packets that are numbered, kept and acknowledged: all but the acknowledgement itself and the return of a packet to its sender
(R349, R350; log 14). -/
def sequenced (b : Body) : Bool := match b with | .ack .. | .busy .. => false | _ => true
/-- The type code (R346). -/
def typeOf (b : Body) : Nat :=
  match b with
  | .write .. | .ewrite .. => 0 | .read .. => 1 | .rdata .. => 2 | .atomic .. => 3 | .aresp .. => 4 | .ack .. => 5 | .refuse .. => 6
  | .busy .. => 7 | .demand .. => 8 | .grant .. => 9 | .flag .. => 10 | .semadd .. => 11 | .forward .. => 12 | .stream .. => 13
  | .mgmt .. => 14 | .reserved => 15
/-- TAG of a packet: a store's sequence tag, an entry tag, or 0. The number by which the model matches the answer of a READ or ATOMIC
is none of these (R346; log 14). -/
def headerTag (p : Packet) : Nat :=
  match p.body with | .read .. | .rdata .. | .atomic .. | .aresp .. => 0 | _ => p.tag.toNat
/-- The header of a packet of a (SRC, DST) pair, uncompressed; a BUSY is its packet's return to the sender (R346, R350). -/
def headerOf (src dst : DieId) (p : Packet) : BitVec 128 :=
  let n := (flitsOf p.body - 1) % 256
  let ret := match p.body with | .busy .. => 1 | _ => 0
  BitVec.ofNat 128 (headerTag p + ret * 2 ^ 82 + p.seq.toNat * 2 ^ 40 + n * 2 ^ 64 + n * 2 ^ 72 + p.circ.toNat * 2 ^ 81 + p.key.toNat * 2 ^ 84 +
    typeOf p.body * 2 ^ 90 + src.toNat * 2 ^ 94 + dst.toNat * 2 ^ 111 + (if p.zeros then 0 else 2 ^ 80))

/-- The physical address at which a FORWARD's data begins on a die (R290, R347). -/
def forwardPA (s : State) (pid oid : BitVec 32) (d : DieId) (byte : Nat) : Nat :=
  let e := walk s pid d ⟨oid, d, byte / 2 ^ 21⟩
  let rate := codingRate (wCoding e.word0)
  extPA e.ext + (if rate = 0 then byte % 2 ^ 21 else 4 * rate * (byte / 256 % 8192) + byte % 256)
/-- Bytes 0 to 15 of the first flit of a packet to a die: physical address, byte count, operation (R347). A stream and a semaphore have no
physical address, and theirs is 0 here (log 14). -/
def descriptorOf (s : State) (dst : DieId) (b : Body) : BitVec 128 :=
  let pack := fun (pa n op : Nat) => BitVec.ofNat 128 (op * 2 ^ 24 + n % 2 ^ 32 * 2 ^ 32 + pa % 2 ^ 64 * 2 ^ 64)
  let d := fun (r : Res) => pack (r.pa + r.loc.byte % 256)
  match b with
  | .write _ _ _ r (.bytes l) _ | .write _ _ _ r (.release l) _ | .ewrite _ r l _ _ => d r l.length 0
  | .write _ _ _ r (.cap _) _ => d r 32 0
  | .write _ _ _ r (.reduce fn w _) _ => d r (w / 8) (Config.opByte fn (if w = 32 then 0xE else 0xF)).toNat
  | .read _ _ _ r n _ _ => d r n 0
  | .atomic _ _ _ r fn ty _ _ _ _ => d r (fmtWidth ty / 8) (Config.opByte fn ty.toNat).toNat
  | .flag _ r _ _ => d r 8 (Config.opByte 0 0xF).toNat
  | .forward pid oid byte l .. => pack (forwardPA s pid oid dst byte) l.length 0
  | .stream _ _ _ l .. => pack 0 l.length 0
  | .semadd .. => pack 0 4 (Config.opByte 0 0xE).toNat
  | _ => 0

/-- The partition under whose key a packet travels; none for firmware traffic. -/
def bodyPid (b : Body) : Option (BitVec 32) :=
  match b with
  | .write pid .. | .ewrite pid .. | .read pid .. | .rdata pid .. | .atomic pid .. | .aresp pid .. | .flag pid .. | .semadd pid ..
  | .forward pid .. | .stream pid .. => some pid
  | .ack p .. | .refuse p .. | .busy p .. | .demand p .. | .grant p .. => p
  | .mgmt .. | .reserved => none
/-- The next key epoch: 63 is followed by 1 (R373). -/
def nextEpoch (e : BitVec 6) : BitVec 6 := if e = 63 then 1 else e + 1
/-- A pair whose WRAPS count is spent raises its partition's epoch under a new secret at its next numbered packet (R373). -/
def spendWraps (s : State) (src dst : DieId) (b : Body) : State :=
  if (pairAt s src dst).wraps ≠ 2 ^ 48 - 1 ∨ !sequenced b then s
  else match bodyPid b with
    | none => s
    | some pid =>
      modPart (modPair { s with free := s.free + 1 } src dst fun p => { p with wraps := 0 }) pid fun p =>
        { p with epoch := nextEpoch p.epoch, secret := Config.entropy s.free }

/-- The epoch and the secret under which a partition's packets go (R348, R372, R373). -/
def keyOf (s : State) (pid : BitVec 32) : BitVec 6 := match partAt s pid with | some p => p.epoch | none => 0
def secretOf (s : State) (pid : BitVec 32) : BitVec 384 := match partAt s pid with | some p => p.secret | none => 0
/-- The logical direction of the link that joins two dies, if one does (R15, R19). -/
def linkBetween (s : State) (a b : DieId) : Option Nat :=
  (List.range 6).find? fun k => ringNext s a (k / 2) (k % 2 == 0) == b
/-- A die in reset, or fenced whole, and a link that has not come up, hold no session (R370, R371). -/
def sessionUp (s : State) (a b : DieId) : Bool :=
  (dieAt s a).live && (dieAt s b).live &&
  (match linkBetween s a b with | some k => !(dieAt s a).downLinks.contains k | none => true)
/-- The key of firmware traffic between two dies, which the session of their link exports, none without one (R372; log 14). -/
def exportOf (s : State) (a b : DieId) : Option (BitVec 384) :=
  if !sessionUp s a b then none
  else
    let (x, y) := if a.toNat ≤ b.toNat then (a, b) else (b, a)
    some (Config.spdmExport (pkgAt s (pkgOf x)).exported (pkgAt s (pkgOf y)).exported (x ++ y))
/-- A body from one die to another under the present key of its partition, or under KEY 0 (R346, R372). -/
def sealPkt (s : State) (src dst : DieId) (seq : BitVec 24) (tag : BitVec 32) (b : Body) : Packet :=
  match bodyPid b with
  | some pid => { seq := seq, key := keyOf s pid, secret := secretOf s pid, tag := tag, body := b }
  | none => { seq := seq, key := 0, secret := (exportOf s src dst).getD 0, tag := tag, body := b }

/-- Put a packet on the wire with the pair's next sequence number; the sender keeps it until it is acknowledged (R349). -/
def launchPkt (s : State) (src dst : DieId) (tag : BitVec 32) (b : Body) : State :=
  let s1 := spendWraps s src dst b
  modPair s1 src dst fun p =>
    let k := sealPkt s1 src dst p.next tag b
    if sequenced b then
      { p with next := p.next + 1, wraps := if p.next + 1 = 0 then p.wraps + 1 else p.wraps,
               flight := p.flight ++ [k], kept := p.kept ++ [(k, s.ck)] }
    else { p with flight := p.flight ++ [k] }

/-- Send a packet: a multi-flit packet of a granted type waits for a grant behind one DEMAND, and everything behind it
waits too, so one task's packets to one die keep their order (R349, R351). -/
def sendPkt (s : State) (src dst : DieId) (tag : BitVec 32) (b : Body) : State :=
  let p := pairAt s src dst
  if sequenced b && (!p.waiting.isEmpty || (granted b && decide (1 < flitsOf b))) then
    let s1 := modPair s src dst fun p => { p with waiting := p.waiting ++ [sealPkt s src dst 0 tag b], demand := true }
    if p.demand then s1 else launchPkt s1 src dst 0 (.demand (bodyPid b) (flitsOf b))
  else launchPkt s src dst tag b

/-- The access that a packet carries. -/
def bodyRes (b : Body) : Option Res :=
  match b with
  | .write _ _ _ r _ _ | .ewrite _ r .. | .read _ _ _ r _ _ _ | .atomic _ _ _ r .. | .flag _ r .. => some r
  | _ => none
/-- A packet that its destination has not acknowledged, or that still waits for a grant. -/
def anyUnacked (s : State) (p : Body → Bool) : Bool :=
  s.net.any fun x => (x.2.kept.any fun k => p k.1.body) || (x.2.waiting.any fun k => p k.body)
/-- Some task, resident or saved. -/
def anyTask (s : State) (p : Task → Bool) : Bool :=
  (s.cores.any fun c => match c.2.task with | some t => p t | none => false) ||
  (s.slabs.any fun b => b.2.images.any fun im => im.away && im.tasks.any p)
/-- A started engine entry that names the object, other than a RESHD, has work left (R104). -/
def startedOn (s : State) (pid oid : BitVec 32) : Bool :=
  let hit := fun (e : Entry) => e.pid == pid && e.st == .running && !e.done &&
    (match e.cmd with | .reshd _ | .reshdInst _ => false | _ => true) && e.caps.any fun c => c.tag && c.bits.extractLsb' 0 32 == oid
  (s.clusters.any fun k => k.2.queues.any fun q => q.2.any hit) ||
  s.slabs.any fun b => (b.2.queues.any fun q => q.2.any hit) || b.2.fired.any hit
/-- No access to the object is under way: none in a packet, none in a side log, none of a started entry (R77, R104). -/
def quietObj (s : State) (pid oid : BitVec 32) : Bool :=
  !(anyUnacked s fun b => match b with
    | .forward p o .. => p == pid && o == oid
    | b => match bodyRes b with | some r => r.key.pid == pid && r.key.oid == oid | none => false) &&
  !(anyTask s fun t => t.pid == pid && t.side.any fun e => e.loc.oid == oid) && !startedOn s pid oid
/-- The words of a line that stores in flight from a cluster have not yet brought home. -/
def flying (s : State) (c : ClusterId) (home : DieId) (key : LineKey) (mine : W64 → Bool) : BitVec 64 :=
  let p := pairAt s c.die home
  (p.kept.map (·.1) ++ p.waiting).foldl (fun a k =>
    match k.body with
    | .write _ src task r op _ =>
      if r.key = key ∧ CoreId.cluster src = c ∧ mine task then a ||| (writeOp 0 0 (r.loc.byte % 256) op).2.2 else a
    | _ => a) 0

/-- A task's store, reduction or atomic to another die awaits its acknowledgement (R118 step 4). -/
def noteSent (d : DieId) (ord : Ordr) (t : Task) : Task :=
  { t with unacked := upd t.unacked d 0 (· + 1)
           unackedOrd := if ord.kind = 0 then t.unackedOrd else upd t.unackedOrd d 0 (· + 1) }
/-- Accesses that act at the home in one step keep behind the task's unacknowledged stores to that die (R126, R349). -/
def behindStores (t : Task) (home here : DieId) : Bool := decide (home ≠ here) && decide (lkpD t.unacked home 0 ≠ 0)
/-- Its answer is there; a reduction whose strand waits for its acceptance has it (R117). -/
def noteAcked (d : DieId) (ord : Ordr) (tag : BitVec 32) (t : Task) : Task :=
  { t with unacked := upd t.unacked d 0 (· - 1)
           unackedOrd := if ord.kind = 0 then t.unackedOrd else upd t.unackedOrd d 0 (· - 1)
           remote := if t.remote = .posted tag then .accepted else t.remote }
/-- The next store sequence or entry tag: 2^32 − 1 is followed by 1 (R127, R276). -/
def nextTag (t : BitVec 32) : BitVec 32 := if t = 0xFFFFFFFF then 1 else t + 1

/-- The key of packets from one die of a partition to another (R372). No form and no summary reads it. -/
def linkKey (p : Part) (src dst : DieId) : BitVec 256 :=
  let label : BitVec 64 := 0x4B52562D4C494E4B -- "KRV-LINK"
  Config.hkdf p.secret (label ++ src ++ dst ++ p.epoch)

end Sys2Proof.Machine
end

