-- ==== Sys2Proof/Machine/Operands.lean ====
section
/-! DEFINITION. Operand forms: immediates and addresses of the scalar and memory forms, vector operands with tile slices,
predicates and latency windows, and the flows of a load, a store and a release that the memory forms share
(R159 to R163, R206, R207, R210, R228, R229, R118). -/

namespace Sys2Proof.Machine

/-! ### Scalar operands and targets (R159, R181) -/

/-- The branch target of BC, LOOPB, LOOPE and BQP: PC + 8·SignExtend(off, 64). -/
def relTarget (h : Here) (off : BitVec 32) : W64 := pcOf h + 8 * off.signExtend 64
/-- Control transfer (R155, R187): a target that is not a multiple of 8 takes ALIGN and the instruction has no effect. -/
def jumpTo (h : Here) (tgt : W64) (eff : State → State) (s : State) : State :=
  if tgt.toNat % 8 ≠ 0 then takeFault s h 9 tgt else retireTo h tgt (eff s)

/-! ### Memory operands (R160, R206) -/

/-- The exact object byte of a format M access. -/
def mAddr (s : State) (h : Here) (f : FmtM) : Int :=
  capBase (rdC h.t f.sa) + capOff (rdC h.t f.sa) + (rdG s h f.sb).toInt + f.disp.toInt
def faultOf (s : State) (h : Here) (f : FInfo) : State := takeFault s h f.cls f.d0 f.d1 f.d2 f.oid

/-- The unit whose fence refuses an access with reason HWERROR, by code and physical index (R328, R333). -/
def fencedUnit (s : State) (src : DieId) (r : Res) : Nat × Nat :=
  let b := slabAt s r.home
  if b.fencedSlices.contains (l2Slice r.pa) then (2, 80 * r.home.slab + l2Slice r.pa)
  else if b.fencedChans.contains (channelOf r.pa) then (3, physChannel r.home (channelOf r.pa))
  else (pathFault s src r.home.die).getD (5, physRouter r.home.die)
/-- A home's refusal of a load or returning atomic, precise at the instruction (R35, R115, R219, R333). -/
def refusedFault (s : State) (h : Here) (reason : Nat) (owner : W64) (r : Res) : State :=
  if reason = 0 then takeFault s h 13 (BitVec.ofNat 64 r.loc.byte) owner 0 r.loc.oid
  else if reason = 3 then
    let u := fencedUnit s h.core.die r
    takeFault s h 21 (BitVec.ofNat 64 u.1) (BitVec.ofNat 64 u.2) 0 r.loc.oid
  else takeFault s h 14 0 1 (BitVec.ofNat 64 reason) r.loc.oid

/-- A side-log entry overlaps the bytes (R93). -/
def opLen (o : WOp) : Nat := match o with | .bytes b => b.length | .release b => b.length | .cap _ => 32 | .reduce _ w _ => w / 8
def sideOverlap (t : Task) (l : Where) (n : Nat) : Bool :=
  t.side.any fun e => e.loc.oid == l.oid && e.loc.facet == l.facet &&
    decide (e.loc.byte < l.byte + n) && decide (l.byte < e.loc.byte + opLen e.op)

/-- The L1 line holds n bytes at an offset: in valid words, or as bytes of a store to another die (R210). -/
def l1Holds (l : L1Line) (off n : Nat) : Bool :=
  (List.range n).all fun i => l.valid.getLsbD ((off + i) / 4) || l.bytes.getLsbD (off + i)
/-- The L1 line serves a read: bytes that it holds; for an acquire only the task's own (R210, R211). -/
def l1Serves (t : W64) (l : L1Line) (off n : Nat) (ordered : Bool) : Bool :=
  l1Holds l off n && (!ordered ||
    (match l.own.find? (·.task == t) with | some o => (wordsTouched off n &&& ~~~ o.mask) == 0 | none => false))

/-- A line from its home under what the L1 holds of it, for an acquire the task's own dirty words alone (R79, R84). -/
def overL1 (s : State) (c : ClusterId) (key : LineKey) (t : W64) (ordered : Bool) (p : Line × BitVec 8) : Line × BitVec 8 :=
  match l1Find (clusterAt s c) key with
  | none => p
  | some l =>
    let x := if ordered then
      invalWords l (~~~ ((l.own.filter (fun (o : Own) => o.task == t)).foldl (fun a (o : Own) => a ||| o.dirty) 0)) else l
    (overData p.1 x, (p.2 &&& ~~~ someGranules (heldWords x)) ||| (l.tags &&& wholeGranules x.valid))

/-- An ordered access waits for the task's earlier ordered writes that are on their way, but for those to the die that holds
its own word, which travel ahead of it (R110, R126; log 74). -/
def ordWait (t : Task) (die : Option DieId) : Bool :=
  t.side.any (fun e => e.ord.kind != 0) || t.unackedOrd.any fun x => x.2 != 0 && some x.1 != die
/-- The strand no longer waits for an answer. -/
def clearRemote (h : Here) (s : State) : State := modTask s h.core fun t => { t with remote := .idle }
/-- Ask a home on another die, and hold; the instruction runs again when the answer is there (R115, R126). -/
def askRemote (s : State) (h : Here) (r : Res) (b : Body) : State :=
  let tag : BitVec 32 := BitVec.ofNat 32 s.serial
  let s1 := sendPkt { s with serial := s.serial + 1 } h.core.die r.home.die tag b
  hold h .remote (modTask s1 h.core fun t => { t with remote := .sent r tag true })

/-- After the checks, the flow of a load of n bytes at `r` (R114, R115, R210): `k` receives the state, the line and its
tags. A home on another die is asked by a READ. -/
def readLine (s : State) (h : Here) (r : Res) (n : Nat) (ordered : Bool) (k : State → Line → BitVec 8 → State) : State :=
  let w := whoOf h
  let c := CoreId.cluster h.core
  if sideOverlap h.t r.loc n then hold h .sidelogLoad s
  else if ordered && ordWait h.t (some r.home.die) then hold h .release s
  else
    let hit := match l1Find (clusterAt s c) r.key with
      | some l => if l1Serves h.t.taskId l (r.loc.byte % 256) n ordered then some l else none
      | none => none
    match hit with
    | some l => k (modCluster s c fun kk => l1Put kk r.key l) l.data l.tags
    | none =>
      if r.home.die = h.core.die then
        match homeLoad s w r n ordered with
        | .ok s1 p =>
          let (d, tg) := overL1 s c r.key h.t.taskId ordered p
          k (if ordered then s1 else l1Fill s1 c r d tg) d tg
        | .conflict o => refusedFault s h 0 o r
        | .refused why => refusedFault s h why 0 r
      else askRemote s h r (.read h.t.pid h.core h.t.taskId r n false ordered)

/-- The flow of a load through a capability (R74, R92, R210): an access that was sent goes on under its translation (R77). -/
def loadThen (s : State) (h : Here) (chk : State × Chk) (n : Nat) (ordered : Bool)
    (k : State → Res → Line → BitVec 8 → State) : State :=
  match h.t.remote with
  | .sent .. => hold h .remote s
  | .line r fill d0 tg0 _ _ =>
    let c := CoreId.cluster h.core
    let (d, tg) := overL1 s c r.key h.t.taskId ordered (d0, tg0)
    let s1 := clearRemote h s
    k (if ordered || !fill then s1 else l1Fill s1 c r d tg) r d tg
  | .refused r why o => refusedFault (clearRemote h s) h why o r
  | _ =>
    match chk.2 with
    | .fault f => faultOf chk.1 h f
    | .moving => hold h .moving chk.1
    | .unmapped r => hold h .extent (postExtent chk.1 (whoOf h) r)
    | .ok r => readLine chk.1 h r n ordered (fun s1 d tg => k s1 r d tg)

/-- A store or reduction enters the side log, or holds while it is full (R92, R93). -/
def toSideLog (s : State) (h : Here) (l : Where) (op : WOp) (ord : Ordr) (k : State → State) : State :=
  if 64 ≤ h.t.side.length then hold h .sideLog s
  else k (modTask s h.core fun t => { t with side := t.side ++ [{ loc := l, op := op, tag := t.stag, ord := ord }], stag := nextTag t.stag })

/-- A refused store or reduction, reported at the task's next release (R127): a fault-log entry and a pending refusal. -/
def noteRefusal (s : State) (pid : BitVec 32) (d : DieId) (src : CoreId) (task : W64) (oid tag : BitVec 32) (reason : Nat)
    (fromSide : Bool) : State :=
  let s1 := writeLog s pid d (logEntry s d tag oid task 1 reason 0 src 0)
  modTaskId s1 pid task fun t => { t with refusals := t.refusals ++ [(tag, reason + (if fromSide then 16 else 0), oid)] }
/-- A store or reduction of the executing task that a home on its own die refuses. -/
def refusedHere (s : State) (h : Here) (r : Res) (why : Nat) : State :=
  modTask (noteRefusal s h.t.pid h.core.die h.core h.t.taskId r.loc.oid h.t.stag why false) h.core fun t =>
    { t with stag := nextTag t.stag }

/-- Own words of an L1 line, dirty ones among them; a word has one dirty owner (R83, R113). -/
def ownWords (t : W64) (mask dirty : BitVec 64) (l : L1Line) : L1Line :=
  let rest := (l.own.filter (·.task != t)).map fun (o : Own) => { o with dirty := o.dirty &&& ~~~ mask }
  match l.own.find? (·.task == t) with
  | some o => { l with own := { o with mask := o.mask ||| mask, dirty := o.dirty ||| dirty } :: rest }
  | none => { l with own := { task := t, mask := mask, dirty := dirty } :: rest }

/-- A store whose home is on the issuing die (R83, R115, R210): registration at the home of the words not yet owned, bytes in
the L1 or, with no CACHE bank, beside the record. A line that a leaving bank still holds takes the bytes too (R80). -/
def storeLocal (s : State) (h : Here) (r : Res) (op : WOp) (k : State → State) : State :=
  let w := whoOf h
  let c := CoreId.cluster h.core
  let off := r.loc.byte % 256
  match homeRefuses s r.home r.pa with
  | some why => k (refusedHere s h r why)
  | none =>
    if (cacheBanks (clusterAt s c)).isEmpty && (l1Find (clusterAt s c) r.key).isNone then
      match homeStore s w r op {} with
      | .ok s1 _ => k s1
      | .conflict o => refusedFault s h 0 o r
      | .refused why => refusedFault s h why 0 r
    else
      let l := homeLine s r
      let (_, _, mask) := writeOp 0 0 off op
      let new := mask &&& ~~~ myMask w l
      if conflicts w l new false then refusedFault s h 0 (ownerOf w l new) r
      else
        let s1 := noteStore (putLine (bring s r) r.key (register w l mask false)) w r new
        let s2 := l1Fill s1 c r (viewFor w l) (tagsFor w l)
        k (modCluster s2 c fun kk =>
          match l1Find kk r.key with
          | some x =>
            let (d, tg, _) := writeOp x.data x.tags off op
            l1Put kk r.key (ownWords h.t.taskId mask mask { x with data := d, tags := tg })
          | none => kk)

/-- The cluster's L1 takes the bytes of a store that is on its way to another die: its words are the task's own copy until its
release, of a word that is not valid the stored bytes alone (R83, R208, R210); a reduction leaves none. -/
def l1Posted (s : State) (h : Here) (r : Res) (op : WOp) : State :=
  let c := CoreId.cluster h.core
  match op with
  | .reduce .. => mapL1 s c fun key x =>
      if key = r.key then invalWords x (writeOp 0 0 (r.loc.byte % 256) op).2.2 else x
  | _ =>
    let put := fun (x : L1Line) =>
      let (d, tg, mask) := writeOp x.data x.tags (r.loc.byte % 256) op
      let full := if opLen op % 4 = 0 then mask else 0
      let part := if full = 0 then byteMask (r.loc.byte % 256) (opLen op) &&& ~~~ wordBytes x.valid else 0
      let y : L1Line := { x with data := d, tags := tg, valid := x.valid ||| full, bytes := (x.bytes ||| part) &&& ~~~ wordBytes full }
      (match op with | .release _ => y | _ => ownWords h.t.taskId mask 0 y)
    match l1Find (clusterAt s c) r.key with
    | some x => modCluster s c fun kk => l1Put kk r.key (put x)
    | none =>
      match l1Room s c r.key with
      | none => s
      | some (s1, b) => modCluster s1 c fun kk => l1Put kk r.key (put { home := r.home, bank := b })
/-- A store whose home is on another die retires at once with its tag (R126, R127); no read on its way fills the line over it
(R116). -/
def storeRemote (s : State) (h : Here) (r : Res) (op : WOp) (ord : Ordr) (k : State → State) : State :=
  let c := CoreId.cluster h.core
  let s1 := noFill (sendPkt s h.core.die r.home.die h.t.stag (.write h.t.pid h.core h.t.taskId r op ord)) c fun q => q.key == r.key
  let s2 := modTask s1 h.core fun t => noteSent r.home.die ord { t with stag := nextTag t.stag }
  k (l1Posted s2 h r op)

/-- The flow of a store (R92, R93, R210). -/
def storeThen (s : State) (h : Here) (chk : State × Chk) (op : WOp) (k : State → State) : State :=
  match chk.2 with
  | .fault f => faultOf chk.1 h f
  | .moving => hold h .moving chk.1
  | .unmapped r => toSideLog (postExtent chk.1 (whoOf h) r) h r.loc op {} k
  | .ok r =>
    if !h.t.side.isEmpty then toSideLog chk.1 h r.loc op {} k
    else if r.home.die = h.core.die then storeLocal chk.1 h r op k
    else storeRemote chk.1 h r op {} k

/-! ### Release and acquire (R117, R118, R127) -/

inductive RelAns
  | done (s : State)
  | wait (s : State)
  | fault (s : State) (f : FInfo)

/-- The oldest of the refused tags: the one furthest behind the next tag, which wraps (R127). -/
def oldestRefusal (next : BitVec 32) (x : BitVec 32 × Nat × BitVec 32) (l : List (BitVec 32 × Nat × BitVec 32)) :
    BitVec 32 × Nat × BitVec 32 :=
  l.foldl (fun a b => if (next - a.1).toNat < (next - b.1).toNat then b else a) x
/-- The release steps of R118 at a scope for the executing task; `exempt` is the die of the release's own word. A write-back of
step 3 that meets another party's open record or mark takes CONFLICT before anything is published (R114; log 76). At CLUSTER
scope the marks wait until the task's stores to other dies have registered there (log 76). -/
def releaseSteps (s : State) (h : Here) (scope : Nat) (exempt : Option DieId) : RelAns :=
  let t := h.t
  if !t.side.isEmpty then .wait s
  else match t.discarded with
    | d :: ds =>
      let e := ds.foldl (fun a b => if (t.stag - a.tag).toNat < (t.stag - b.tag).toNat then b else a) d
      .fault (modTask s h.core fun t => { t with discarded := [] })
        { cls := 8, d0 := BitVec.ofNat 64 e.loc.byte, d1 := BitVec.ofNat 64 (e.loc.byte / 2 ^ 21), d2 := e.loc.facet.zeroExtend 64,
          oid := e.loc.oid }
    | [] =>
      match (if 2 ≤ scope then releaseClash s (whoOf h) (covers scope (whoOf h)) else none) with
      | some (k, i, o) => .fault s { cls := 13, d0 := BitVec.ofNat 64 (256 * k.line + 4 * i), d1 := o, oid := k.oid }
      | none =>
        let s1 := publishAll s (whoOf h) scope
        if (3 ≤ scope && t.unacked.any fun x => x.2 != 0 && some x.1 != exempt) ||
            (scope = 1 && t.unacked.any fun x => x.2 != 0) then .wait s1
        else
          let due := if 3 ≤ scope then t.refusals else t.refusals.filter fun r => decide (16 ≤ r.2.1)
          match due with
          | [] => .done s1
          | x :: rest =>
            let r := oldestRefusal t.stag x rest
            .fault (modTask s1 h.core fun t => { t with refusals := t.refusals.filter fun x => !due.contains x })
              { cls := 14, d0 := r.1.zeroExtend 64, d1 := BitVec.ofNat 64 due.length, d2 := BitVec.ofNat 64 (r.2.1 % 16), oid := r.2.2 }

/-- A release, then `k`; it waits for the task's earlier ordered writes (R110). -/
def releaseThen (s : State) (h : Here) (scope : Nat) (exempt : Option DieId) (k : State → State) : State :=
  match releaseSteps s h scope exempt with
  | .done s1 => if ordWait h.t exempt then hold h .release s1 else k s1
  | .wait s1 => hold h .release s1
  | .fault s1 f => faultOf s1 h f

/-- The steps of R117 after the acquire's own read. -/
def acquire (s : State) (h : Here) (scope : Nat) : State := acquireInval s (whoOf h) scope

/-! ### Vector operands (R161, R162, R166, R228, R229) -/

/-- The slice selector of aux (R162): column, index. -/
def sliceSel (s : State) (h : Here) (aux : BitVec 12) : Bool × Nat :=
  (aux.getLsbD 11, ((rdG s h (aux.extractLsb' 5 6)).toNat % 32 + bitsN aux 0 5) % 32)
def tRow (t : Task) (n r : Nat) : VReg := lkpD t.t (n, r) 0
def tSlice (t : Task) (n : Nat) (col : Bool) (i : Nat) : VReg :=
  if col then ofLanes 1024 32 ((List.range 32).map fun r => lane 32 (tRow t n r) i) else tRow t n i
def setTRow (n r : Nat) (v : VReg) (t : Task) : Task := { t with t := ins t.t (n, r) v }
def setTSlice (n : Nat) (col : Bool) (i : Nat) (v : VReg) (t : Task) : Task :=
  if col then (List.range 32).foldl (fun acc r => setTRow n r (setLane 32 (tRow acc n r) i (lane 32 v r)) acc) t
  else setTRow n i v t
def freeV (s : State) (salt : Nat) : VReg :=
  ofLanes 1024 64 ((List.range 16).map fun i => (Config.freeBits s.free (64 * salt + i)).toNat)
/-- An open window covers this destination at an issue in cycle `ck` (R166). -/
def inWindow (ck : Nat) (t : Task) (p : WinDst → Bool) : Bool := t.windows.any fun w => p w.dst && winOpen ck t w
/-- A slice's bits under its open windows: only the bits that a window covers are undefined (R162). -/
def sliceRead (s : State) (t : Task) (n : Nat) (col : Bool) (i salt : Nat) : VReg :=
  let base := tSlice t n col i
  let fr := freeV s salt
  ofLanes 1024 32 ((List.range 32).map fun k =>
    let hit := inWindow s.ck t fun d => match d with
      | .t m => m == n
      | .slice m c j => m == n && (if c == col then j == i else j == k)
      | _ => false
    if hit then lane 32 fr k else lane 32 base k)

/-- A vector register as an instruction reads it: undefined inside a window (R166). -/
def readV (s : State) (h : Here) (n salt : Nat) : VReg :=
  if inWindow s.ck h.t (· == .v n) then freeV s salt else lkpD h.t.v n 0
/-- A v-or-slice operand (R162, R230). -/
def readVS (s : State) (h : Here) (fld : BitVec 6) (aux : BitVec 12) (salt : Nat) : VReg :=
  if fld.toNat < 32 then readV s h fld.toNat salt
  else
    let (c, i) := sliceSel s h aux
    sliceRead s h.t (fld.toNat - 32) c i salt
/-- The prior contents of a destination: the landed value, which masked lanes keep (R166, R229). -/
def priorVS (s : State) (h : Here) (fld : BitVec 6) (aux : BitVec 12) : VReg :=
  if fld.toNat < 32 then lkpD h.t.v fld.toNat 0
  else
    let (c, i) := sliceSel s h aux
    tSlice h.t (fld.toNat - 32) c i
/-- A predicate register; p0 reads all ones (R156); undefined inside a window. -/
def readP (s : State) (h : Here) (n : Nat) : BitVec 32 :=
  if n = 0 then BitVec.allOnes 32
  else if inWindow s.ck h.t (· == .p n) then (Config.freeBits s.free (1000 + n)).truncate 32
  else lkpD h.t.p n 0

/-- Lane i of width w is active: all its governing predicate bits are 1 (R228, R229). -/
def active (p : BitVec 32) (w i : Nat) : Bool :=
  if w = 64 then p.getLsbD (2 * i) && p.getLsbD (2 * i + 1) else p.getLsbD (w * i / 32)

/-- Open the window of a destination written at cycle `ck` (R166). -/
def openWin (ck : Nat) (d : WinDst) (lat : Nat) (t : Task) : Task :=
  if lat = 0 then t else { t with windows := t.windows ++ [{ dst := d, closes := t.xissue + lat, issued := t.xissue, since := ck }] }
/-- Write v(n) and open its window (R166). -/
def putV (h : Here) (n : Nat) (v : VReg) (lat : Nat) (s : State) : State :=
  modTask s h.core fun t => openWin s.ck (.v n) lat { t with v := ins t.v n v }
/-- Write a v-or-slice destination and open its window (R162, R166). -/
def putVS (h : Here) (fld : BitVec 6) (aux : BitVec 12) (v : VReg) (lat : Nat) (s : State) : State :=
  if fld.toNat < 32 then putV h fld.toNat v lat s
  else
    let (c, i) := sliceSel s h aux
    modTask s h.core fun t => openWin s.ck (.slice (fld.toNat - 32) c i) lat (setTSlice (fld.toNat - 32) c i v t)
/-- Write a predicate register; writes to p0 are discarded (R156). -/
def putP (h : Here) (n : Nat) (v : BitVec 32) (lat : Nat) (s : State) : State :=
  if n = 0 then s else modTask s h.core fun t => openWin s.ck (.p n) lat { t with p := ins t.p n v }
/-- Write t(n) whole, rows first, and open its window. -/
def putT (h : Here) (n : Nat) (rows : List VReg) (lat : Nat) (s : State) : State :=
  modTask s h.core fun t => openWin s.ck (.t n) lat (rows.zipIdx.foldl (fun acc rv => setTRow n rv.2 rv.1 acc) t)

/-- Lane-wise merge: active lanes from `f`, the others from the prior contents (R229). -/
def mergeLanes (p : BitVec 32) (w : Nat) (prior : VReg) (f : Nat → Nat) : VReg :=
  ofLanes 1024 w ((List.range (1024 / w)).map fun i => if active p w i then f i else lane w prior i)

end Sys2Proof.Machine
end

