-- ==== Sys2Proof/Machine/Tasks.lean ====
section
/-! DEFINITION. Bank modes (R79, R80), scratch bytes, engine queues, and the end of tasks and crews
(R143, R147, R152, R272, R327). -/

namespace Sys2Proof.Machine

/-! ### Banks and scratch (R79, R80, R81) -/

def modBank (s : State) (c : ClusterId) (b : Nat) (f : Bank → Bank) : State :=
  modCluster s c fun k => { k with bank := ins k.bank b (f (bankAt k b)) }
/-- A scratch byte: written, zero in a zero-filled bank, undefined in a bank that entered SCRATCH (R80). -/
def scrByte (k : Cluster) (a : Nat) : Byte :=
  match lkp k.scr a with
  | some v => v
  | none => if (bankAt k (a / 2 ^ 18)).epoch = 0 then 0 else Config.scratchByte (bankAt k (a / 2 ^ 18)).epoch a
def scrRead (k : Cluster) (a n : Nat) : List Byte := (List.range n).map fun i => scrByte k (a + i)
def markDirty (k : Cluster) (a : Nat) : Cluster :=
  let b := a / 2 ^ 18
  { k with bank := ins k.bank b { bankAt k b with dirty := insNat (bankAt k b).dirty (a % 2 ^ 18 / 256) } }
/-- Write scratch bytes and set their frames' dirty bits (R81). -/
def scrWrite (k : Cluster) (a : Nat) (d : List Byte) : Cluster :=
  match d with
  | [] => k
  | x :: r => scrWrite (markDirty { k with scr := ins k.scr a x } a) (a + 1) r
/-- The banks that n bytes at a touch. -/
def banksOf (a n : Nat) : List Nat :=
  if n = 0 then [] else (List.range 48).filter fun b => decide (b * 2 ^ 18 < a + n ∧ a < (b + 1) * 2 ^ 18)

/-- Begin a mode change (R80 step 1): TRANSIT; a bank already in the mode signals at once (R322). -/
def startMode (s : State) (c : ClusterId) (b : Nat) (m : Mode) (sem : Option Nat) : State :=
  let k := bankAt (clusterAt s c) b
  if k.mode = m ∧ k.transit = none then
    match sem with | some n => addSem s c n 1 | none => s
  else modBank s c b fun k => { k with transit := some { target := m, sem := sem, since := s.ck } }

/-- Scratch ranges that a matrix entry reads (R262, R271). -/
def mxOperandBytes (fmt : BitVec 4) (k : Nat) : Nat := if fmt = 6 then 160 * k else if fmt = 4 ∨ fmt = 5 then 256 * k else 512 * k
def mxRanges (e : MxEntry) : List (Nat × Nat) :=
  match e with
  | .mul f _ a b _ => [(a.toNat, mxOperandBytes f.fa f.imm.toNat), (b.toNat, mxOperandBytes f.fb f.imm.toNat)]
  | _ => []
def mxTouches (s : State) (c : ClusterId) (b : Nat) : Bool :=
  (List.range 4).any fun i => (coreAt s (coreOf c i)).mxq.any fun e => (mxRanges e).any fun r => (banksOf r.1 r.2).contains b

/-- The bank is in TRANSIT. One that leaves SCRATCH stays out of it while matrix entries still have to read it (R80, R271). -/
def inTransit (s : State) (c : ClusterId) (b : Nat) : Bool :=
  let k := bankAt (clusterAt s c) b
  k.transit.isSome && !(k.mode == .scratch && mxTouches s c b)
/-- The later steps of R80; the bank stays in TRANSIT while a condition is missing. -/
def finishMode (s : State) (c : ClusterId) (b : Nat) : State :=
  let k := bankAt (clusterAt s c) b
  match k.transit with
  | none => s
  | some t =>
    if k.mode = .fifo ∧ ¬ k.fifo.isEmpty then s
    else if k.mode = .scratch ∧ mxTouches s c b then s
    else
      let s1 := if k.mode = .cache then
        let mine := (clusterAt s c).l1.filter fun x => x.2.bank == b
        modCluster (mine.foldl (fun acc x => spill acc x.1 x.2) s) c fun kk => { kk with l1 := kk.l1.filter fun x => x.2.bank != b }
        else s
      let s2 := modCluster { s1 with serial := s1.serial + 1 } c fun kk =>
        { kk with
          scr := kk.scr.filter fun x => x.1 / 2 ^ 18 != b
          bank := ins kk.bank b { mode := t.target, transit := none, epoch := s1.serial + 1, fifo := [], dirty := [] } }
      match t.sem with | some n => addSem s2 c n 1 | none => s2

/-! ### Engine queues (R273) -/

def isSlabQ (q : EngQ) : Bool := match q with | .he | .le | .rs | .su => true | _ => false
def queueAt (s : State) (q : QueueId) : List Entry :=
  if isSlabQ q.q then lkpD (slabAt s ⟨q.die, q.unit⟩).queues q.q [] else lkpD (clusterAt s ⟨q.die, q.unit⟩).queues q.q []
def setQueue (s : State) (q : QueueId) (l : List Entry) : State :=
  if isSlabQ q.q then modSlab s ⟨q.die, q.unit⟩ fun b => { b with queues := ins b.queues q.q l }
  else modCluster s ⟨q.die, q.unit⟩ fun k => { k with queues := ins k.queues q.q l }
/-- Every queue of a cluster and of its slab. -/
def queuesOf (c : ClusterId) : List QueueId :=
  [⟨c.die, c.clus, .ce0⟩, ⟨c.die, c.clus, .ce1⟩, ⟨c.die, c.clus, .ge⟩, ⟨c.die, c.clus, .ae⟩] ++
  ([0, 1].flatMap fun sl => [⟨c.die, sl, .he⟩, ⟨c.die, sl, .le⟩, ⟨c.die, sl, .rs⟩, ⟨c.die, sl, .su⟩])
/-- Every entry issued by a task that is queued, armed, fired or running on its die. -/
def entriesOn (s : State) (c : ClusterId) : List Entry :=
  (queuesOf c).flatMap (queueAt s) ++ ([0, 1].flatMap fun sl => (slabAt s ⟨c.die, sl⟩).armed ++ (slabAt s ⟨c.die, sl⟩).fired)
def issuedBy (pid : BitVec 32) (tids : List W64) (e : Entry) : Bool := e.pid == pid && tids.contains e.taskId

/-- Overwritten bytes that a reader may still see, the cycle from which it no longer does, and whose write overwrote them. -/
structure ScrLayer where
  old : List (Nat × Byte)
  ends : Option Nat
  src : ScrSrc
  deriving DecidableEq, Repr
/-- The write has landed for a reader: an XS write for other parties once its core has pushed since, an entry's own write for it, and
any entry's once it no longer runs (R123). -/
def landedFor (s : State) (c : ClusterId) (self : Option CoreId) (entry : Nat) (x : ScrSrc) : Bool :=
  match x with
  | .core b i => self != some b && (match (coreAt s b).task with | some t => decide (i < t.pushed) | none => true)
  | .entry n => n == entry || !((entriesOn s c).any fun e => e.serial == n && e.st == .running)
/-- The overwritten bytes that a reader of scratch may still see, the latest write of a party first: those of an XS write inside its
window, for another party those of no later push, and those of a running engine entry of the cluster other than the reader
(R123, R166, R251; log 8). -/
def scrLayers (s : State) (c : ClusterId) (self : Option CoreId) (entry : Nat) : List ScrLayer :=
  let wins := (List.range 4).flatMap fun k =>
    match (coreAt s (coreOf c k)).task with
    | some t =>
      (closeWins (winOpen s.ck t) t.windows).reverse.filterMap fun w =>
        match w.dst with
        | .scr old =>
          let mine : ScrSrc := .core (coreOf c k) w.issued
          if landedFor s c self entry mine || (w.src.any (landedFor s c self entry)) then none
          else some { old := old, ends := some (w.since + (w.closes - w.issued)), src := w.src.getD mine }
        | _ => none
    | none => []
  wins ++ (entriesOn s c).filterMap fun e =>
    if e.st == .running && e.serial != entry && CoreId.cluster e.core == c then some { old := e.old, ends := none, src := .entry e.serial } else none
def scrOlds (s : State) (c : ClusterId) (self : Option CoreId) (entry : Nat) : List (List (Nat × Byte)) := (scrLayers s c self entry).map (·.old)
/-- A byte as a reader may see it: its present value, or while the picks for its 4-byte word say so the one before the latest
write, before the one before that, and so on. -/
def oldByte (free : Nat) (a : Nat) (now : Byte) : Nat → List (List (Nat × Byte)) → Byte
  | _, [] => now
  | k, l :: r =>
    match lkp l a with
    | none => oldByte free a now (k + 1) r
    | some b => if Config.freePick free (a / 4 + k * 2 ^ 22) then oldByte free a b (k + 1) r else now
/-- Scratch bytes as a reader sees them: the old or the new value of each 4-byte word that an unordered write covers. -/
def scrSeen (s : State) (c : ClusterId) (self : Option CoreId) (entry : Nat) (a n : Nat) : List Byte :=
  let k := clusterAt s c
  let olds := scrOlds s c self entry
  if olds.isEmpty then scrRead k a n
  else (List.range n).map fun i => oldByte s.free (a + i) (scrByte k (a + i)) 0 olds

/-- Overwritten bytes outside some addresses. -/
def oldsOutside (l : List Nat) (o : List (Nat × Byte)) : List (Nat × Byte) := o.filter fun x => !l.contains x.1
/-- XS writes have landed under a later write at these addresses. -/
def landWins (s : State) (c : ClusterId) (skip : Option CoreId) (l : List Nat) : State :=
  let win := fun (w : Window) => match w.dst with | .scr o => { w with dst := .scr (oldsOutside l o) } | _ => w
  (List.range 4).foldl (fun acc k =>
    if skip = some (coreOf c k) then acc else modTask acc (coreOf c k) fun t => { t with windows := t.windows.map win }) s

/-- A crew whose declared semaphore a signal from another die, a face or a launch reaches may only drain (R330). -/
def hearSem (s : State) (c : ClusterId) (n : Nat) : State :=
  let f := fun (cr : CrewRes) =>
    if cr.info.semlo ≤ n ∧ n < cr.info.semlo + cr.info.semn then { cr with heard := true } else cr
  modCluster s c fun k => { k with crews := k.crews.map f }

/-! ### Matrix lease (R148, R261) -/

/-- The lease ends and passes to the next requester by a later grant. -/
def endLease (s : State) (c : ClusterId) (k : Nat) : State :=
  modCluster s c fun cl =>
    if cl.lease.holder = some k then { cl with lease := { cl.lease with holder := none, last := k, cmds := 0 } } else cl
def dropLease (s : State) (c : CoreId) : State :=
  let cl := CoreId.cluster c
  modCluster (endLease s cl (cix c)) cl fun k => { k with lease := { k.lease with reqs := k.lease.reqs.filter (· != cix c) } }

/-! ### The end of tasks and crews -/

def crewBanks (i : CrewInfo) : List Nat := (List.range 48).filter fun b => i.scrm.getLsbD b || i.fifom.getLsbD b
/-- A crew whose tasks have ended and whose entries have completed leaves: its banks return to CACHE and its slot is free
(R143, R331). -/
def reapCrews (s : State) (c : ClusterId) : State :=
  let es := entriesOn s c
  let done := fun (cr : CrewRes) => cr.cores.isEmpty && cr.unstarted.isEmpty && !es.any (issuedBy cr.pid cr.tids)
  let gone := (clusterAt s c).crews.filter done
  let ended := fun (im : Image) => gone.any fun cr => im.pid == cr.pid && im.info.lseq == cr.info.lseq && im.info.index == cr.info.index
  let s0 := modCluster s c fun k => { k with crews := k.crews.filter fun cr => !done cr }
  let s1 := if s0.slabs.any fun sb => sb.2.images.any ended then
      { s0 with slabs := s0.slabs.map fun sb => (sb.1, { sb.2 with images := sb.2.images.filter fun im => !ended im }) } else s0
  gone.foldl (fun acc cr => (crewBanks cr.info).foldl (fun a b => startMode a c b .cache none) acc) s1

def modLaunch (s : State) (pid lseq : BitVec 32) (f : Launch → Launch) : State :=
  modPart s pid fun p => match lkp p.launches lseq with
    | some l => { p with launches := ins p.launches lseq (f l) }
    | none => p
def modStratum (d : DieId) (f : Stratum → Stratum) (l : Launch) : Launch :=
  match lkp l.strata d with | some st => { l with strata := ins l.strata d (f st) } | none => l

/-- A task leaves its core: the core is free, its lease ends, the stratum has one task fewer (R147, R272). -/
def endTask (s : State) (c : CoreId) : State :=
  match (coreAt s c).task with
  | none => s
  | some t =>
    let cl := CoreId.cluster c
    let s1 := modCore (dropLease s c) c fun k => { k with task := none, mxq := [], wanted := false }
    let leave := fun (cr : CrewRes) =>
      if cr.tids.contains t.taskId ∧ cr.pid = t.pid then { cr with cores := cr.cores.filter (· != cix c) } else cr
    let s2 := modCluster s1 cl fun k => { k with crews := k.crews.map leave }
    reapCrews (modLaunch s2 t.pid t.crew.lseq (modStratum c.die fun st => { st with left := st.left - 1 })) cl

/-- A task's words leave an L1 line, its dirty ones discarded. -/
def dropOwner (tid : W64) (x : L1Line) : L1Line :=
  { invalWords x ((x.own.filter (·.task == tid)).foldl (fun a o => a ||| o.dirty) 0) with own := x.own.filter (·.task != tid) }
/-- R327: a task ends without a save: its records are removed and its dirty words discarded, its queued entries go. -/
def discardTask (s : State) (pid : BitVec 32) (tid : W64) : State :=
  let s1 := mapL2 s fun k l => if k.pid = pid then
    { l with recs := l.recs.filter (fun r => !(r.task == tid)), pend := l.pend.filter (·.task != tid) } else l
  { s1 with
    clusters := s1.clusters.map fun ck =>
      (ck.1, { ck.2 with
        queues := ck.2.queues.map fun q => (q.1, q.2.filter fun e => !(e.pid == pid && e.taskId == tid && e.st == .queued))
        l1 := ck.2.l1.map fun kl => if kl.1.pid = pid then (kl.1, dropOwner tid kl.2) else kl })
    slabs := s1.slabs.map fun sb =>
      (sb.1, { sb.2 with
        queues := sb.2.queues.map fun q => (q.1, q.2.filter fun e => !(e.pid == pid && e.taskId == tid && e.st == .queued))
        armed := sb.2.armed.filter fun e => !(e.pid == pid && e.taskId == tid) }) }
def killTask (s : State) (c : CoreId) : State :=
  match (coreAt s c).task with
  | none => s
  | some t => endTask (discardTask s t.pid t.taskId) c

/-! ### Queue waits and QDEADLOCK (R146, R147) -/

def qList (t : Task) (n : Nat) : List W64 := match n with | 0 => t.q0 | 1 => t.q1 | 2 => t.q2 | _ => t.q3
def setQList (n : Nat) (l : List W64) (t : Task) : Task :=
  match n with | 0 => { t with q0 := l } | 1 => { t with q1 := l } | 2 => { t with q2 := l } | _ => { t with q3 := l }

/-- The wait still stands: queue codes 0 to 3 for q0 to q3, 4 bq, 5 vq, 6 wq (R328). LDT needs two free entries of vq and STT
two items of wq (R212). -/
def qBlocked (t : Task) (x : Strand) (why : HoldWhy) : Bool :=
  match why with
  | .qpop 4 => t.bq.isEmpty
  | .qpop 5 => t.vq.isEmpty
  | .qpop 6 => decide (t.wq.length < 2)
  | .qpop n => (qList t n).isEmpty
  | .qpush 4 => decide (32 ≤ t.bq.length)
  | .qpush 5 => decide (14 < t.vq.length)
  | .qpush 6 => decide (16 ≤ t.wq.length)
  | .qpush n => decide (64 ≤ (qList t n).length)
  | _ => (strandOf t x).ended
def qCode (st : StrandSt) : Nat :=
  if st.ended then 7
  else match st.held with
    | some ⟨.qpop n, _⟩ => n
    | some ⟨.qpush n, _⟩ => 128 + n
    | _ => 7
/-- A strand is queue-blocked while it waits under R146 and once it has executed END (R147). -/
def queueBlocked (t : Task) (x : Strand) : Bool :=
  (strandOf t x).ended ||
  (match (strandOf t x).held with
   | some ⟨.qpop n, _⟩ => qBlocked t x (.qpop n)
   | some ⟨.qpush n, _⟩ => qBlocked t x (.qpush n)
   | _ => false)
/-- QDEADLOCK, raised against the AS when both strands are queue-blocked (R147, R328). -/
def checkDeadlock (h : Here) (s : State) : State :=
  match (coreAt s h.core).task with
  | none => s
  | some t =>
    if t.susp.isNone && queueBlocked t .as && queueBlocked t .xs && !(t.as.ended && t.xs.ended) then
      takeFault s { h with x := .as, t := t } 12 t.xs.pc (BitVec.ofNat 64 (qCode t.as + 256 * qCode t.xs))
    else s
/-- A queue wait (R146): the instruction has not executed. -/
def qWait (h : Here) (why : HoldWhy) (s : State) : State := checkDeadlock h (hold h why s)

end Sys2Proof.Machine
end

