-- ==== Sys2Proof/Machine/Mem.lean ====
section
/-! DEFINITION. Loads, stores, tile lines, prefetch and cache forms, object queries, versions (R206 to R216). -/

namespace Sys2Proof.Machine

/-- The check of a byte-addressed format M form. -/
def mCheck (s : State) (h : Here) (f : FmtM) (ask : Ask) : State × Chk :=
  checkAcc s (whoOf h) f.sa.toNat (rdC h.t f.sa) { ask with again := heldMoving h } (mAddr s h f)
/-- The check of a tile-line form (R207): Reg(sb) holds coordinates for a DIST object. -/
def tCheck (s : State) (h : Here) (f : FmtM) (ask : Ask) : State × Chk :=
  checkTile s (whoOf h) f.sa.toNat (rdC h.t f.sa) { ask with again := heldMoving h } (mAddr s h f) (coordsOf (rdG s h f.sb)) f.disp.toInt
def tyBytes (ty : BitVec 4) : Nat := fmtWidth ty / 8
/-- A loaded value extended by its type (R181, R210). -/
def loadVal (ty : BitVec 4) (r : Res) (d : Line) : W64 :=
  extend64 (tySigned ty) (fmtWidth ty) (lineGet d (r.loc.byte % 256) (tyBytes ty))

/-- LD (R210). -/
def execLd (f : FmtM) (s : State) : Out :=
  onStrand (.ld f) s fun h =>
    loadThen s h (mCheck s h f { rights := rLD, n := tyBytes f.ty, align := tyBytes f.ty }) (tyBytes f.ty) false
      fun s1 r d _ => retire h (wrG h f.dst (loadVal f.ty r d) s1)
/-- ST (R210). -/
def execSt (f : FmtM) (s : State) : Out :=
  onStrand (.st f) s fun h =>
    storeThen s h (mCheck s h f { rights := rST, n := tyBytes f.ty, align := tyBytes f.ty })
      (.bytes (bytesOf (tyBytes f.ty) (rdG s h f.dst).toNat)) (retire h)
/-- LDT (R212): both items enter vq together, with the format code. -/
def execLdt (f : FmtM) (s : State) : Out :=
  onStrand (.ldt f) s fun h =>
    if 14 < h.t.vq.length then qWait h (.qpush 5) s
    else
      loadThen s h (tCheck s h f { rights := rLD, n := 256, align := 256, fmt := some f.ty }) 256 false fun s1 _ d _ =>
        retire h (modTask s1 h.core fun t => { t with vq := t.vq ++ [(d.extractLsb' 0 1024, f.ty), (d.extractLsb' 1024 1024, f.ty)] })
/-- STT (R212): two items of wq make the line. -/
def execStt (f : FmtM) (s : State) : Out :=
  onStrand (.stt f) s fun h =>
    match h.t.wq with
    | x :: y :: rest =>
      storeThen s h (tCheck s h f { rights := rST, n := 256, align := 256, fmt := some f.ty })
        (.bytes (bytesOf 128 x.toNat ++ bytesOf 128 y.toNat))
        (fun s1 => retire h (modTask s1 h.core fun t => { t with wq := rest }))
    | _ => qWait h (.qpop 6) s

/-- PF .l1 (R213): no fault, no effect unless every check passes and the line can be brought in. Words that stores of the
cluster have on their way to the home are left out (R116, R210). -/
def execPfL1 (f : FmtM) (s : State) : Out :=
  onStrand (.pfL1 f) s fun h =>
    let c := CoreId.cluster h.core
    match tCheck s h f { rights := rLD, n := 256, align := 256 } with
    | (s1, .ok r) =>
      let x := l1Find (clusterAt s1 c) r.key
      let closed := match x with
        | some y => (bankAt (clusterAt s1 c) y.bank).transit.isSome
        | none => (cacheBanks (clusterAt s1 c)).isEmpty
      if closed || (refusesFrom s1 h.core.die r.home r.pa).isSome then retire h s
      else
        let s2 := touchExtent (bring s1 r) (whoOf h) r
        let l := homeLine s2 r
        let had : L1Line := x.getD { home := r.home }
        let gone := flying s2 c r.home.die r.key (fun _ => true) &&& ~~~ had.valid
        retire h (mapL1 (l1Fill s2 c r (viewFor (whoOf h) l) (tagsFor (whoOf h) l)) c fun k y =>
          if k = r.key then { y with valid := y.valid &&& ~~~ gone, bytes := had.bytes &&& wordBytes gone } else y)
    | _ => retire h s
/-- PF .l2 (R213). -/
def execPfL2 (f : FmtM) (s : State) : Out :=
  onStrand (.pfL2 f) s fun h =>
    match tCheck s h f { rights := rLD, n := 256, align := 256 } with
    | (s1, .ok r) =>
      if (refusesFrom s1 h.core.die r.home r.pa).isSome then retire h s
      else retire h (touchExtent (bring s1 r) (whoOf h) r)
    | _ => retire h s

/-- CBO .clean of a line (R213): the issuing task's dirty words go beside their records, then the published contents go to
memory; the line stays resident. -/
def cleanLine (s : State) (h : Here) (r : Res) : State :=
  let c := CoreId.cluster h.core
  let s1 := bring s r
  let s2 := match l1Find (clusterAt s1 c) r.key with
    | some x =>
      let own := x.own.filter (·.task == h.t.taskId)
      let undirty := fun (o : Own) => if o.task = h.t.taskId then { o with dirty := 0 } else o
      mapL1 (spill s1 r.key { x with own := own }) c fun k y => if k = r.key then { y with own := y.own.map undirty } else y
    | none => s1
  let (s3, l) := writeBack s2 r.key (homeLine s2 r)
  putLine s3 r.key l
/-- CBO .inval of a line: valid words that no resident task owns are dropped (R213). -/
def invalLine (s : State) (h : Here) (r : Res) : State :=
  let c := CoreId.cluster h.core
  let live := residents s c
  let keep := fun (x : L1Line) => x.own.foldl (fun a o => a ||| (if live.contains o.task then o.mask else o.dirty)) 0
  mapL1 s c fun k x => if k = r.key then invalWords x (~~~ keep x) else x
/-- A cache form reaches its line: a home that refuses leaves it without effect (R35, R333; log 77). -/
def cbo (s : State) (h : Here) (f : FmtM) (g : State → Res → State) : State :=
  match tCheck s h f { rights := rST, n := 256, align := 256 } with
  | (s1, .fault fi) => faultOf s1 h fi
  | (s1, .moving) => hold h .moving s1
  | (s1, .unmapped _) => retire h s1
  | (s1, .ok r) =>
    if behindStores h.t r.home.die h.core.die then hold h .remote s1
    else if (refusesFrom s1 h.core.die r.home r.pa).isSome then retire h s1 else retire h (touchExtent (g s1 r) (whoOf h) r)
def execCboClean (f : FmtM) (s : State) : Out := onStrand (.cboClean f) s fun h => cbo s h f fun s1 r => cleanLine s1 h r
def execCboInval (f : FmtM) (s : State) : Out := onStrand (.cboInval f) s fun h => cbo s h f fun s1 r => invalLine s1 h r
def execCboFlush (f : FmtM) (s : State) : Out :=
  onStrand (.cboFlush f) s fun h => cbo s h f fun s1 r => invalLine (cleanLine s1 h r) h r

/-! ### Object queries (R214) -/

/-- Checks 1 to 3 with any one right, then EXTENT for FREE or 3 (first among the object's checks: DESIGN CHOICE, log 78); `k`
receives the entry and the extent entry of byte `a` as they stand in memory, which RESHD, a pinning or a migration may have
changed since the caches were filled. -/
def otq (s : State) (h : Here) (f : FmtM) (k : CapReg → Int → TEntry → State) : State :=
  let c := rdC h.t f.sa
  let a := mAddr s h f
  let reg : W64 := f.sa.zeroExtend 64
  if !c.tag then takeFault s h 5 reg 0 0 (capOid c)
  else if capSealed c || (capOid c == 0 && !isSup h.t) then takeFault s h 4 0 reg 0 (capOid c)
  else if capRights c % 2 ^ 11 = 0 then takeFault s h 4 0 reg 0 (capOid c)
  else
    let w := whoOf h
    let ext := a.toNat / 2 ^ 21
    let facet := dieOfFacet w (walk s w.pid w.die ⟨capOid c, 0, ext⟩).word0
    let e := walk s w.pid w.die ⟨capOid c, facet, ext⟩
    if wState e.word0 = 0 ∨ wState e.word0 = 3 then
      takeFault s h 8 (BitVec.ofInt 64 a) (BitVec.ofNat 64 ext) (facet.zeroExtend 64) (capOid c)
    else k c a e
def otqWord (s : State) (h : Here) (oid : BitVec 32) (n : Nat) : W64 :=
  if oid = 0 then (if n = 0 then physWord0 else 0) else otWord s h.t.pid h.core.die oid.toNat n
/-- OTQ .attr: the zero field of word 0 reads 0 (R6, R67). -/
def execOtqAttr (f : FmtM) (s : State) : Out :=
  onStrand (.otqAttr f) s fun h => otq s h f fun c _ _ =>
    retire h (wrG h f.dst (wRead (otqWord s h (capOid c) 0)) s)
/-- OTQ .cnt reads the copy at die-list entry 0; an uncoded object returns 0 (R63, R65). -/
def execOtqCnt (f : FmtM) (s : State) : Out :=
  onStrand (.otqCnt f) s fun h => otq s h f fun c _ e =>
    let w := fun n => otWord s h.t.pid ((partDies s h.t.pid).headD 0) (capOid c).toNat n
    let coded := decide (wCoding e.word0 ≠ 0)
    retire h (wrG h (f.dst + 1) (if coded then w 7 &&& 0xFFFFFFFFFFFF else 0)
      (wrG h f.dst (if coded then cntWord0 (w 6) (w 7) else 0) s))
def execOtqDims (f : FmtM) (s : State) : Out :=
  onStrand (.otqDims f) s fun h => otq s h f fun c _ _ =>
    retire h (wrG h (f.dst + 1) (otqWord s h (capOid c) 2) (wrG h f.dst (otqWord s h (capOid c) 1) s))
def execOtqLayout (f : FmtM) (s : State) : Out :=
  onStrand (.otqLayout f) s fun h => otq s h f fun _ _ e =>
    retire h (wrG h f.dst (if wDist e.word0 then layoutRead e.layout else 0) s)
def execOtqPlanes (f : FmtM) (s : State) : Out :=
  onStrand (.otqPlanes f) s fun h => otq s h f fun c _ e =>
    let v : W64 := if wFmt e.word0 = 6 then
      (otqWord s h (capOid c) 7).truncate 32 ++ (otqWord s h (capOid c) 6).truncate 32 else 0
    retire h (wrG h f.dst v s)
/-- OTQ .ext: bounds of one byte (R214 gives no width: DESIGN CHOICE, log 78), alignment to 8, EPA only to the supervisor; the
zero field of the entry reads 0 (R6, R69). -/
def execOtqExt (f : FmtM) (s : State) : Out :=
  onStrand (.otqExt f) s fun h => otq s h f fun c a e =>
    let size := objBytes s (whoOf h) (capOid c) e.word0 e.dims e.layout
    if !(decide ((capBase c : Int) ≤ a) && decide (a + 1 ≤ capBase c + capLen c) && (decide (capBase c + capLen c ≤ size) || !e.wf)) then
      takeFault s h 3 (BitVec.ofInt 64 a) (f.sa.zeroExtend 64) 0 (capOid c)
    else if a.toNat % 8 ≠ 0 then takeFault s h 9 (BitVec.ofInt 64 a) 0 0 (capOid c)
    else retire h (wrG h f.dst (e.ext &&& (if isSup h.t then 0xFFFFFFFFFFFFFFE0 else 0xFE0)) s)

/-! ### Versions (R215, R216) -/

/-- The result pair of LDV: the value and {open, 0, version}. -/
def ldvResult (h : Here) (f : FmtM) (r : Res) (d : Line) (ver : BitVec 48) (op : Bool) (s : State) : State :=
  retire h (wrG h (f.dst + 1) (BitVec.ofNat 64 (ver.toNat + op.toNat * 2 ^ 63)) (wrG h f.dst (loadVal f.ty r d) s))
/-- LDV (R215): always at the home, never CONFLICT. -/
def execLdv (f : FmtM) (s : State) : Out :=
  onStrand (.ldv f) s fun h =>
    let n := tyBytes f.ty
    match h.t.remote with
    | .sent .. => hold h .remote s
    | .line r _ d _ v o => ldvResult h f r d v o (clearRemote h s)
    | .refused r why o => refusedFault (clearRemote h s) h why o r
    | _ =>
      match mCheck s h f { rights := rLD + rVER, n := n, align := n, ver := true } with
      | (s1, .fault fi) => faultOf s1 h fi
      | (s1, .moving) => hold h .moving s1
      | (s1, .unmapped r) => hold h .extent (postExtent s1 (whoOf h) r)
      | (s1, .ok r) =>
        if sideOverlap h.t r.loc n then hold h .sidelogLoad s1
        else if r.home.die = h.core.die then
          match homeVersioned s1 (whoOf h) r with
          | .ok s2 (d, v, o) => ldvResult h f r d v o s2
          | .conflict o => refusedFault s1 h 0 o r
          | .refused why => refusedFault s1 h why 0 r
        else askRemote s1 h r (.read h.t.pid h.core h.t.taskId r n true false)

/-- One pair of a VALS list (R216). -/
structure VPair where
  zero : Bool
  creg : Nat
  expv : BitVec 48
  offs : Nat
  deriving DecidableEq, Repr
def vpairOf (n : Nat) : VPair :=
  { zero := decide (n / 2 ^ 116 = 0), creg := n / 2 ^ 112 % 16, expv := BitVec.ofNat 48 (n / 2 ^ 64), offs := n % 2 ^ 64 }

/-- The 16 bytes of entry i of the list, each a load of its own line (log 11), behind the task's stores to that die. -/
inductive LAns
  | val (s : State) (v : Nat)
  | stop (s : State)
def valsEntry (s : State) (h : Here) (f : FmtM) (i : Nat) : LAns :=
  let c := rdC h.t f.sa
  match checkAcc s (whoOf h) f.sa.toNat c { rights := rLD, n := 16, align := 1, again := heldMovingAt h 0 } (mAddr s h f + 16 * i) with
  | (s1, .fault fi) => .stop (faultOf s1 h fi)
  | (s1, .moving) => .stop (hold h (.movingAt 0) s1)
  | (s1, .unmapped r) => .stop (hold h .extent (postExtent s1 (whoOf h) r))
  | (s1, .ok r) =>
    let c := CoreId.cluster h.core
    let off := r.loc.byte % 256
    let hit := match l1Find (clusterAt s1 c) r.key with
      | some x => if l1Serves h.t.taskId x off 16 false then some x else none
      | none => none
    if sideOverlap h.t r.loc 16 then .stop (hold h .sidelogLoad s1)
    else match hit with
      | some x => .val s1 (lineGet x.data off 16)
      | none =>
        if behindStores h.t r.home.die h.core.die then .stop (hold h .remote s1)
        else match homeLoad s1 (whoOf h) r 16 false with
          | .ok s2 p => .val s2 (lineGet (overL1 s1 c r.key h.t.taskId false p).1 off 16)
          | .conflict o => .stop (refusedFault s1 h 0 o r)
          | .refused why => .stop (refusedFault s1 h why 0 r)
def valsList (h : Here) (f : FmtM) : Nat → Nat → State → (State ⊕ (State × List VPair))
  | 0, _, s => .inr (s, [])
  | n + 1, i, s =>
    match valsEntry s h f i with
    | .stop s1 => .inl s1
    | .val s1 v =>
      match valsList h f n (i + 1) s1 with
      | .inl s2 => .inl s2
      | .inr (s2, l) => .inr (s2, vpairOf v :: l)
/-- Checks of the named lines, in order, the first of them access `k` of the form; pairs with a nonzero zero field take no part. OFFS
is read unsigned (DESIGN CHOICE, log 78: R216 gives no sign). -/
def valsLines (h : Here) (k : Nat) : List VPair → State → (State ⊕ (State × List (Option Res)))
  | [], s => .inr (s, [])
  | p :: rest, s =>
    let go := fun (s1 : State) (x : Option Res) =>
      match valsLines h (k + 1) rest s1 with
      | .inl s2 => .inl s2
      | .inr (s2, l) => .inr (s2, x :: l)
    if !p.zero then go s none
    else
      let c := lkpD h.t.c p.creg {}
      match checkAcc s (whoOf h) p.creg c { rights := rLD + rVER, n := 1, align := 1, ver := true, again := heldMovingAt h k }
          (capBase c + capOff c + p.offs) with
      | (s1, .fault fi) => .inl (faultOf s1 h fi)
      | (s1, .moving) => .inl (hold h (.movingAt k) s1)
      | (s1, .unmapped r) => .inl (hold h .extent (postExtent s1 (whoOf h) r))
      | (s1, .ok r) =>
        if behindStores h.t r.home.die h.core.die then .inl (hold h .remote s1)
        else match refusesFrom s1 h.core.die r.home r.pa with
        | some why => .inl (refusedFault s1 h why 0 r)
        | none => go (touchExtent (bring s1 r) (whoOf h) r) (some r)
/-- VALS (R124, R216): one validation point for all pairs. -/
def execVals (f : FmtM) (s : State) : Out :=
  onStrand (.vals f) s fun h =>
    let count := f.fn.toNat + 1
    if ordWait h.t none then hold h .release s
    else match checkAcc s (whoOf h) f.sa.toNat (rdC h.t f.sa) { rights := rLD, n := 16 * count, align := 16, again := heldMovingAt h 0 } (mAddr s h f) with
    | (s1, .fault fi) => faultOf s1 h fi
    | (s1, .moving) => hold h (.movingAt 0) s1
    | (s1, _) =>
      match valsList h f count 0 s1 with
      | .inl s2 => s2
      | .inr (s2, ps) =>
        match valsLines h 1 ps s2 with
        | .inl s3 => s3
        | .inr (s3, rs) =>
          let bits := (ps.zip rs).zipIdx.foldl (fun (acc : Nat × Nat) x =>
            match x.1.2 with
            | none => (acc.1 + 2 ^ x.2, acc.2)
            | some r =>
              let l := homeLine s3 r
              let op := lineOpen (whoOf h) l
              (acc.1 + (if op || l.ver != x.1.1.expv then 2 ^ x.2 else 0), acc.2 + (if op then 2 ^ x.2 else 0))) (0, 0)
          let s4 := if bits.1 = 0 then acquire s3 h f.scope.toNat else s3
          retire h (wrG h f.dst (BitVec.ofNat 64 (bits.1 + 256 * bits.2)) s4)

end Sys2Proof.Machine
end

