-- ==== Sys2Proof/Machine/Atomic.lean ====
section
/-! DEFINITION. Atomics, CASV, ACQ and REL (R211, R217 to R223, R85, R128). -/

namespace Sys2Proof.Machine

/-- The order that an atomic's kind asks before it (R110, R218): a release at its scope for rel and ar; any ordered atomic waits
for the task's earlier ordered writes. -/
def orderedRel (s : State) (h : Here) (f : FmtM) (home : Option DieId) (k : State → State) : State :=
  if ordRel f.ord then releaseThen s h f.scope.toNat home k
  else if f.ord != 0 && ordWait h.t home then hold h .release s
  else k s
def orderedAcq (h : Here) (f : FmtM) (s : State) : State := if ordAcq f.ord then acquire s h f.scope.toNat else s
/-- A reduction has been sent or logged: one of kind acq or ar waits for its acceptance before its acquire (R117). -/
def reducePosted (h : Here) (f : FmtM) (k : State → State) (s : State) : State :=
  if ordAcq f.ord then hold h .remote (modTask s h.core fun t => { t with remote := .posted h.t.stag }) else k s

/-- An atomic in the L1 of the issuing cluster (R85): own-die home, uncoded, unversioned, a CACHE bank at hand. The word is
registered with a SYNC record first; the answer is the old value. A CAS that fails stores nothing (R223). -/
def l1Atomic (s : State) (h : Here) (r : Res) (fn : Nat) (ty : BitVec 4) (b e : W64) : HAns W64 :=
  let w := whoOf h
  let c := CoreId.cluster h.core
  let n := fmtWidth ty / 8
  let off := r.loc.byte % 256
  let mask := wordsTouched off n
  match homeRefuses s r.home r.pa with
  | some why => .refused why
  | none =>
    let l := homeLine s r
    let mineSync := (l.recs.filter fun q => q.sync && q.task == w.task && q.die == w.die).foldl (fun a q => a ||| q.mask) 0
    if (mask &&& ~~~ mineSync) != 0 && conflicts w l mask true then .conflict (ownerOf w l mask)
    else
      let s1 := if (mask &&& ~~~ mineSync) == 0 then
          (match l1Find (clusterAt s c) r.key with
          | some x => if (mask &&& ~~~ x.valid) == 0 then s else l1Fill s c r (viewFor w l) (tagsFor w l)
          | none => l1Fill s c r (viewFor w l) (tagsFor w l))
        else
          let s1 := ownWriteBack (yieldWords (bring s r) w r.key mask) w r.key mask
          let l1 := homeLine s1 r
          let s2 := dropStale (putLine s1 r.key (register w l1 mask true)) c r.key mask
          noteFollow (l1Fill s2 c r (viewFor w l1) (tagsFor w l1)) w r
      match l1Find (clusterAt s1 c) r.key with
      | none => .conflict 0
      | some x =>
        let old := lineGet x.data off n
        let stores := decide (fn ≠ 34 ∨ old = e.toNat % 2 ^ (8 * n))
        let x1 : L1Line := if stores then
            { x with data := lineSet x.data off n (amoOp fn ty old b.toNat e.toNat), tags := x.tags &&& ~~~ granulesTouched off n }
          else x
        .ok (modCluster (if stores then harm s1 r.key else s1) c fun k => l1Put k r.key (ownWords w.task mask (if stores then mask else 0) x1)) (BitVec.ofNat 64 old)

/-- The shared execution of AMO, AMOF, CAS and CASV (R217, R218). `k` receives the old value, the version and success. An access
that was sent to another die goes on under its translation (R77); a returning atomic to another die waits for the stores that
the side log still holds (R126). -/
def atomicThen (s : State) (h : Here) (f : FmtM) (fn : Nat) (ty : BitVec 4) (b e : W64) (kind : Nat) (returning : Bool)
    (k : State → W64 → BitVec 48 → Bool → State) : State :=
  let n := fmtWidth ty / 8
  let rights := rLD + rST + rAMO + (if kind = 1 then rVER else 0)
  let c := CoreId.cluster h.core
  let ord : Ordr := { kind := f.ord, scope := f.scope }
  let op : WOp := .reduce fn (8 * n) b
  let stale := fun (s : State) (r : Res) => dropStale s c r.key (wordsTouched (r.loc.byte % 256) n)
  let posted := reducePosted h f fun s1 => k s1 0 0 true
  match h.t.remote with
  | .sent .. | .posted _ => hold h .remote s
  | .accepted => k (orderedAcq h f (clearRemote h s)) 0 0 true
  | .old r v ver ok => k (orderedAcq h f (stale (clearRemote h s) r)) v ver ok
  | .refused r why o => refusedFault (clearRemote h s) h why o r
  | .unsupported r d => takeFault (clearRemote h s) h 15 (d.zeroExtend 64) 0 0 r.loc.oid
  | _ =>
    match mCheck s h f { rights := rights, n := n, align := n, ver := decide (kind = 1) } with
    | (s1, .fault fi) => faultOf s1 h fi
    | (s1, .moving) => hold h .moving s1
    | (s1, .unmapped r) =>
      let s2 := postExtent s1 (whoOf h) r
      if returning then hold h .extent s2
      else orderedRel s2 h f none fun s3 => toSideLog s3 h r.loc op ord posted
    | (s1, .ok r) =>
      let remote := decide (r.home.die ≠ h.core.die)
      orderedRel s1 h f (some r.home.die) fun s2 =>
        if !h.t.side.isEmpty && !returning then toSideLog s2 h r.loc op ord posted
        else if sideOverlap h.t r.loc n || (remote && !h.t.side.isEmpty) then hold h .sidelogLoad s2
        else if remote then
          if returning then
            askRemote (noFill s2 c fun q => q.key == r.key) h r (.atomic h.t.pid h.core h.t.taskId r fn ty b e kind ord)
          else storeRemote s2 h r op ord posted
        else
          let inL1 := r.rate == 0 && !wVer r.word0 && !(cacheBanks (clusterAt s2 c)).isEmpty && kind == 0
          let done := fun (s3 : State) (v : W64) (ver : BitVec 48) (ok : Bool) => k (orderedAcq h f s3) v ver ok
          let refused := fun (why : Nat) =>
            if returning then refusedFault s2 h why 0 r else done (refusedHere s2 h r why) 0 0 true
          if inL1 then
            match l1Atomic s2 h r fn ty b e with
            | .ok s3 v => done s3 v 0 true
            | .conflict o => refusedFault s2 h 0 o r
            | .refused why => refused why
          else
            match homeAtomic s2 (whoOf h) r fn ty b e kind ord with
            | .ok s3 (v, ver, ok) => done (stale s3 r) v ver ok
            | .conflict o => refusedFault s2 h 0 o r
            | .refused why => refused why

def oldVal (ty : BitVec 4) (v : W64) : W64 := extend64 (tySigned ty) (fmtWidth ty) v.toNat
/-- AMO (R220). -/
def execAmo (f : FmtM) (s : State) : Out :=
  onStrand (.amo f) s fun h =>
    atomicThen s h f f.fn.toNat f.ty (rdG s h f.dst) 0 0 true fun s1 v _ _ => retire h (wrG h f.dst (oldVal f.ty v) s1)
/-- The reducing AMO (R218, R220): nothing is returned. -/
def execAmoReduce (f : FmtM) (s : State) : Out :=
  onStrand (.amoReduce f) s fun h =>
    atomicThen s h f (f.fn.toNat - 16) f.ty (rdG s h f.dst) 0 0 false fun s1 _ _ _ => retire h s1
/-- AMOF fadd (R222). -/
def execAmofFadd (f : FmtM) (s : State) : Out :=
  onStrand (.amofFadd f) s fun h =>
    atomicThen s h f 32 f.ty (rdG s h f.dst) 0 0 true fun s1 v _ _ => retire h (wrG h f.dst v s1)
/-- AMOF fmax (R222). -/
def execAmofFmax (f : FmtM) (s : State) : Out :=
  onStrand (.amofFmax f) s fun h =>
    atomicThen s h f 33 f.ty (rdG s h f.dst) 0 0 true fun s1 v _ _ => retire h (wrG h f.dst v s1)
/-- CAS (R223). -/
def execCas (f : FmtM) (s : State) : Out :=
  onStrand (.cas f) s fun h =>
    atomicThen s h f 34 f.ty (rdG s h (f.dst + 1)) (rdG s h f.dst) 0 true fun s1 v _ _ =>
      retire h (wrG h f.dst (oldVal f.ty v) s1)
/-- CASV (R217): the outcome rests on the version alone. -/
def execCasv (f : FmtM) (s : State) : Out :=
  onStrand (.casv f) s fun h =>
    atomicThen s h f 8 f.ty (rdG s h (f.dst + 1)) (rdG s h f.dst) 1 true fun s1 _ ver ok =>
      retire h (wrG h f.dst (BitVec.ofNat 64 (ver.toNat + ok.toNat * 2 ^ 63)) s1)

/-- ACQ (R211): its read, then the acquire steps. -/
def execAcq (f : FmtM) (s : State) : Out :=
  onStrand (.acq f) s fun h =>
    let n := tyBytes f.ty
    loadThen s h (mCheck s h f { rights := rLD, n := n, align := n }) n true fun s1 r d _ =>
      retire h (wrG h f.dst (loadVal f.ty r d) (acquire s1 h f.scope.toNat))
/-- REL (R211): the release steps, then its own write, registered, published and closed at the home in one step. -/
def execRel (f : FmtM) (s : State) : Out :=
  onStrand (.rel f) s fun h =>
    let n := tyBytes f.ty
    let op : WOp := .release (bytesOf n (rdG s h f.dst).toNat)
    let ord : Ordr := { kind := 2, scope := f.scope }
    match mCheck s h f { rights := rST, n := n, align := n } with
    | (s1, .fault fi) => faultOf s1 h fi
    | (s1, .moving) => hold h .moving s1
    | (s1, .unmapped r) =>
      releaseThen s1 h f.scope.toNat none fun s2 => toSideLog (postExtent s2 (whoOf h) r) h r.loc op ord (retire h)
    | (s1, .ok r) =>
      releaseThen s1 h f.scope.toNat (some r.home.die) fun s2 =>
        if r.home.die = h.core.die then
          match homeStore s2 (whoOf h) r op ord with
          | .ok s3 _ =>
            retire h (dropStale s3 (CoreId.cluster h.core) r.key (wordsTouched (r.loc.byte % 256) n))
          | .conflict o => refusedFault s2 h 0 o r
          | .refused why => retire h (refusedHere s2 h r why)
        else storeRemote s2 h r op ord (retire h)

end Sys2Proof.Machine
end

