-- ==== Sys2Proof/Machine/Cap.lean ====
section
/-! DEFINITION. Capability forms and capabilities in memory (R197 to R205). -/

namespace Sys2Proof.Machine

/-- Checks 1 to 3 of R198. -/
def capForm (h : Here) (f : FmtR) (unsealed : Bool) (right : Nat) (s : State) (k : CapReg → State) : State :=
  let c := rdC h.t f.sa
  let reg : W64 := f.sa.zeroExtend 64
  if !c.tag then takeFault s h 5 reg 0 0 (capOid c)
  else if unsealed && capSealed c then takeFault s h 4 (BitVec.ofNat 64 right) reg 0 (capOid c)
  else if !hasRights c right then takeFault s h 4 (BitVec.ofNat 64 right) reg 0 (capOid c)
  else k c

/-- CNARROW (R199). Detail word 0 of its CAPBOUND is the offset operand (DESIGN CHOICE, log 79: R328 names the object byte or
index of an access, which CNARROW does not make). -/
def execCnarrow (f : FmtR) (s : State) : Out :=
  onStrand (.cnarrow f) s fun h => capForm h f true 0 s fun c =>
    let o := (rdG s h f.sb).toNat
    let l := (rdG s h f.sc).toNat
    if capLen c < o + l then takeFault s h 3 (BitVec.ofNat 64 o) (f.sa.zeroExtend 64) 0 (capOid c)
    else
      let b := setBits (setBits (setBits c.bits 64 64 (capBase c + o)) 128 64 l) 192 64 0
      retire h (wrC h f.dst { tag := true, bits := b } s)
/-- CRIGHTS (R200): outside the supervisor rights only fall and SEALED only rises. -/
def execCrights (f : FmtR) (s : State) : Out :=
  onStrand (.crights f) s fun h => capForm h f (!isSup h.t) 0 s fun c =>
    let m := (rdG s h f.sb).toNat
    let sl := if isSup h.t then m / 2 ^ 11 % 2 else (if capSealed c || decide (m / 2 ^ 11 % 2 = 1) then 1 else 0)
    let r := (capRights c &&& m) % 2 ^ 11 + sl * 2 ^ 11
    retire h (wrC h f.dst { tag := true, bits := setBits c.bits 48 16 r } s)
/-- COFF (R201): a sealed capability is only copied. -/
def execCoff (f : FmtR) (s : State) : Out :=
  onStrand (.coff f) s fun h => capForm h f false 0 s fun c =>
    let inc := rdG s h f.sb
    if capSealed c && inc != 0 then takeFault s h 4 0 (f.sa.zeroExtend 64) 0 (capOid c)
    else retire h (wrC h f.dst { tag := true, bits := setBits c.bits 192 64 (bitsN c.bits 192 64 + inc.toNat) } s)
/-- CGET (R202). -/
def execCget (f : FmtR) (s : State) : Out :=
  onStrand (.cget f) s fun h =>
    let c := rdC h.t f.sa
    let v : Nat := match (rdG s h f.sb).toNat with
      | 0 => (capOid c).toNat
      | 1 => capLgen c
      | 2 => bitsN c.bits 48 16
      | 3 => capBase c
      | 4 => capLen c
      | 5 => bitsN c.bits 192 64
      | 6 => c.tag.toNat
      | 7 => capBase c + bitsN c.bits 192 64
      | _ => 0
    retire h (wrG h f.dst (BitVec.ofNat 64 v) s)
/-- CLGEN (R203). The detail words of its EXTENT are 0 (DESIGN CHOICE, log 79: R328 names the byte, extent and facet of an
access, which CLGEN does not make). -/
def execClgen (f : FmtR) (s : State) : Out :=
  onStrand (.clgen f) s fun h => capForm h f true rREFRESH s fun c =>
    if capOid c = 0 ∧ ¬ isSup h.t then takeFault s h 4 (BitVec.ofNat 64 rREFRESH) (f.sa.zeroExtend 64) 0 0
    else
      let (s1, e) := xlate s (whoOf h) ⟨capOid c, 0, 0⟩
      if wState e.word0 = 2 then hold h .moving s1
      else if wState e.word0 ≠ 1 then takeFault s1 h 8 0 0 0 (capOid c)
      else retire h (wrC h f.dst { tag := true, bits := setBits c.bits 32 16 (wLgen e.word0) } s1)

/-- The object checks of CLD and CST (R204). -/
def capObjOk (s : State) (h : Here) (c : CapReg) (chk : State × Chk) (reg : BitVec 6) (k : State) : State :=
  let bad := fun (r : Res) =>
    if !wCapstore r.word0 then some (takeFault chk.1 h 5 (reg.zeroExtend 64) 0 0 (capOid c))
    else if wCoding r.word0 ≠ 0 then some (takeFault chk.1 h 6 (wRead r.word0) 0 0 (capOid c))
    else none
  match chk.2 with
  | .ok r => (bad r).getD k
  | .unmapped r => (bad r).getD k
  | _ => let _ := s; k
/-- CLD (R204, R205): the 32 bytes and the granule's tag together. -/
def execCld (f : FmtM) (s : State) : Out :=
  onStrand (.cld f) s fun h =>
    let c := rdC h.t f.sa
    let chk := mCheck s h f { rights := rLD + rCLD, n := 32, align := 32 }
    let load := loadThen s h chk 32 false fun s1 r d tg =>
      let off := r.loc.byte % 256
      retire h (wrC h f.dst { tag := tg.getLsbD (off / 32), bits := BitVec.ofNat 256 (lineGet d off 32) } s1)
    if h.t.remote = .idle then capObjOk s h c chk f.sa load else load
/-- CST (R204): the stored register first, then the destination. -/
def execCst (f : FmtM) (s : State) : Out :=
  onStrand (.cst f) s fun h =>
    let v := rdC h.t f.dst
    let c := rdC h.t f.sa
    if !v.tag then takeFault s h 5 (f.dst.zeroExtend 64) 0 0 (capOid v)
    else if !hasRights v rGRANT then takeFault s h 4 (BitVec.ofNat 64 rGRANT) (f.dst.zeroExtend 64) 0 (capOid v)
    else
      let chk := mCheck s h f { rights := rST + rCST, n := 32, align := 32 }
      capObjOk s h c chk f.sa <| storeThen s h chk (.cap v) (retire h)

end Sys2Proof.Machine
end

