-- ==== Sys2Proof/Machine/Sync.lean ====
section
/-! DEFINITION. Fences, semaphores, barriers and the event queue of a strand (R119, R120, R224 to R227). -/

namespace Sys2Proof.Machine

/-- FENCE (R119, R224): its release part exempts no die; then its acquire part. A fence of kind acq alone publishes nothing, but
it too completes only after the side log has drained and reports what was discarded or refused there, as R93, R94 and R127 say of
any fence (log 80: R119 and R224 name these for rel and ar only). -/
def execFence (f : FmtS) (s : State) : Out :=
  onStrand (.fence f) s fun h =>
    releaseThen s h (if ordRel f.ord then f.scope.toNat else 0) none fun s1 =>
      retire h (if ordAcq f.ord then acquire s1 h f.scope.toNat else s1)
/-- An acquire of a counter or of the event queue waits for the task's earlier ordered writes (R110). -/
def ordered (s : State) (h : Here) (k : State) : State := if ordWait h.t none then hold h .release s else k

/-- The semaphore index of a form: the crew's own, or CAPBOUND naming the index (R225). -/
def semForm (s : State) (h : Here) (imm : BitVec 24) (k : Nat → State) : State :=
  if semAllowed h.t imm.toNat then k imm.toNat else takeFault s h 3 (imm.zeroExtend 64)
/-- The shared part of SWAIT and SWAIT.take (R225): `take` is subtracted. -/
def semWait (f : FmtS) (take : Bool) (s : State) (h : Here) : State :=
  semForm s h f.imm fun n =>
    let c := CoreId.cluster h.core
    let v := semAt s c n
    let want : BitVec 32 := (rdG s h f.sa).truncate 32
    if v < want then hold h .sem s
    else ordered s h <|
      let s1 := acquire s h f.scope.toNat
      retire h (wrG h f.dst (v.zeroExtend 64) (if take then setSem s1 c n (v - want) else s1))
/-- SWAIT (R225): a count of 0 is satisfied at once. -/
def execSwait (f : FmtS) (s : State) : Out := onStrand (.swait f) s (semWait f false s)
/-- SWAIT.take (R225): test and subtraction in one step. -/
def execSwaitTake (f : FmtS) (s : State) : Out := onStrand (.swaitTake f) s (semWait f true s)
/-- SSIG (R225): a release, then the addition. -/
def execSsig (f : FmtS) (s : State) : Out :=
  onStrand (.ssig f) s fun h => semForm s h f.imm fun n =>
    releaseThen s h f.scope.toNat none fun s1 => retire h (addSem s1 (CoreId.cluster h.core) n 1)
/-- SADD (R225): the old value is returned. -/
def execSadd (f : FmtS) (s : State) : Out :=
  onStrand (.sadd f) s fun h => semForm s h f.imm fun n =>
    releaseThen s h f.scope.toNat none fun s1 =>
      let c := CoreId.cluster h.core
      retire h (wrG h f.dst ((semAt s1 c n).zeroExtend 64) (addSem s1 c n ((rdG s h f.sa).truncate 32)))

/-- The barriers a task's partition owns on its die (R21, R22, R226). -/
def barAllowed (s : State) (h : Here) (n : Nat) : Bool := holdsSlab s h.t.pid ⟨h.core.die, n / 32⟩
def barForm (s : State) (h : Here) (imm : BitVec 24) (k : Nat → State) : State :=
  if barAllowed s h imm.toNat then k imm.toNat else takeFault s h 3 (imm.zeroExtend 64)
def barAt (s : State) (d : DieId) (n : Nat) : Barrier := lkpD (dieAt s d).barriers n {}
/-- One arrival (R226 steps 2 to 4). -/
def arrive (want : BitVec 24) (b : Barrier) : Barrier :=
  let e := if b.count = 0 then (if want = 0 then 1 else want) else b.expect
  if b.count + 1 = e then { phase := b.phase + 1, expect := e, count := 0 }
  else { b with expect := e, count := b.count + 1 }
/-- BARA (R226). -/
def execBara (f : FmtS) (s : State) : Out :=
  onStrand (.bara f) s fun h => barForm s h f.imm fun n =>
    releaseThen s h f.scope.toNat none fun s1 =>
      let d := h.core.die
      let b := barAt s1 d n
      let s2 := modDie s1 d fun k => { k with barriers := ins k.barriers n (arrive ((rdG s h f.sa).truncate 24) b) }
      retire h (wrG h f.dst (b.phase.zeroExtend 64) s2)
/-- BARW (R226). -/
def execBarw (f : FmtS) (s : State) : Out :=
  onStrand (.barw f) s fun h => barForm s h f.imm fun n =>
    if (barAt s h.core.die n).phase = (rdG s h f.sa).truncate 32 then hold h .bar s
    else ordered s h <| retire h (acquire s h f.scope.toNat)

/-- Write the four words of a record to dst to dst+3 (R227). -/
def wrRecord (h : Here) (dst : BitVec 6) (r : BitVec 256) (s : State) : State :=
  (List.range 4).foldl (fun acc k => wrG h (dst + BitVec.ofNat 6 k) (r.extractLsb' (64 * k) 64) acc) s
/-- Pop the oldest record, an acquire at the written scope (R227). -/
def popEvent (f : FmtS) (s : State) (h : Here) (r : BitVec 256) (rest : List (BitVec 256)) : State :=
  ordered s h <|
  let s1 := modTask s h.core fun t => { t with evq := rest }
  retire h (wrRecord h f.dst r (acquire s1 h f.scope.toNat))
/-- EVPOP (R227). -/
def execEvpop (f : FmtS) (s : State) : Out :=
  onStrand (.evpop f) s fun h =>
    match h.t.evq with
    | [] => hold h .event s
    | r :: rest => popEvent f s h r rest
/-- EVPOP.poll (R227): four zeros on an empty queue. -/
def execEvpopPoll (f : FmtS) (s : State) : Out :=
  onStrand (.evpopPoll f) s fun h =>
    match h.t.evq with
    | [] => ordered s h <| retire h (wrRecord h f.dst 0 (acquire s h f.scope.toNat))
    | r :: rest => popEvent f s h r rest

end Sys2Proof.Machine
end

