-- ==== Sys2Proof/Machine/Trans.lean ====
section
/-! DEFINITION. Reciprocals, square root and the transcendental forms (R235, R236). The exact result is computed to far
more bits than any format holds, with a sticky bit, and rounded once; a form that the spec only bounds takes the free
bits of Config.approx where they meet the bound, and the correctly rounded bits otherwise (log 9). -/

namespace Sys2Proof.Machine

/-- ⌊√n⌋, bit by bit over k bits. -/
def isqrtGo (n : Nat) : Nat → Nat → Nat
  | 0, r => r
  | k + 1, r => isqrtGo n k (if (r + 2 ^ k) * (r + 2 ^ k) ≤ n then r + 2 ^ k else r)
def isqrt (n : Nat) : Nat := isqrtGo n (bitLen n / 2 + 1) 0

/-- √(m·2^e) with a sticky bit. -/
def sqrtVal (m : Nat) (e : Int) : FVal :=
  let m1 := if e % 2 = 0 then m else 2 * m
  let e1 := if e % 2 = 0 then e else e - 1
  let n := m1 * 2 ^ 320
  let r := isqrt n
  .fin false (2 * r + (if r * r = n then 0 else 1)) (e1 / 2 - 161)

/-- 1/√(m·2^e) with a sticky bit. -/
def rsqVal (m : Nat) (e : Int) : FVal :=
  let m1 := if e % 2 = 0 then m else 2 * m
  let e1 := if e % 2 = 0 then e else e - 1
  let r := isqrt (2 ^ 640 / m1)
  .fin false (2 * r + 1) (-(e1 / 2) - 321)

/-- 2^f for a fixed-point fraction f of `k` bits: the product of 2^(2^−j) over its set bits. -/
def exp2Go (f : Nat) : Nat → Nat → Nat → Nat
  | 0, _, y => y
  | k + 1, c, y =>
    let c' := isqrt (c * 2 ^ 260)
    exp2Go f k c' (if f / 2 ^ k % 2 = 1 then y * c' / 2 ^ 260 else y)

/-- 2^x (R235); an integer x is exact. -/
def exp2Val (neg : Bool) (m : Nat) (e : Int) : FVal :=
  if 13 ≤ e + bitLen m then .fin false 1 (if neg then -8192 else 8192)
  else
    let x : Int := (if neg then -1 else 1) * ((m * 2 ^ (e + 180).toNat / 2 ^ (-(e + 180)).toNat : Nat) : Int)
    let n : Int := x / (2 ^ 180 : Nat)
    let f := (x % (2 ^ 180 : Nat)).toNat
    if f = 0 then .fin false 1 n
    else .fin false (2 * exp2Go f 180 (2 * 2 ^ 260) (2 ^ 260) + 1) (n - 261)

/-- Fraction bits of log2 of y/2^W, 1 ≤ y/2^W < 2, by repeated squaring. -/
def log2Go : Nat → Nat → Nat → Nat
  | 0, _, acc => acc
  | k + 1, y, acc =>
    let y2 := y * y / 2 ^ 400
    if 2 ^ 401 ≤ y2 then log2Go k (y2 / 2) (2 * acc + 1) else log2Go k y2 (2 * acc)

/-- log2 of m·2^e; a power of two is exact (R236). -/
def log2Val (m : Nat) (e : Int) : FVal :=
  let n : Int := e + bitLen m - 1
  if m = 2 ^ (bitLen m - 1) then ofIntF n
  else
    let t : Int := n * (2 ^ 200 : Nat) + log2Go 200 (m * 2 ^ 400 / 2 ^ (bitLen m - 1)) 0
    if 0 ≤ t then .fin false (2 * t.toNat + 1) (-201) else .fin true (2 * (-t - 1).toNat + 1) (-201)

/-- Taylor sum Σ x^k/k! from term k with value `term`, in 320-bit fixed point. -/
def expGo (x : Nat) : Nat → Nat → Nat → Nat → Nat
  | 0, _, _, acc => acc
  | n + 1, k, term, acc =>
    let t := term * x / 2 ^ 320 / k
    expGo x n (k + 1) t (acc + t)
def sqN : Nat → Nat → Nat
  | 0, y => y
  | n + 1, y => sqN n (y * y / 2 ^ 320)

/-- tanh of a positive m·2^e, with a sticky bit. -/
def tanhVal (neg : Bool) (m : Nat) (e : Int) : FVal :=
  if 6 < e + bitLen m then .fin neg (2 ^ 80 - 1) (-80)
  else
    let x := m * 2 ^ (e + 320).toNat / 2 ^ (-(e + 320)).toNat
    let t := 2 * x / 256
    let ex := sqN 8 (expGo t 90 1 (2 ^ 320) (2 ^ 320))
    ratVal neg (ex - 2 ^ 320) (ex + 2 ^ 320) 0

/-- arctan(1/q) in 330-bit fixed point by its alternating series. -/
def atanGo (q2 : Nat) : Nat → Nat → Int → Nat → Int → Int
  | 0, _, _, _, acc => acc
  | n + 1, k, sg, p, acc => atanGo q2 n (k + 2) (-sg) (p / q2) (acc + sg * ((p / k : Nat) : Int))
/-- π in 330-bit fixed point. -/
def piFix : Int :=
  16 * atanGo 25 160 1 1 (2 ^ 330 / 5) 0 - 4 * atanGo 57121 80 1 1 (2 ^ 330 / 239) 0

def sinGo (a2 : Nat) : Nat → Nat → Int → Nat → Int → Int
  | 0, _, _, _, acc => acc
  | n + 1, k, sg, t, acc =>
    let t' := t * a2 / 2 ^ 320 / ((k + 1) * (k + 2))
    sinGo a2 n (k + 2) (-sg) t' (acc + sg * (t' : Int))

/-- sin(π·x) for x = X/2^320 modulo 2, with a sticky bit (R235: arguments are half-turns). -/
def sinPiFix (flip : Bool) (x : Nat) : FVal :=
  let x1 : Nat := x % 2 ^ 321
  let neg := decide (2 ^ 320 ≤ x1)
  let x2 : Nat := x1 % 2 ^ 320
  let x3 : Nat := if 2 ^ 319 < x2 then 2 ^ 320 - x2 else x2
  let a : Nat := (piFix * (x3 : Int) / (2 ^ 330 : Nat)).toNat
  let s := sinGo (a * a / 2 ^ 320) 60 1 (-1) a a
  .fin (flip != neg) (2 * s.toNat + 1) (-321)

/-- |x|·2^320 modulo 2 turns of a dyadic. -/
def turnFix (m : Nat) (e : Int) : Nat := (m * 2 ^ (e + 320).toNat / 2 ^ (-(e + 320)).toNat) % 2 ^ 321

/-- m·2^e is a multiple of 2^k. -/
def multOf (m : Nat) (e k : Int) : Bool :=
  let d : Nat := 2 ^ (k - e).toNat
  decide (k ≤ e) || decide (m % d = 0)

/-- |a − b| ≤ n·2^q for two finite values. -/
def withinF (a b : FVal) (n : Nat) (q : Int) : Bool :=
  match a, b with
  | .fin sa ma ea, .fin sb mb eb =>
    let k := min (min ea eb) q
    let x : Int := (if sa then -1 else 1) * ((ma * 2 ^ (ea - k).toNat : Nat) : Int)
    let y : Int := (if sb then -1 else 1) * ((mb * 2 ^ (eb - k).toNat : Nat) : Int)
    decide ((x - y).natAbs ≤ n * 2 ^ (q - k).toNat)
  | _, _ => false

/-- The spacing exponent of the format at a value (R235). -/
def ulpExp (c : BitVec 4) (m : Nat) (e : Int) : Int :=
  let f := ffmt c
  max (e + bitLen m - 1 - f.fw) (1 - f.bias - f.fw)

/-- The bits of a bounded form: the machine's own where they meet the bound, else the correctly rounded ones. -/
def boundedF (form : Nat) (c : BitVec 4) (bits : Nat) (ulps : Nat) (absQ : Option Int) (exact : FVal) : Nat :=
  let cand := decodeF c ((Config.approx form c.toNat (BitVec.ofNat 64 bits)).toNat % 2 ^ fmtWidth c)
  match exact with
  | .fin _ m e =>
    if withinF cand exact ulps (absQ.getD (ulpExp c m e)) then roundF c .rne cand else roundF c .rne exact
  | v => roundF c .rne v

/-- One lane of VRCP, VRSQ, VSQRT, VEXP2, VLOG2, VTANH, VSIN, VCOS (majors 0x6A to 0x71; R235, R236). VCOS of ±0 has no row in
R236, so it has any bits within the bound of 1 (log 9). -/
def unaryF (major : Nat) (c : BitVec 4) (rm : RM) (bits : Nat) : Nat :=
  let v := decodeF c bits
  match v with
  | .nan => canonNaN c
  | .inf neg =>
    roundF c .rne (match major with
      | 0x6A => .fin neg 0 0
      | 0x6B => if neg then .nan else .fin false 0 0
      | 0x6C => if neg then .nan else .inf false
      | 0x6D => if neg then .fin false 0 0 else .inf false
      | 0x6E => if neg then .nan else .inf false
      | 0x6F => .fin neg 1 0
      | _ => .nan)
  | .fin neg 0 _ =>
    if major = 0x71 then boundedF major c bits 1 (if c = 1 then some (-22) else none) (.fin false 1 0)
    else roundF c .rne (match major with
      | 0x6A => .inf neg
      | 0x6B => .inf neg
      | 0x6D => .fin false 1 0
      | 0x6E => .inf true
      | _ => .fin neg 0 0)
  | .fin neg m e =>
    match major with
    | 0x6A =>
      let x := ratVal neg 1 m (-e)
      if c = 2 ∨ c = 3 then roundF c .rne x else boundedF major c bits 1 none x
    | 0x6B => if neg then canonNaN c else boundedF major c bits (if c = 1 then 2 else 1) none (rsqVal m e)
    | 0x6C => if neg then canonNaN c else roundF c rm (sqrtVal m e)
    | 0x6D => roundF c .rne (exp2Val neg m e)
    | 0x6E => if neg then canonNaN c else roundF c .rne (log2Val m e)
    | 0x6F => boundedF major c bits (if c = 1 then 2 else 1) none (tanhVal neg m e)
    | 0x70 =>
      if multOf m e 0 then roundF c .rne (.fin neg 0 0)
      else boundedF major c bits 1 (if c = 1 then some (-22) else none) (sinPiFix neg (turnFix m e))
    | _ =>
      if multOf m e (-1) && !multOf m e 0 then roundF c .rne (.fin false 0 0)
      else boundedF major c bits 1 (if c = 1 then some (-22) else none) (sinPiFix false (turnFix m e + 2 ^ 319))

end Sys2Proof.Machine
end

