-- ==== Sys2Proof/Machine/Flags.lean ====
section
/-! DEFINITION. Conditions: this machine has no flags register; branch conditions (R159) and vector comparisons (R241)
are computed here. -/

namespace Sys2Proof.Machine

/-- The condition codes of BC over the full 64 bits (R159, R188). -/
def condHolds (cond : BitVec 4) (a b : W64) : Bool :=
  match cond.toNat with
  | 0 => a == b
  | 1 => a != b
  | 2 => decide (a.toInt < b.toInt)
  | 3 => decide (b.toInt ≤ a.toInt)
  | 4 => decide (a.toNat < b.toNat)
  | _ => decide (b.toNat ≤ a.toNat)

/-- One lane of VCMP under condition c (R241). -/
def vcmpLane (fmt : BitVec 4) (c : Nat) (x y : Nat) : Bool :=
  if isFloat fmt then
    let a := decodeF fmt x
    let b := decodeF fmt y
    let un := isNaN a || isNaN b
    let lt := ltF false a b
    let gt := ltF false b a
    match c with
    | 0 => !un && !lt && !gt
    | 1 => un || lt || gt
    | 2 => !un && lt
    | 3 => !un && !gt
    | 4 => !un && gt
    | 5 => !un && !lt
    | 6 => un
    | _ => !un
  else
    let w := fmtWidth fmt
    let a := readInt (tySigned fmt) w x
    let b := readInt (tySigned fmt) w y
    match c with
    | 0 => decide (a = b) | 1 => decide (a ≠ b) | 2 => decide (a < b) | 3 => decide (a ≤ b)
    | 4 => decide (b < a) | _ => decide (b ≤ a)

end Sys2Proof.Machine
end

