-- ==== Sys2Proof/Machine/Vector.lean ====
section
/-! DEFINITION. The vector forms (R228 to R247, R252 to R257). A form writes its result at once and opens the window of
its lat bound, inside which its destination reads as undefined (R166; log 7). -/

namespace Sys2Proof.Machine

/-! ### Shared shapes -/

/-- Lane-wise forms of one, two or three vector operands (R229): active lanes take `g`, the others keep their contents. -/
def vLanes (f : FmtV) (g : Nat → Nat → Nat → Nat) (s : State) (h : Here) : State :=
  let w := fmtWidth f.fmt
  let x := readVS s h f.sa f.aux 1
  let y := readVS s h f.sb f.aux 2
  let z := readVS s h f.sc f.aux 3
  let r := mergeLanes (readP s h f.pred.toNat) w (priorVS s h f.dst f.aux) fun i => g (lane w x i) (lane w y i) (lane w z i)
  retire h (putVS h f.dst f.aux r f.lat.toNat s)
/-- Floating arithmetic: exact, then rounded once under rm (R232). -/
def vArith (f : FmtV) (g : Bool → FVal → FVal → FVal → FVal) (s : State) (h : Here) : State :=
  vLanes f (fun x y z => roundF f.fmt (rmOf f.rm 0) (g (f.rm == 3) (decodeF f.fmt x) (decodeF f.fmt y) (decodeF f.fmt z))) s h
/-- Integer forms on w-bit lanes, wrapped or clamped (R243). -/
def vInt (f : FmtV) (sat : Bool) (g : Nat → Int → Int → Int) (s : State) (h : Here) : State :=
  let w := fmtWidth f.fmt
  let sg := tySigned f.fmt
  vLanes f (fun x y _ =>
    let r := g w (readInt sg w x) (readInt sg w y)
    wrapN w (if sat then max (intLo f.fmt) (min (intHi f.fmt) r) else r)) s h
/-- Forms of one operand under the transcendental table (R235). -/
def vUnary (f : FmtV) (major : Nat) (s : State) (h : Here) : State :=
  vLanes f (fun x _ _ => unaryF major f.fmt (rmOf f.rm 0) x) s h

/-! ### Floating arithmetic (R232 to R236) -/

def execVadd (f : FmtV) (s : State) : Out := onStrand (.vadd f) s (vArith f (fun rd x y _ => addF rd x y) s)
def execVsub (f : FmtV) (s : State) : Out := onStrand (.vsub f) s (vArith f (fun rd x y _ => addF rd x (negF y)) s)
def execVmul (f : FmtV) (s : State) : Out := onStrand (.vmul f) s (vArith f (fun _ x y _ => mulF x y) s)
def execVfma (f : FmtV) (s : State) : Out := onStrand (.vfma f) s (vArith f (fun rd x y z => addF rd (mulF x y) z) s)
def execVfms (f : FmtV) (s : State) : Out := onStrand (.vfms f) s (vArith f (fun rd x y z => addF rd (mulF x y) (negF z)) s)
def execVnfma (f : FmtV) (s : State) : Out := onStrand (.vnfma f) s (vArith f (fun rd x y z => addF rd (negF (mulF x y)) z) s)
/-- VMIN and VMAX do not round (R233). -/
def vChoose (f : FmtV) (mx : Bool) (s : State) (h : Here) : State :=
  vLanes f (fun x y _ => roundF f.fmt .rne (minMaxF mx (f.fn == 1) (decodeF f.fmt x) (decodeF f.fmt y))) s h
def execVmin (f : FmtV) (s : State) : Out := onStrand (.vmin f) s (vChoose f false s)
def execVmax (f : FmtV) (s : State) : Out := onStrand (.vmax f) s (vChoose f true s)
/-- VABS and VNEG (R234). -/
def vSign (f : FmtV) (gf : FVal → FVal) (gi : Int → Int) (s : State) (h : Here) : State :=
  let w := fmtWidth f.fmt
  vLanes f (fun x _ _ => if isFloat f.fmt then roundF f.fmt .rne (gf (decodeF f.fmt x)) else wrapN w (gi (readInt true w x))) s h
def execVabs (f : FmtV) (s : State) : Out := onStrand (.vabs f) s (vSign f absF (fun i => i.natAbs) s)
def execVneg (f : FmtV) (s : State) : Out := onStrand (.vneg f) s (vSign f negF (fun i => -i) s)
def execVrcp (f : FmtV) (s : State) : Out := onStrand (.vrcp f) s (vUnary f 0x6A s)
def execVrsq (f : FmtV) (s : State) : Out := onStrand (.vrsq f) s (vUnary f 0x6B s)
def execVsqrt (f : FmtV) (s : State) : Out := onStrand (.vsqrt f) s (vUnary f 0x6C s)
def execVexp2 (f : FmtV) (s : State) : Out := onStrand (.vexp2 f) s (vUnary f 0x6D s)
def execVlog2 (f : FmtV) (s : State) : Out := onStrand (.vlog2 f) s (vUnary f 0x6E s)
def execVtanh (f : FmtV) (s : State) : Out := onStrand (.vtanh f) s (vUnary f 0x6F s)
def execVsin (f : FmtV) (s : State) : Out := onStrand (.vsin f) s (vUnary f 0x70 s)
def execVcos (f : FmtV) (s : State) : Out := onStrand (.vcos f) s (vUnary f 0x71 s)

/-! ### Conversion, scaling, generator states (R46, R237 to R240) -/

/-- The generator state of a granule; the value at task start where none was stepped or seeded (R46). -/
def genInit (g : Nat) : BitVec 32 := 0x6D2B79F5 ^^^ BitVec.ofNat 32 g
def genAt (t : Task) (g : Nat) : BitVec 32 := lkpD t.gen g (genInit g)
/-- Source elements of width w whose bit 0 lies in a granule (R46). -/
def elemsIn (w g : Nat) : Nat := if w = 64 then 1 - g % 2 else 32 / w
def iterGen (n : Nat) (x : BitVec 32) : BitVec 32 := match n with | 0 => x | k + 1 => iterGen k (genStep x)
/-- The 16 random bits of source element i of width w (R46). -/
def srRand (t : Task) (w i : Nat) : Nat :=
  let g := w * i / 32
  let j := if w = 64 then 0 else i % (32 / w)
  let st := iterGen (j / 2 + 1) (genAt t g)
  if j % 2 = 0 then bitsN st 16 16 else bitsN st 0 16
/-- Every granule steps ⌈n/2⌉ times (R46). -/
def stepGens (w : Nat) (t : Task) : Task :=
  { t with gen := (List.range 32).foldl (fun m g => ins m g (iterGen ((elemsIn w g + 1) / 2) (genAt t g))) t.gen }

/-- One element of VCVT (R238). -/
def cvtElem (src dst : BitVec 4) (rm : RM) (sat : Bool) (x : Nat) : Nat :=
  let ws := fmtWidth src
  let wd := fmtWidth dst
  if isFloat src then
    if isFloat dst then roundF dst rm (decodeF src x)
    else wrapN wd (toIntF rm (intLo dst) (intHi dst) (decodeF src x))
  else
    let v := readInt (tySigned src) ws x
    if isFloat dst then roundF dst rm (ofIntF v)
    else if sat && decide (wd ≤ ws) then wrapN wd (max (intLo dst) (min (intHi dst) v))
    else wrapN wd v
/-- VCVT (R237, R238). -/
def execVcvt (f : FmtV) (s : State) : Out :=
  onStrand (.vcvt f) s fun h =>
    let sf : BitVec 4 := f.aux.extractLsb' 0 4
    let ws := fmtWidth sf
    let wd := fmtWidth f.fmt
    let ls := 1024 / ws
    let ld := 1024 / wd
    let k := f.fn.toNat % 8
    let sat := f.fn.getLsbD 3
    let x := readVS s h f.sa 0 1
    let p := readP s h f.pred.toNat
    let prior := priorVS s h f.dst 0
    let c := fun (i : Nat) => cvtElem sf f.fmt (rmOf f.rm (srRand h.t ws i)) sat (lane ws x i)
    let r : VReg := ofLanes 1024 wd ((List.range ld).map fun d =>
      if ls ≤ ld then
        (if k * ls ≤ d ∧ d < k * ls + ls ∧ active p ws (d - k * ls) then c (d - k * ls) else lane wd prior d)
      else if active p wd d then c (k * ld + d) else lane wd prior d)
    let s1 := putVS h f.dst 0 r f.lat.toNat s
    retire h (if f.rm = 4 then modTask s1 h.core (stepGens ws) else s1)

/-- x · 2^e: no format reaches beyond 5000 binades, so e is first brought into that range. -/
def scaleF (e : Int) (v : FVal) : FVal :=
  match v with
  | .fin neg m x => .fin neg m (x + max (-5000) (min 5000 e))
  | v => v
/-- VSCALE (R239). -/
def execVscale (f : FmtV) (s : State) : Out :=
  onStrand (.vscale f) s fun h =>
    let e := (rdG s h f.sb).toInt
    vLanes f (fun x _ _ => roundF f.fmt (rmOf f.rm 0) (scaleF e (decodeF f.fmt x))) s h
/-- VSCALE.vec (R239). -/
def execVscaleVec (f : FmtV) (s : State) : Out :=
  onStrand (.vscaleVec f) s (vLanes f (fun x y _ =>
    roundF f.fmt (rmOf f.rm 0) (scaleF (readInt true (fmtWidth f.fmt) y) (decodeF f.fmt x))) s)
/-- VSEED (R240). -/
def execVseed (f : FmtV) (s : State) : Out :=
  onStrand (.vseed f) s fun h =>
    let x := readVS s h f.sa f.aux 1
    let p := readP s h f.pred.toNat
    let seed := fun (m : AMap Nat (BitVec 32)) (g : Nat) =>
      if p.getLsbD g then ins m g (if lane 32 x g = 0 then genInit g else BitVec.ofNat 32 (lane 32 x g)) else m
    retire h (modTask s h.core fun t => { t with gen := (List.range 32).foldl seed t.gen })

/-! ### Comparison, selection, bits, integers (R241 to R243) -/

/-- The predicate of a comparison (R241). -/
def vcmpBits (fmt : BitVec 4) (c : Nat) (any : Bool) (p : BitVec 32) (x y : VReg) : BitVec 32 :=
  let w := fmtWidth fmt
  let one := fun (i : Nat) => vcmpLane fmt c (lane w x i) (lane w y i)
  let bit := fun (g : Nat) =>
    if 32 ≤ w then active p w (32 * g / w) && one (32 * g / w)
    else
      let l := (List.range (32 / w)).map fun j => one (g * (32 / w) + j)
      p.getLsbD g && (if any then l.any id else l.all id)
  BitVec.ofNat 32 ((List.range 32).foldl (fun a g => if bit g then a + 2 ^ g else a) 0)
def execVcmp (f : FmtV) (s : State) : Out :=
  onStrand (.vcmp f) s fun h =>
    let r := vcmpBits f.fmt (f.fn.toNat % 16) (f.fn.getLsbD 4) (readP s h f.pred.toNat) (readVS s h f.sa f.aux 1)
      (readVS s h f.sb f.aux 2)
    retire h (putP h f.dst.toNat r f.lat.toNat s)
/-- VSEL (R242): every lane of dst is written. -/
def execVsel (f : FmtV) (s : State) : Out :=
  onStrand (.vsel f) s fun h =>
    let w := fmtWidth f.fmt
    let x := readVS s h f.sa f.aux 1
    let r := mergeLanes (readP s h f.pred.toNat) w (readVS s h f.sb f.aux 2) (lane w x)
    retire h (putVS h f.dst f.aux r f.lat.toNat s)
def execVand (f : FmtV) (s : State) : Out := onStrand (.vand f) s (vLanes f (fun x y _ => x &&& y) s)
def execVor (f : FmtV) (s : State) : Out := onStrand (.vor f) s (vLanes f (fun x y _ => x ||| y) s)
def execVxor (f : FmtV) (s : State) : Out := onStrand (.vxor f) s (vLanes f (fun x y _ => x ^^^ y) s)
def execVnot (f : FmtV) (s : State) : Out :=
  onStrand (.vnot f) s (vLanes f (fun x _ _ => 2 ^ fmtWidth f.fmt - 1 - x) s)
def execVshl (f : FmtV) (s : State) : Out :=
  onStrand (.vshl f) s (vLanes f (fun x y _ => x * 2 ^ (y % fmtWidth f.fmt)) s)
def execVshr (f : FmtV) (s : State) : Out :=
  onStrand (.vshr f) s (vLanes f (fun x y _ => x / 2 ^ (y % fmtWidth f.fmt)) s)
def execVsra (f : FmtV) (s : State) : Out :=
  onStrand (.vsra f) s (vLanes f (fun x y _ =>
    wrapN (fmtWidth f.fmt) (readInt true (fmtWidth f.fmt) x / (2 ^ (y % fmtWidth f.fmt) : Nat))) s)
def execViadd (f : FmtV) (s : State) : Out := onStrand (.viadd f) s (vInt f (f.fn == 1) (fun _ a b => a + b) s)
def execVisub (f : FmtV) (s : State) : Out := onStrand (.visub f) s (vInt f (f.fn == 1) (fun _ a b => a - b) s)
def execVimul (f : FmtV) (s : State) : Out :=
  onStrand (.vimul f) s (vInt f false (fun w a b => if f.fn = 1 then a * b / (2 ^ w : Nat) else a * b) s)
def execVimin (f : FmtV) (s : State) : Out := onStrand (.vimin f) s (vInt f false (fun _ a b => min a b) s)
def execVimax (f : FmtV) (s : State) : Out := onStrand (.vimax f) s (vInt f false (fun _ a b => max a b) s)

/-! ### Reduction and data movement (R244 to R247) -/

def pairUp {α : Type} (g : α → α → α) (l : List α) : List α :=
  match l with | a :: b :: r => g a b :: pairUp g r | l => l
/-- The fixed pairwise order of R244 over a power of two of at most 128 items. -/
def treeFold {α : Type} (g : α → α → α) (d : α) (l : List α) : α :=
  ((List.range 7).foldl (fun acc _ => pairUp g acc) l).headD d
/-- Sum in format c with every step rounded under rm. -/
def sumStep (c : BitVec 4) (rm : RM) (rd : Bool) (a b : FVal) : FVal := decodeF c (roundF c rm (addF rd a b))
/-- The reduced value as bits (R244). -/
def vredVal (fmt : BitVec 4) (op : Nat) (rm : BitVec 3) (p : BitVec 32) (x : VReg) : Nat :=
  let w := fmtWidth fmt
  let n := 1024 / w
  let pick := fun {α : Type} (g : Nat → α) (d : α) => (List.range n).map fun i => if active p w i then g (lane w x i) else d
  if isFloat fmt then
    if op = 0 then
      let c : BitVec 4 := if fmt = 0 then 0 else 1
      roundF c .rne (treeFold (sumStep c (rmOf rm 0) (rm == 3)) (.fin true 0 0) (pick (decodeF fmt) (.fin true 0 0)))
    else
      roundF fmt .rne (treeFold (minMaxF (op == 1) false) (.inf (op == 1)) (pick (decodeF fmt) (.inf (op == 1))))
  else
    let v := pick (readInt (tySigned fmt) w) (if op = 0 then 0 else if op = 1 then intLo fmt else intHi fmt)
    wrapN w (treeFold (fun a b => if op = 0 then a + b else if op = 1 then max a b else min a b) 0 v)
def execVred (f : FmtV) (s : State) : Out :=
  onStrand (.vred f) s fun h =>
    let v := vredVal f.fmt (f.fn.toNat % 8) f.rm (readP s h f.pred.toNat) (readVS s h f.sa f.aux 1)
    let rw := if fmtWidth f.fmt = 64 then 64 else 32
    let r : VReg := if f.fn.getLsbD 3 then ofLanes 1024 rw (List.replicate (1024 / rw) v) else BitVec.ofNat 1024 v
    retire h (putVS h f.dst f.aux r f.lat.toNat s)
/-- VPERM (R245): the lanes of sa and sb as one list, indexed by sc. -/
def execVperm (f : FmtV) (s : State) : Out :=
  onStrand (.vperm f) s fun h =>
    let w := fmtWidth f.fmt
    let n := 1024 / w
    let x := readVS s h f.sa f.aux 1
    let y := readVS s h f.sb f.aux 2
    vLanes f (fun _ _ z => let j := z % (2 * n); if j < n then lane w x j else lane w y (j - n)) s h
/-- VBCAST (R246). -/
def execVbcast (f : FmtV) (s : State) : Out :=
  onStrand (.vbcast f) s fun h =>
    let v := (rdG s h f.sa).toNat % 2 ^ fmtWidth f.fmt
    let r := mergeLanes (readP s h f.pred.toNat) (fmtWidth f.fmt) (priorVS s h f.dst f.aux) fun _ => v
    retire h (putVS h f.dst f.aux r f.lat.toNat s)
/-- VBCAST.lane (R246). -/
def execVbcastLane (f : FmtV) (s : State) : Out :=
  onStrand (.vbcastLane f) s fun h =>
    let w := fmtWidth f.fmt
    let v := lane w (readVS s h f.sa f.aux 1) ((rdG s h f.sb).toNat % (1024 / w))
    let r := mergeLanes (readP s h f.pred.toNat) w (priorVS s h f.dst f.aux) fun _ => v
    retire h (putVS h f.dst f.aux r f.lat.toNat s)
/-- The lane that VINS and VEXT name (R246). -/
def laneIdx (s : State) (h : Here) (f : FmtV) : Nat :=
  if f.fn = 0 then bitsN f.aux 0 8 else (rdG s h f.sb).toNat % (1024 / fmtWidth f.fmt)
/-- VINS (R246). -/
def execVins (f : FmtV) (s : State) : Out :=
  onStrand (.vins f) s fun h =>
    let w := fmtWidth f.fmt
    let k := laneIdx s h f
    let prior := priorVS s h f.dst 0
    let r := if active (readP s h f.pred.toNat) w k then setLane w prior k (rdG s h f.sa).toNat else prior
    retire h (putVS h f.dst 0 r f.lat.toNat s)
/-- VEXT (R246): the x register is subject to the window like any V result. -/
def execVext (f : FmtV) (s : State) : Out :=
  onStrand (.vext f) s fun h =>
    let w := fmtWidth f.fmt
    let v := extend64 (tySigned f.fmt) w (lane w (readVS s h f.sa 0 1) (laneIdx s h f))
    let s1 := wrG h f.dst v s
    retire h (if f.dst = 0 then s1 else modTask s1 h.core (openWin s.ck (.x f.dst.toNat) f.lat.toNat))
/-- VMOV fn 0 (R247). -/
def execVmov (f : FmtV) (s : State) : Out := onStrand (.vmov f) s (vLanes f (fun x _ _ => x) s)
/-- VMOV fn 1 (R247). -/
def execVmovP (f : FmtV) (s : State) : Out :=
  onStrand (.vmovP f) s fun h =>
    let x := readVS s h f.sa f.aux 1
    let r := BitVec.ofNat 32 ((List.range 32).foldl (fun a g => if lane 32 x g ≠ 0 then a + 2 ^ g else a) 0)
    retire h (putP h f.dst.toNat r f.lat.toNat s)
/-- VMOV fn 2 (R247). -/
def execVmovV (f : FmtV) (s : State) : Out :=
  onStrand (.vmovV f) s fun h =>
    let p := readP s h f.sa.toNat
    let r : VReg := ofLanes 1024 32 ((List.range 32).map fun g => if p.getLsbD g then 2 ^ 32 - 1 else 0)
    retire h (putVS h f.dst f.aux r f.lat.toNat s)

/-! ### Strand queue forms (R252, R253) -/

/-- VPOPQ (R252): FORMAT on a mismatch leaves the item in vq. -/
def execVpopq (f : FmtV) (s : State) : Out :=
  onStrand (.vpopq f) s fun h =>
    match h.t.vq with
    | [] => qWait h (.qpop 5) s
    | (v, code) :: rest =>
      if code ≠ f.fmt then takeFault s h 6
      else
        let w := fmtWidth f.fmt
        let r := mergeLanes (readP s h f.pred.toNat) w (priorVS s h f.dst f.aux) (lane w v)
        retire h (putVS h f.dst f.aux r f.lat.toNat (modTask s h.core fun t => { t with vq := rest }))
/-- VPUSHQ (R253). -/
def execVpushq (f : FmtV) (s : State) : Out :=
  onStrand (.vpushq f) s fun h =>
    if 16 ≤ h.t.wq.length then qWait h (.qpush 6) s
    else retire h (modTask s h.core fun t => { t with wq := t.wq ++ [readVS s h f.sa f.aux 1], pushed := t.xissue })

/-! ### Softmax steps (R254, R255) -/

/-- FP32 operations on bits, each rounded once under RNE. -/
def f32sub (a b : Nat) : Nat := roundF 1 .rne (addF false (decodeF 1 a) (negF (decodeF 1 b)))
def f32add (a b : Nat) : Nat := roundF 1 .rne (addF false (decodeF 1 a) (decodeF 1 b))
def f32mul (a b : Nat) : Nat := roundF 1 .rne (mulF (decodeF 1 a) (decodeF 1 b))
def f32max (a b : Nat) : Nat := roundF 1 .rne (minMaxF true false (decodeF 1 a) (decodeF 1 b))
def f32exp2 (a : Nat) : Nat := unaryF 0x6D 1 .rne a
def f32nan : Nat := 0x7FC00000
def f32ninf : Nat := 0xFF800000
def f32one : Nat := 0x3F800000
/-- One step of online softmax: p and (m', l', α) (R254). -/
def softmaxStep (act : Nat → Bool) (sc : Nat → Nat) (m l : Nat) : List Nat × Nat × Nat × Nat :=
  let mm := (List.range 32).foldl (fun a i => if act i then f32max a (sc i) else a) (roundF 1 .rne (decodeF 1 m))
  if isNaN (decodeF 1 mm) then ((List.range 32).map fun i => if act i then f32nan else 0, f32nan, f32nan, f32nan)
  else if mm = f32ninf then (List.replicate 32 0, f32ninf, l, f32one)
  else
    let a := f32exp2 (f32sub m mm)
    let p := (List.range 32).map fun i => if act i then f32exp2 (f32sub (sc i) mm) else 0
    (p, mm, f32add (f32mul l a) (treeFold f32add 0 p), a)
def stateReg (m l a : Nat) : VReg := ofLanes 1024 32 [m, l, a]
/-- VSMAX (R254). -/
def execVsmax (f : FmtV) (s : State) : Out :=
  onStrand (.vsmax f) s fun h =>
    let x := readVS s h f.sa f.aux 1
    let st := readV s h f.sb.toNat 2
    let p := readP s h f.pred.toNat
    let (q, m, l, a) := softmaxStep (active p 32) (lane 32 x) (lane 32 st 0) (lane 32 st 1)
    retire h (putV h (f.dst.toNat + 1) (stateReg m l a) f.lat.toNat (putV h f.dst.toNat (ofLanes 1024 32 q) f.lat.toNat s))
/-- The two factors and the merged maximum of R255. -/
def mergeFactors (ma mb : Nat) : Nat × Nat × Nat :=
  let m := f32max ma mb
  if m = f32ninf then (m, f32one, f32one) else (m, f32exp2 (f32sub ma m), f32exp2 (f32sub mb m))
def mergeVal (a fa b fb : Nat) : Nat := f32add (f32mul a fa) (f32mul b fb)
/-- VMERGE (R255): the state register holds fA and fB in lanes 2 and 3. -/
def execVmerge (f : FmtV) (s : State) : Out :=
  onStrand (.vmerge f) s fun h =>
    let oa := readV s h f.sa.toNat 1
    let sa := readV s h (f.sa.toNat + 1) 2
    let ob := readV s h f.sb.toNat 3
    let sb := readV s h (f.sb.toNat + 1) 4
    let (m, fa, fb) := mergeFactors (lane 32 sa 0) (lane 32 sb 0)
    let o := mergeLanes (readP s h f.pred.toNat) 32 (priorVS s h f.dst 0) fun i => mergeVal (lane 32 oa i) fa (lane 32 ob i) fb
    let l := mergeVal (lane 32 sa 1) fa (lane 32 sb 1) fb
    retire h (putV h (f.dst.toNat + 1) (ofLanes 1024 32 [m, l, fa, fb]) f.lat.toNat (putV h f.dst.toNat o f.lat.toNat s))

/-! ### FP4 quantisation (R49, R256, R257) -/

/-- x / y for a finite nonzero y, as a value that rounds as the exact quotient does. -/
def divF (x y : FVal) : FVal :=
  match x, y with
  | .fin a m e, .fin b n f => ratVal (a != b) m n (e - f)
  | _, _ => .nan
def isFin (x : FVal) : Bool := match x with | .fin .. => true | _ => false
def isZeroF (x : FVal) : Bool := match x with | .fin _ m _ => m == 0 | _ => false
/-- The scale of a group: the smallest E3M5 value with 6·S·|B| ≥ max|x| (R49 step 3). -/
def groupScale (xs : List FVal) (b : FVal) : Nat :=
  if xs.all isZeroF then 0
  else
    let fits := fun (c : Nat) =>
      match e3m5 c with
      | some v => xs.all fun x => !ltF false (mulF (.fin false 6 0) (mulF v (absF b))) (absF x)
      | none => false
    (((List.range 254).map (· + 1)).find? fits).getD 0xFE
/-- A scale group quantised: its scale byte and eight codes (R49). A NaN group's codes are 0, also where the band scale alone makes it one
(DESIGN CHOICE, log 101: R49 gives 0b0000 for NaN and infinite inputs only). -/
def quantGroup (rm : Nat → RM) (xs : List FVal) (b : FVal) : Nat × List Nat :=
  if !isFin b || isZeroF b || !xs.all isFin then (0xFF, List.replicate 8 0)
  else
    let sc := groupScale xs b
    if sc = 0 then (0, xs.map fun x => roundF 6 .rne x)
    else
      let d := mulF b ((e3m5 sc).getD .nan)
      (sc, xs.zipIdx.map fun xi => roundF 6 (rm xi.2) (divF xi.1 d))
/-- VQUANT (R256). -/
def execVquant (f : FmtV) (s : State) : Out :=
  onStrand (.vquant f) s fun h =>
    let w := fmtWidth f.fmt
    let g := 128 / w
    let k := f.fn.toNat
    let x := readVS s h f.sa f.aux 1
    let b := decodeF 3 ((rdG s h f.sb).toNat % 2 ^ 16)
    let one := fun (acc : VReg × VReg) (gi : Nat) =>
      let xs := (List.range 8).map fun j => decodeF f.fmt (lane w x (8 * gi + j))
      let (sc, es) := quantGroup (fun j => rmOf f.rm (srRand h.t w (8 * gi + j))) xs b
      (setLane 32 acc.1 (g * k + gi) (es.foldr (fun e a => e % 16 + 16 * a) 0), setLane 8 acc.2 (g * k + gi) sc)
    let (e, c) := (List.range g).foldl one (lkpD h.t.v f.dst.toNat 0, lkpD h.t.v (f.dst.toNat + 1) 0)
    let s1 := putV h (f.dst.toNat + 1) c f.lat.toNat (putV h f.dst.toNat e f.lat.toNat s)
    retire h (if f.rm = 4 then modTask s1 h.core (stepGens w) else s1)
/-- VDEQ (R257). -/
def execVdeq (f : FmtV) (s : State) : Out :=
  onStrand (.vdeq f) s fun h =>
    let w := fmtWidth f.fmt
    let n := 1024 / w
    let x := readVS s h f.sa f.aux 1
    let sc := readVS s h f.sb f.aux 2
    let band := (rdG s h f.sc).toNat % 2 ^ 16
    let r := mergeLanes (readP s h f.pred.toNat) w (priorVS s h f.dst f.aux) fun i =>
      let e := n * f.fn.toNat + i
      roundF f.fmt (rmOf f.rm 0) (e2m1Val (lane 4 x e) (lane 8 sc (e / 8)) band)
    retire h (putVS h f.dst f.aux r f.lat.toNat s)

end Sys2Proof.Machine
end

