-- ==== Sys2Proof/Machine/VecMem.lean ====
section
/-! DEFINITION. Scratch and FIFO forms of the XS (R248 to R251). -/

namespace Sys2Proof.Machine

/-- What the checks of scratch ranges answer. -/
inductive ScrChk
  | ok
  | fault (cls : Nat) (a : Nat)
  | hold
  deriving DecidableEq, Repr

/-- Checks 2 to 4 of R248 over ranges of n bytes: below the end, declared to the crew, in the mode. -/
def scrCheck (s : State) (c : ClusterId) (declared : BitVec 48) (m : Mode) (addrs : List Nat) (n : Nat) : ScrChk :=
  match addrs.find? (fun a => decide (0xC00000 < a + n)) with
  | some a => .fault 10 a
  | none =>
    match addrs.find? (fun a => !(banksOf a n).all fun b => declared.getLsbD b) with
    | some a => .fault 10 a
    | none =>
      let k := clusterAt s c
      if addrs.any fun a => (banksOf a n).any fun b => inTransit s c b then .hold
      else match addrs.find? (fun a => !(banksOf a n).all fun b => decide ((bankAt k b).mode = m)) with
        | some a => .fault 10 a
        | none => .ok
/-- Check 1 of R248, then the others. D0 of ALIGN and BANKGROUP is the address of the lowest lane that fails, and for a FIFO form the
base of its bank (DESIGN CHOICE, log 99: R328 names no lane, and only "scratch address or bank"). -/
def scrAccess (s : State) (h : Here) (align : Nat) (declared : BitVec 48) (m : Mode) (addrs : List Nat) (n : Nat)
    (k : State) : State :=
  match addrs.find? (fun a => decide (a % align ≠ 0)) with
  | some a => takeFault s h 9 (BitVec.ofNat 64 a)
  | none =>
    match scrCheck s (CoreId.cluster h.core) declared m addrs n with
    | .ok => k
    | .fault cls a => takeFault s h cls (BitVec.ofNat 64 a)
    | .hold => hold h .transit s

/-- The address of VLDS and VSTS (R248). -/
def vAddr (s : State) (h : Here) (f : FmtV) : Nat := (rdG s h f.sa + 32 * f.aux.signExtend 64).toNat
/-- The scratch write overlaps operand bytes of a queued or running matrix entry of the core (R271). -/
def mxOverlap (k : Core) (addrs : List Nat) (n : Nat) : Bool :=
  k.mxq.any fun e => (mxRanges e).any fun r => addrs.any fun a => decide (a < r.1 + r.2) && decide (r.1 < a + n)
/-- The bytes at some addresses that unordered writes of other parties overwrote, the latest write first (R123). -/
def othersOlds (s : State) (c : ClusterId) (self : CoreId) (l : List Nat) : List ScrLayer :=
  ((scrLayers (modTask s self fun t => { t with windows := [] }) c (some self) 0).map fun o =>
    { o with old := o.old.filter fun x => l.contains x.1 }).filter fun o => !o.old.isEmpty
/-- Those writes have landed under a later one at these addresses. -/
def landOthers (s : State) (c : ClusterId) (self : CoreId) (l : List Nat) : State :=
  let ent := fun (e : Entry) => if CoreId.cluster e.core = c then { e with old := oldsOutside l e.old } else e
  let s2 := (queuesOf c).foldl (fun acc q => setQueue acc q ((queueAt acc q).map ent)) (landWins s c (some self) l)
  [0, 1].foldl (fun acc u => modSlab acc ⟨c.die, u⟩ fun b => { b with fired := b.fired.map ent }) s2
/-- Another party's overwritten bytes are kept under a later XS write: until its window or theirs closes, and while their own write has
not landed (R123, R251). -/
def keepLayer (ck lat : Nat) (t : Task) (o : ScrLayer) : Task :=
  let n := match o.ends with | some e => min lat (e - ck) | none => lat
  if n = 0 then t
  else { t with windows := t.windows ++ [{ dst := .scr o.old, closes := t.xissue + n, issued := t.xissue, since := ck, src := some o.src }] }
/-- Write scratch bytes from the XS and open their window (R166, R249). Bytes that an unordered write of another party overwrote there
are seen no longer than this window: from issue + lat a read returns the written bytes (R251). -/
def xsScrWrite (h : Here) (w : List (Nat × Byte)) (lat : Nat) (s : State) : State :=
  let c := CoreId.cluster h.core
  let olds := othersOlds s c h.core (w.map (·.1))
  let s0 := if olds.isEmpty then s else landOthers s c h.core (w.map (·.1))
  let old := w.map fun x => (x.1, scrByte (clusterAt s c) x.1)
  let s1 := modCluster s0 c fun k => w.foldl (fun acc x => scrWrite acc x.1 [x.2]) k
  modTask s1 h.core fun t => openWin s.ck (.scr old) lat (olds.reverse.foldl (keepLayer s.ck lat) t)

/-- VLDS (R249). -/
def execVlds (f : FmtV) (s : State) : Out :=
  onStrand (.vlds f) s fun h =>
    let a := vAddr s h f
    scrAccess s h 32 h.t.crew.scrm .scratch [a] 128 <|
      let v := ofBytes (scrSeen s (CoreId.cluster h.core) (some h.core) 0 a 128)
      let w := fmtWidth f.fmt
      let r := mergeLanes (readP s h f.pred.toNat) w (priorVS s h f.dst 0) (lane w (BitVec.ofNat 1024 v))
      retire h (putV h f.dst.toNat r f.lat.toNat s)
/-- VSTS (R249): inactive lanes leave their bytes; a byte of a narrow lane is written with its lane. -/
def execVsts (f : FmtV) (s : State) : Out :=
  onStrand (.vsts f) s fun h =>
    let a := vAddr s h f
    scrAccess s h 32 h.t.crew.scrm .scratch [a] 128 <| if mxOverlap h.k [a] 128 then hold h .mxread s else
      let x := readV s h f.dst.toNat 1
      let w := fmtWidth f.fmt
      let p := readP s h f.pred.toNat
      let bytes := (List.range 128).filterMap fun i =>
        if active p w (8 * i / w) then some (a + i, BitVec.ofNat 8 (lane 8 x i)) else none
      retire h (xsScrWrite h bytes f.lat.toNat s)
/-- VLDSX (R249): a lane of each active address. -/
def execVldsx (f : FmtV) (s : State) : Out :=
  onStrand (.vldsx f) s fun h =>
    let w := fmtWidth f.fmt
    let b := w / 8
    let p := readP s h f.pred.toNat
    let addr := fun (i : Nat) =>
      (rdG s h f.sa + BitVec.ofNat 64 b * f.aux.signExtend 64 + BitVec.ofNat 64 i * rdG s h f.sb).toNat
    let act := (List.range (1024 / w)).filter (active p w)
    scrAccess s h b h.t.crew.scrm .scratch (act.map addr) b <|
      let r := mergeLanes p w (priorVS s h f.dst 0) fun i =>
        ofBytes (scrSeen s (CoreId.cluster h.core) (some h.core) 0 (addr i) b)
      retire h (putV h f.dst.toNat r f.lat.toNat s)

/-- The FIFO bank that holds an address (R250). -/
def fifoAddr (s : State) (h : Here) (f : FmtV) : Nat := (rdG s h f.sa).toNat / 2 ^ 18 * 2 ^ 18
/-- VLDS.fifo (R250). -/
def execVldsFifo (f : FmtV) (s : State) : Out :=
  onStrand (.vldsFifo f) s fun h =>
    let a := fifoAddr s h f
    let c := CoreId.cluster h.core
    scrAccess s h 1 h.t.crew.fifom .fifo [a] 1 <|
      match (bankAt (clusterAt s c) (a / 2 ^ 18)).fifo with
      | [] => hold h .fifo s
      | l :: rest =>
        let s1 := modBank s c (a / 2 ^ 18) fun k => { k with fifo := rest }
        retire h (putV h (f.dst.toNat + 1) (l.extractLsb' 1024 1024) f.lat.toNat
          (putV h f.dst.toNat (l.extractLsb' 0 1024) f.lat.toNat s1))
/-- VSTS.fifo (R250). -/
def execVstsFifo (f : FmtV) (s : State) : Out :=
  onStrand (.vstsFifo f) s fun h =>
    let a := fifoAddr s h f
    let c := CoreId.cluster h.core
    scrAccess s h 1 h.t.crew.fifom .fifo [a] 1 <|
      if mxOverlap h.k [a] (2 ^ 18) then hold h .mxread s
      else if 1024 ≤ (bankAt (clusterAt s c) (a / 2 ^ 18)).fifo.length then hold h .fifo s
      else
        let l : Line := readV s h (f.dst.toNat + 1) 2 ++ readV s h f.dst.toNat 1
        retire h (modBank s c (a / 2 ^ 18) fun k => { k with fifo := k.fifo ++ [l] })

end Sys2Proof.Machine
end

