-- ==== Sys2Proof/Machine/Engine.lean ====
section
/-! DEFINITION. What the engines share (R121, R122, R273 to R279): accesses to objects and scratch by an entry, the issue of
a command, the fault of an entry, and its completion. -/

namespace Sys2Proof.Machine

/-! ### Answers of an access -/

/-- The answer of a piece of an entry's work: a value, a hold of the queue, or a stop (R277, R278). -/
inductive EAns (α : Type)
  | ok (s : State) (v : α)
  | hold (s : State)
  | fault (s : State) (f : FInfo)
def eBind {α β : Type} (x : EAns α) (k : State → α → EAns β) : EAns β :=
  match x with
  | .ok s v => k s v
  | .hold s => .hold s
  | .fault s f => .fault s f

/-- The accessor of an entry. CE, GE and AE belong to their cluster; the engines of a slab or a die lie outside every cluster
(R22, R106), which the number 10 stands for. -/
def entWho (q : QueueId) (e : Entry) : Who :=
  { pid := e.pid, die := q.die, slab := coreSlab e.core, clus := if isSlabQ q.q then 10 else e.core.core / 4, core := none, task := e.taskId,
    sup := e.lseq == 0, entry := some (q, e.serial) }
def entClus (e : Entry) : ClusterId := CoreId.cluster e.core
def entReg (e : Entry) (i : Nat) : W64 := e.regs.getD i 0
def entCap (e : Entry) (i : Nat) : CapReg := e.caps.getD i {}
def capPos (c : CapReg) : Int := capBase c + capOff c

/-- The entry's record of a class under R278 from a check's own words: D1 or D2 names the entry (R328). -/
def entFault (e : Entry) (f : FInfo) : FInfo :=
  let tag : W64 := e.tag.zeroExtend 64
  match f.cls with
  | 3 | 6 | 10 => { f with d1 := tag }
  | 7 | 13 => { f with d2 := tag }
  | _ => f
/-- A home's refusal of an entry's access: CONFLICT with the owner, or REMOTE_REFUSED with its reason (R278). -/
def entRefused (e : Entry) (r : Res) (reason : Nat) (owner : W64) : FInfo :=
  if reason = 0 then { cls := 13, d0 := BitVec.ofNat 64 r.loc.byte, d1 := owner, d2 := e.tag.zeroExtend 64, oid := r.loc.oid }
  else { cls := 14, d0 := e.tag.zeroExtend 64, d1 := 1, d2 := BitVec.ofNat 64 reason, oid := r.loc.oid, pos := some (BitVec.ofNat 64 r.loc.byte) }

/-! ### Object bytes (R96, R277) -/

/-- Rewrite an entry where it stands: in its queue, or among the fired sends of its slab. -/
def modEntry (s : State) (q : QueueId) (serial : Nat) (f : Entry → Entry) : State :=
  let g := fun (e : Entry) => if e.serial = serial then f e else e
  let s1 := setQueue s q ((queueAt s q).map g)
  if q.q = .le then modSlab s1 ⟨q.die, q.unit⟩ fun b => { b with fired := b.fired.map g } else s1
/-- Acknowledgements that an entry still awaits (R349). -/
def addAck (s : State) (q : QueueId) (serial : Nat) : State := modEntry s q serial fun e => { e with acks := e.acks + 1 }
def entryAck (s : State) (q : QueueId) (serial : Nat) : State := modEntry s q serial fun e => { e with acks := e.acks - 1 }
def firedAt (s : State) (q : QueueId) : List Entry := if q.q = .le then (slabAt s ⟨q.die, q.unit⟩).fired else []
/-- The entry of a queue by its serial number, queued or fired. -/
def entryAt (s : State) (q : QueueId) (serial : Nat) : Option Entry :=
  (queueAt s q ++ firedAt s q).find? fun e => e.serial == serial
/-- Every write of the entry is acknowledged. -/
def allAcked (s : State) (q : QueueId) (serial : Nat) : Bool := match entryAt s q serial with | some e => e.acks == 0 | none => true
/-- The host address of a byte of a host object (R96, R356). -/
def hostAddr (s : State) (pid oid : BitVec 32) (byte : Nat) : Option Nat :=
  match (s.pkgs.flatMap fun p => p.2.regions).find? (fun r => r.pid == pid && r.oid == oid) with
  | some r => some (r.addr.toNat + byte)
  | none => none
/-- A check's answer as an entry meets it: an unmapped extent posts its record and holds the queue (R92). -/
def entChk {α : Type} (w : Who) (e : Entry) (x : State × Chk) (k : State → Res → EAns α) : EAns α :=
  match x.2 with
  | .fault f => .fault x.1 (entFault e f)
  | .moving => .hold x.1
  | .unmapped r => .hold (postExtent x.1 w r)
  | .ok r => k x.1 r
/-- A host object over no registered region takes EXTENT (R96, R328). -/
def noRegion (r : Res) : FInfo :=
  { cls := 8, d0 := BitVec.ofNat 64 r.loc.byte, d1 := BitVec.ofNat 64 r.tkey.ext, d2 := r.loc.facet.zeroExtend 64, oid := r.loc.oid }
/-- A fault of an access to object bytes names no place of its own for ENGFAULT: the entry stopped at the access's byte (R306). -/
def atByte (a : Nat) (x : State × Chk) : State × Chk :=
  match x.2 with
  | .fault f => (x.1, .fault { f with pos := some (f.pos.getD (BitVec.ofNat 64 a)) })
  | _ => x
/-- Read n bytes at a resolved place within one line. -/
def entReadAt (w : Who) (e : Entry) (n : Nat) (s : State) (r : Res) : EAns Nat :=
  if r.host then
    match hostAddr s w.pid r.loc.oid r.loc.byte with
    | some a => .ok s (ofBytes (memBytes s.hostMem a n))
    | none => .fault s (noRegion r)
  else match homeLoad s w r n false with
    | .ok s1 (d, _) => .ok s1 (lineGet d (r.loc.byte % 256) n)
    | .conflict o => .fault s (entRefused e r 0 o)
    | .refused why => .fault s (entRefused e r why 0)
/-- Write n bytes at the home of a line: published at once, marked until the entry completes, the version raised once for the
entry (R86, R112, R277). -/
def entStoreAt (w : Who) (e : Entry) (n v : Nat) (s : State) (r : Res) : EAns Unit :=
  if r.host then
    match hostAddr s w.pid r.loc.oid r.loc.byte with
    | some a => .ok { s with hostMem := memPutAll s.hostMem a (bytesOf n v) } ()
    | none => .fault s (noRegion r)
  else match refusesFrom s w.die r.home r.pa with
    | some why => .fault s (entRefused e r why 0)
    | none =>
      let l := homeLine s r
      let off := r.loc.byte % 256
      let mask := wordsTouched off n
      if conflicts w l mask false then .fault s (entRefused e r 0 (ownerOf w l mask))
      else
        let s0 := closedYield (bring s r) w r.key mask
        let l0 := homeLine s0 r
        let l1 := publishWords l0 mask (lineSet l0.data off n v) 0
        let mine := fun (m : Mark) => w.entry == some (m.q, m.serial)
        let l2 : HLine := match w.entry with
          | none => bumpVer l1
          | some (q, sn) =>
            if l1.marks.any mine then
              { l1 with marks := l1.marks.map fun m => if mine m then { m with mask := m.mask ||| mask } else m }
            else bumpVer { l1 with marks := l1.marks ++ [{ q := q, serial := sn, mask := mask }] }
        .ok (touchExtent (harm (putLine s0 r.key l2) r.key) w r) ()

/-- Write n bytes at a resolved place within one line. Copy, gather and link engines send a WRITE to a home on another die
(R346, R349, R351); the tables and records of AE and SU are written in place (log 11). -/
def entWriteAt (w : Who) (e : Entry) (n v : Nat) (s : State) (r : Res) : EAns Unit :=
  match w.entry with
  | some (q, sn) =>
    if !r.host && r.home.die != q.die && (q.q == .ce0 || q.q == .ce1 || q.q == .ge || q.q == .le) then
      .ok (addAck (sendPkt s q.die r.home.die e.tag (.ewrite e.pid r (bytesOf n v) q sn)) q sn) ()
    else entStoreAt w e n v s r
  | none => entStoreAt w e n v s r

/-- The pieces of n bytes at a, each inside one tile line. -/
def pieces (fuel : Nat) (a n : Nat) : List (Nat × Nat) :=
  match fuel with
  | 0 => []
  | k + 1 => if n = 0 then [] else let m := min n (256 - a % 256); (a, m) :: pieces k (a + m) (n - m)
def piecesOf (a n : Nat) : List (Nat × Nat) := pieces (n / 256 + 2) a n
/-- Read the bytes at object byte a through a capability, lowest first. -/
def entRead (w : Who) (e : Entry) (c : CapReg) (rights : Nat) (host : Bool) (s : State) (a : Int) (n : Nat) : EAns Nat :=
  if a < 0 then .fault s (entFault e { cls := 3, d0 := BitVec.ofInt 64 a, oid := capOid c })
  else (piecesOf a.toNat n).foldl (fun acc p =>
    eBind acc fun s1 v =>
      entChk w e (atByte p.1 (checkAcc s1 w 0 c { rights := rights, n := p.2, align := 1, host := host } p.1)) fun s2 r =>
        eBind (entReadAt w e p.2 s2 r) fun s3 x => .ok s3 (v + 2 ^ (8 * (p.1 - a.toNat)) * x)) (.ok s 0)
/-- Write n bytes at object byte a through a capability. -/
def entWrite (w : Who) (e : Entry) (c : CapReg) (rights : Nat) (host : Bool) (s : State) (a : Int) (n v : Nat) : EAns Unit :=
  if a < 0 then .fault s (entFault e { cls := 3, d0 := BitVec.ofInt 64 a, oid := capOid c })
  else (piecesOf a.toNat n).foldl (fun acc p =>
    eBind acc fun s1 _ =>
      entChk w e (atByte p.1 (checkAcc s1 w 0 c { rights := rights, n := p.2, align := 1, host := host } p.1)) fun s2 r =>
        entWriteAt w e p.2 (v / 2 ^ (8 * (p.1 - a.toNat)) % 2 ^ (8 * p.2)) s2 r) (.ok s ())

/-! ### Scratch (R80, R123, R282) -/

/-- The mode check of an entry's scratch bytes: TRANSIT stalls it, a wrong mode stops it (R277 step 5). -/
def entScr {α : Type} (s : State) (e : Entry) (c : ClusterId) (m : Mode) (a n : Nat) (k : EAns α) : EAns α :=
  let cl := clusterAt s c
  let bs := banksOf a n
  if 0xC00000 < a + n then .fault s (entFault e { cls := 10, d0 := BitVec.ofNat 64 a })
  else if bs.any fun b => inTransit s c b then .hold s
  else if bs.all fun b => decide ((bankAt cl b).mode = m) then k
  else .fault s (entFault e { cls := 10, d0 := BitVec.ofNat 64 a })
def entScrRead (s : State) (e : Entry) (c : ClusterId) (a n : Nat) : EAns Nat :=
  entScr s e c .scratch a n (.ok { s with free := s.free + 1 } (ofBytes (scrSeen s c none e.serial a n)))
def isHalo (e : Entry) : Bool := match e.cmd with | .halo _ => true | _ => false
/-- Write scratch; the bytes overwritten stay visible to unordered readers of that cluster while the entry runs. A HALO face lands
with its signal, for which a reader that is ordered with it waits (R123, R285). -/
def entScrWrite (s : State) (q : QueueId) (e : Entry) (c : ClusterId) (a n v : Nat) : EAns Unit :=
  entScr s e c .scratch a n <|
    let was := (scrRead (clusterAt s c) a n).zipIdx.map fun x => (a + x.2, x.1)
    let s1 := modCluster s c fun k => scrWrite k a (bytesOf n v)
    .ok (if c = entClus e ∧ !isHalo e then modEntry s1 q e.serial fun x => { x with old := was ++ x.old } else s1) ()
/-- Append or pop one FIFO entry of 256 bytes; the entry waits while it cannot (R250, R282). -/
def entFifoPush (s : State) (e : Entry) (a v : Nat) : EAns Unit :=
  let c := entClus e
  entScr s e c .fifo a 256 <|
    if 1024 ≤ (bankAt (clusterAt s c) (a / 2 ^ 18)).fifo.length then .hold s
    else .ok (modBank s c (a / 2 ^ 18) fun k => { k with fifo := k.fifo ++ [BitVec.ofNat 2048 v] }) ()
def entFifoPop (s : State) (e : Entry) (a : Nat) : EAns Nat :=
  let c := entClus e
  entScr s e c .fifo a 256 <|
    match (bankAt (clusterAt s c) (a / 2 ^ 18)).fifo with
    | [] => .hold s
    | l :: rest => .ok (modBank s c (a / 2 ^ 18) fun k => { k with fifo := rest }) l.toNat

/-! ### Issue (R273 to R276) -/

/-- The queue that a core's command enters (R273). -/
def queueFor (c : CoreId) (q : EngQ) : QueueId :=
  { die := c.die, unit := if isSlabQ q then (coreSlab c).slab else c.core / 4, q := q }
def ceFor (c : CoreId) : EngQ := if cix c % 2 = 0 then .ce0 else .ce1
def queueDepth (q : EngQ) : Nat := match q with | .he | .le => 64 | .rs => 8 | .su => 16 | _ => 32

/-- What the issue checks of a form answer (R275). -/
inductive IAns
  | ok (s : State)
  | fault (s : State) (f : FInfo)
  | hold (s : State) (why : HoldWhy)
def iBind (x : IAns) (k : State → IAns) : IAns :=
  match x with
  | .ok s => k s
  | .fault s f => .fault s f
  | .hold s w => .hold s w
def iFail (s : State) (cls d0 : Nat) (oid : BitVec 32 := 0) : IAns := .fault s { cls := cls, d0 := BitVec.ofNat 64 d0, oid := oid }
/-- The answer of access `k` of the form: a MOVING object holds it, and it goes on from check 7 (R74). -/
def iChk (x : State × Chk) (k : Nat) : IAns :=
  match x.2 with
  | .fault f => .fault x.1 f
  | .moving => .hold x.1 (.movingAt k)
  | .unmapped _ => .ok x.1
  | .ok _ => .ok x.1
def iGuard (s : State) (ok : Bool) (cls d0 : Nat) (oid : BitVec 32 := 0) : IAns := if ok then .ok s else iFail s cls d0 oid
/-- FORMAT with the object's word 0 (R328). -/
def word0Of (s : State) (h : Here) (c : CapReg) : Nat :=
  (wRead (if capOid c = 0 then physWord0 else otWord s h.t.pid h.core.die (capOid c).toNat 0)).toNat
/-- Check 1 of R275 for the wait and signal semaphores. -/
def iSems (s : State) (h : Here) (f : FmtE) : IAns :=
  iBind (iGuard s (f.wv == 0 || semAllowed h.t f.wsem.toNat) 3 f.wsem.toNat) fun s1 =>
    iGuard s1 (f.sv == 0 || semAllowed h.t f.ssem.toNat) 3 f.ssem.toNat
/-- Check 5 of R275: below the end, in banks declared in SCRM, or inside one bank of FIFOM where the form admits FIFO. -/
def inFifo (t : Task) (a : Nat) : Bool := t.crew.fifom.getLsbD (a / 2 ^ 18)
def iScratch (s : State) (h : Here) (a n : Nat) (fifo : Bool) : IAns :=
  let t := h.t
  let ok := decide (a + n ≤ 0xC00000) &&
    (if fifo && inFifo t a then decide (n = 0 ∨ a / 2 ^ 18 = (a + n - 1) / 2 ^ 18) && n % 256 == 0
     else (banksOf a n).all fun b => t.crew.scrm.getLsbD b)
  iGuard s ok 10 a

/-- The entry that a form queues. -/
def mkEntry (s : State) (h : Here) (i : Instr) (f : FmtE) (regs : List W64) (caps : List CapReg) (fifo : Bool) : Entry :=
  { cmd := i, serial := s.serial + 1, tag := h.t.etag, core := h.core, taskId := h.t.taskId, lseq := h.t.crew.lseq,
    pid := h.t.pid, pc := pcOf h, regs := regs, caps := caps, wv := f.wv == 1, wsem := f.wsem.toNat, wcnt := f.wcnt.toNat,
    sv := f.sv == 1, ssem := f.ssem.toNat, dst := f.dst.toNat, fifo := fifo, since := s.ck }
/-- Queued forms return the entry tag at once; result forms interlock dst until they complete (R276). -/
def isResult (i : Instr) : Bool :=
  match i with
  | .kvmap _ | .kvmapLen _ | .kvunmap _ | .cursRd _ | .cursPlay _ | .cursGen _ | .cursInit _ | .cursFree _ | .cursRdc _
  | .trunc _ | .commit _ | .commitSnap _ | .sinpop _ | .launch _ => true
  | _ => false
def takeTag (h : Here) (i : Instr) (f : FmtE) (s : State) : State :=
  let s1 := if isResult i then
      (if f.dst = 0 then s else modTask s h.core fun t => { t with pendReg := t.pendReg ++ [(f.dst.toNat, t.etag)] })
    else wrG h f.dst (h.t.etag.zeroExtend 64) s
  modTask s1 h.core fun t => { t with etag := nextTag t.etag }
/-- Issue: the checks, the release of R121 at a scope, a place in the queue, the tag. -/
def engIssue (i : Instr) (f : FmtE) (q : EngQ) (chk : State → Here → IAns) (regs : Here → List W64) (caps : Here → List CapReg)
    (scope : State → Here → Nat) (fifo : Here → Bool) (s : State) (h : Here) : State :=
  match iBind (iSems s h f) fun s1 => chk s1 h with
  | .fault s1 fi => faultOf s1 h fi
  | .hold s1 why => hold h why s1
  | .ok s1 =>
    releaseThen s1 h (scope s1 h) none fun s2 =>
      let qid := queueFor h.core q
      let l := queueAt s2 qid
      if queueDepth q ≤ l.length then hold h .engineFull s2
      else
        let e := mkEntry s2 h i f (regs h) (caps h) (fifo h)
        retire h (takeTag h i f (setQueue { s2 with serial := s2.serial + 1 } qid (l ++ [e])))

/-! ### Faults, completion (R122, R277, R278) -/

def srcCode (q : EngQ) : Nat :=
  match q with | .ce0 => 0 | .ce1 => 1 | .ge => 2 | .he => 3 | .le => 4 | .ae => 5 | .su => 6 | .rs => 13
/-- LTAG of a launch: bits of its packet (R135). -/
def ltagOf (s : State) (pid lseq : BitVec 32) : BitVec 32 :=
  match partAt s pid with
  | some p => (match lkp p.launches lseq with | some l => l.packet.extractLsb' 960 32 | none => 0)
  | none => 0
/-- W3 of the ENGFAULT record: the byte or index where the entry stopped (R306); CUR for KVABSENT (R300). Where the fault has no
such place the value is free (log 63). -/
def stopPos (s : State) (f : FInfo) : W64 :=
  if f.cls = 18 then f.d1
  else if f.cls = 3 ∨ f.cls = 8 ∨ f.cls = 9 ∨ f.cls = 10 ∨ f.cls = 13 ∨ f.cls = 17 then f.d0
  else f.pos.getD (Config.freeBits s.free 901)
/-- R278: the entry and its queue halt, a record and an ENGFAULT event are posted, the issuing task is suspended at the
next instruction it would issue. The record of the supervisor's own entry goes to the package management controller, and the
supervisor stops (R323). -/
def engFault (s : State) (q : QueueId) (e : Entry) (f : FInfo) : State :=
  let oid := if f.oid = 0 then capOid (entCap e 0) else f.oid
  let r : FaultRec :=
    { cls := f.cls, src := srcCode q.q, susp := true, clus := e.core.core / 4, cix := cix e.core, oid := oid,
      taskId := e.taskId, ltag := ltagOf s e.pid e.lseq, lseq := e.lseq, pc := e.pc, d0 := f.d0, d1 := f.d1, d2 := f.d2 }
  let s1 := modEntry { s with free := s.free + 1 } q e.serial fun x => { x with st := .halted, stop := f.cls }
  let s2 := modTaskId s1 e.pid e.taskId fun t =>
    let t1 := postEvent (eventRec 3 (srcCode q.q) oid (e.tag.zeroExtend 64) (BitVec.ofNat 64 f.cls) (stopPos s f)) t
    if t1.susp.isSome then t1 else suspendTask r (freezeRemain s t1)
  if e.lseq == 0 then
    modSlab (modPkg s2 (pkgOf e.core.die) fun p => { p with frecs := p.frecs ++ [r] }) (coreSlab e.core) fun b => { b with supst := 1 }
  else postRec s2 (coreSlab e.core) r

/-- Marks of an entry leave every line (R112). -/
def dropMarks (s : State) (q : QueueId) (serial : Nat) : State :=
  mapL2 s fun _ l => { l with marks := l.marks.filter fun m => !(m.q == q && m.serial == serial) }
/-- The result of a result form reaches its register and ends the interlock (R276). -/
def landResult (n : Nat) (tag : BitVec 32) (v : W64) (t : Task) : Task :=
  if t.pendReg.contains (n, tag) then
    { t with a := if n = 0 then t.a else ins t.a n v, pendReg := t.pendReg.filter (· != (n, tag)) }
  else t
/-- The head of a queue leaves it; the wait of the next one counts from now (R325). -/
def popQueue (s : State) (q : QueueId) (serial : Nat) : State :=
  match queueAt s q with
  | [] => s
  | e :: rest =>
    if e.serial != serial then s
    else match rest with
      | [] => setQueue s q []
      | x :: r => setQueue s q ({ x with since := s.ck } :: r)
def signalEntry (s : State) (e : Entry) : State := if e.sv then addSem s (entClus e) e.ssem 1 else s
/-- An entry's scratch writes have landed over the XS writes that they overwrote (R123). -/
def landEntry (s : State) (e : Entry) : State :=
  if e.old.isEmpty then s else landWins s (entClus e) none (e.old.map (·.1))
/-- Completion: writes are visible, marks go, the entry signals, the result lands, the entry leaves (R122, R277). -/
def completeEntry (s : State) (q : QueueId) (e : Entry) : State :=
  let s1 := signalEntry (dropMarks (landEntry s e) q e.serial) e
  let s2 := modTaskId s1 e.pid e.taskId (landResult e.dst e.tag e.result)
  let s3 := popQueue s2 q e.serial
  let s4 := if q.q = .le then modSlab s3 ⟨q.die, q.unit⟩ fun b => { b with fired := b.fired.filter fun x => x.serial != e.serial } else s3
  let s5 := match q.q with
    | .he => modDie s4 q.die fun d => { d with heTurn := 1 - q.unit }
    | .le => modDie s4 q.die fun d => { d with leTurn := 1 - q.unit }
    | _ => s4
  reapCrews s5 (entClus e)

end Sys2Proof.Machine
end

