-- ==== Sys2Proof/Machine/EngineIssue.lean ====
section
/-! DEFINITION. Issue of the engine commands: the checks of R275 for each form, and the entry queued (R274 to R291, R296,
R303, R304). -/

namespace Sys2Proof.Machine

/-- The values of sa, sb and sc, and the capabilities they name. -/
def regsOf (s : State) (f : FmtE) (h : Here) : List W64 := [rdG s h f.sa, rdG s h f.sb, rdG s h f.sc]
def capAt (h : Here) (r : BitVec 6) : CapReg := rdC h.t r
def partScope (_ : State) (_ : Here) : Nat := 3
def noFifo (_ : Here) : Bool := false

/-! ### Copy and gather (R279 to R283) -/

/-- The extents of a box along a, b, c, d, and its number of lines (R279). -/
def boxDims (x : W64) : Nat × Nat × Nat × Nat := (bitsN x 24 8 + 1, bitsN x 32 8 + 1, bitsN x 40 8 + 1, bitsN x 48 8 + 1)
def boxLines (x : W64) : Nat := let d := boxDims x; d.1 * d.2.1 * d.2.2.1 * d.2.2.2
/-- Box line n as (i, j, k, l), i fastest (R280). -/
def boxLine (x : W64) (n : Nat) : Nat × Nat × Nat × Nat :=
  let d := boxDims x
  (n % d.1, n / d.1 % d.2.1, n / (d.1 * d.2.1) % d.2.2.1, n / (d.1 * d.2.1 * d.2.2.1))
/-- The global coordinates of box line (i, j, k, l): b steps in units of 8 along w for a DIST object (R280). -/
def boxCoord (dist : Bool) (co : Nat × Nat × Nat × Nat) (p : Nat × Nat × Nat × Nat) : Nat × Nat × Nat × Nat :=
  (co.1 + p.1, co.2.1 + (if dist then 8 else 1) * p.2.1, co.2.2.1 + p.2.2.1, co.2.2.2 + p.2.2.2)
/-- The object byte of a line of the box (R280). -/
def boxByte (dist : Bool) (c : CapReg) (g : Nat × Nat × Nat × Nat) (q : Nat × Nat × Nat × Nat) : Int :=
  capPos c + 256 * (lineNo g q.1 (if dist then q.2.1 / 8 else q.2.1) q.2.2.1 q.2.2.2 : Nat)
/-- Issue checks of CPY's object side: LINEAR, bounds, alignment, then the object's own checks, and those of every line's extent
(R275, R280). -/
def cpyObj (s : State) (h : Here) (reg : Nat) (c : CapReg) (rights : Nat) (crd box : W64) : IAns :=
  let w := whoOf h
  let again := heldMovingAt h 0
  match (if again then none else checkCap w reg c rights) with
  | some fi => .fault s fi
  | none =>
    let oid := capOid c
    let (s1, e) := xlate s w ⟨oid, 0, 0⟩
    let w0 := e.word0
    let dist := wDist w0
    let g := geom w0 e.dims
    let co := coordsOf crd
    let d := boxDims box
    let lastQ := boxCoord dist co (d.1 - 1, d.2.1 - 1, d.2.2.1 - 1, d.2.2.2 - 1)
    let inside := decide (lastQ.1 < g.1 ∧ lastQ.2.1 < (if dist then g.2.1 else cdiv g.2.1 8) ∧ lastQ.2.2.1 < g.2.2.1 ∧ lastQ.2.2.2 < g.2.2.2)
    let a0 := boxByte dist c g co
    let a1 := boxByte dist c g lastQ
    let inCap := decide ((capBase c : Int) ≤ a0) && decide (a1 + 256 ≤ capBase c + capLen c) &&
      decide (capBase c + capLen c ≤ geomSize g)
    if e.wf ∧ wLinear w0 ∧ (wState w0 = 1 ∨ wState w0 = 2) then .fault s1 { cls := 6, d0 := wRead w0, oid := oid }
    else if !again ∧ e.wf ∧ !wLinear w0 ∧ !(inside && inCap) then
      .fault s1 { cls := 3, d0 := BitVec.ofInt 64 a0, d1 := BitVec.ofNat 64 reg, oid := oid }
    else if !again ∧ capPos c % 256 ≠ 0 then .fault s1 { cls := 9, d0 := BitVec.ofInt 64 a0, oid := oid }
    else
      let okW := match partAt s w.pid with
        | some p => (List.range d.2.1).all fun j =>
            decide ((tileOwner p e.layout g co.1 (co.2.1 + 8 * j) co.2.2.1 co.2.2.2).2.2.1 % 8 = 0)
        | none => false
      let ask : Ask := { rights := rights, n := 256, align := 256, host := true, again := true }
      iBind (iChk (s1, checkObj s1 w c ask 0 a0.toNat a0.toNat (!dist || okW) { e with ext := 0 }) 0) fun s2 =>
        (List.range (boxLines box)).foldl (fun acc n => iBind acc fun s3 =>
          let p := boxCoord dist co (boxLine box n)
          iChk (if dist then checkTile s3 w reg c ask 0 p 0 else checkAcc s3 w reg c ask (boxByte dist c g p)) 0) (.ok s2)
def cpyChk (f : FmtE) (store : Bool) (s : State) (h : Here) : IAns :=
  let c := capAt h f.sa
  let box := rdG s h f.sc
  let sa := bitsN box 0 24
  iBind (cpyObj s h f.sa.toNat c (rENG + if store then rST else rLD) (rdG s h f.sb) box) fun s1 =>
    iBind (iGuard s1 (bitsN box 56 8 == 0) 6 (word0Of s1 h c) (capOid c)) fun s2 =>
      iBind (iGuard s2 (sa % 256 == 0) 9 sa) fun s3 => iScratch s3 h sa (256 * boxLines box) true
/-- A CPY or CPYL that names a host object is a release at SYSTEM scope (R121). -/
def hostScope (r : BitVec 6) (s : State) (h : Here) : Nat := if bitsN (BitVec.ofNat 64 (word0Of s h (capAt h r))) 44 2 = 2 then 4 else 3
def boxFifo (s : State) (r : BitVec 6) (h : Here) : Bool := inFifo h.t (bitsN (rdG s h r) 0 24)
def execCpy (f : FmtE) (s : State) : Out :=
  onStrand (.cpy f) s fun h =>
    engIssue (.cpy f) f (ceFor h.core) (cpyChk f false) (regsOf s f) (fun h => [capAt h f.sa]) (hostScope f.sa) (boxFifo s f.sc) s h
def execCpySt (f : FmtE) (s : State) : Out :=
  onStrand (.cpySt f) s fun h =>
    engIssue (.cpySt f) f (ceFor h.core) (cpyChk f true) (regsOf s f) (fun h => [capAt h f.sa]) (hostScope f.sa) (boxFifo s f.sc) s h

def spanLen (x : W64) : Nat := bitsN x 24 40
def spanAddr (x : W64) : Nat := bitsN x 0 24
/-- Check 4 of R275 for a SPAN: units of 32. -/
def iSpan (s : State) (x : W64) : IAns :=
  iBind (iGuard s (spanAddr x % 32 == 0) 9 (spanAddr x)) fun s1 => iGuard s1 (spanLen x % 32 == 0) 9 (spanLen x)
/-- Check 2 of R275 for a byte range, the form's access `k`, over every extent that it meets; CPYL admits host objects and stays
inside the issuing die's facet (R281). After a wait for a MOVING object it goes on from check 7 (R74). -/
def iRange (s : State) (h : Here) (w : Who) (reg : Nat) (c : CapReg) (rights align n : Nat) (host : Bool) (a : Int)
    (k : Nat := 0) : IAns :=
  let ask : Ask := { rights := rights, n := n, align := align, host := host, facet := host, again := heldMovingAt h k }
  iBind (iChk (checkAcc s w reg c ask a) k) fun s1 =>
    (List.range ((a.toNat + n - 1) / 2 ^ 21 - a.toNat / 2 ^ 21)).foldl (fun acc i => iBind acc fun s2 =>
      iChk (checkAcc s2 w reg c { ask with n := 1, align := 1, again := true } ((a.toNat / 2 ^ 21 + 1 + i) * 2 ^ 21 : Nat)) k) (.ok s1)
/-- CPYL between an object and scratch. DESIGN CHOICE (log 96): Reg(sb) is read unsigned; R281 gives no sign. -/
def cpylChk (f : FmtE) (store : Bool) (s : State) (h : Here) : IAns :=
  let c := capAt h f.sa
  let sp := rdG s h f.sc
  iBind (iRange s h (whoOf h) f.sa.toNat c (rENG + if store then rST else rLD) 32 (spanLen sp) true (capPos c + (rdG s h f.sb).toNat))
    fun s1 => iBind (iSpan s1 sp) fun s2 => iScratch s2 h (spanAddr sp) (spanLen sp) true
def execCpyl (f : FmtE) (s : State) : Out :=
  onStrand (.cpyl f) s fun h =>
    engIssue (.cpyl f) f (ceFor h.core) (cpylChk f false) (regsOf s f) (fun h => [capAt h f.sa]) (hostScope f.sa) (boxFifo s f.sc) s h
def execCpylSt (f : FmtE) (s : State) : Out :=
  onStrand (.cpylSt f) s fun h =>
    engIssue (.cpylSt f) f (ceFor h.core) (cpylChk f true) (regsOf s f) (fun h => [capAt h f.sa]) (hostScope f.sa) (boxFifo s f.sc) s h
/-- CPYL.oo (its source is access 0, its destination access 1): overlapping ranges of one object take FORMAT (R281). -/
def cpylOoChk (f : FmtE) (s : State) (h : Here) : IAns :=
  let c := capAt h f.sa
  let d := capAt h f.sc
  let n := (rdG s h f.sb).toNat
  let ovl := capOid c == capOid d && decide (capPos c < capPos d + n) && decide (capPos d < capPos c + n)
  iBind (iRange s h (whoOf h) f.sa.toNat c (rENG + rLD) 32 n true (capPos c)) fun s1 =>
    iBind (iRange s1 h (whoOf h) f.sc.toNat d (rENG + rST) 32 n true (capPos d) 1) fun s2 =>
      iBind (iGuard s2 (!ovl) 6 (word0Of s2 h c) (capOid c)) fun s3 => iGuard s3 (n % 32 == 0) 9 n
def execCpylOo (f : FmtE) (s : State) : Out :=
  onStrand (.cpylOo f) s fun h =>
    engIssue (.cpylOo f) f (ceFor h.core) (cpylOoChk f) (regsOf s f) (fun h => [capAt h f.sa, capAt h f.sc])
      (fun s h => max (hostScope f.sa s h) (hostScope f.sc s h)) noFifo s h

/-- GATH and SCAT: the list and the records in scratch; record bounds are checked as the entry reaches them (R283). -/
def gathChk (f : FmtE) (store : Bool) (s : State) (h : Here) : IAns :=
  let c := capAt h f.sa
  let il := rdG s h f.sb
  let dr := rdG s h f.sc
  let cnt := bitsN il 24 24
  let rsz := bitsN dr 24 16
  iBind (iRange s h (whoOf h) f.sa.toNat c (rENG + if store then rST else rLD) 1 0 false (capBase c)) fun s1 =>
    iBind (iGuard s1 (bitsN il 48 16 == 0 && bitsN dr 40 24 == 0 && rsz != 0) 6 (word0Of s1 h c) (capOid c)) fun s2 =>
      iBind (iGuard s2 (bitsN il 0 24 % 4 == 0) 9 (bitsN il 0 24)) fun s3 =>
        iBind (iGuard s3 (bitsN dr 0 24 % 32 == 0) 9 (bitsN dr 0 24)) fun s4 =>
          iBind (iScratch s4 h (bitsN il 0 24) (4 * cnt) false) fun s5 => iScratch s5 h (bitsN dr 0 24) (32 * rsz * cnt) false
def execGath (f : FmtE) (s : State) : Out :=
  onStrand (.gath f) s fun h =>
    engIssue (.gath f) f .ge (gathChk f false) (regsOf s f) (fun h => [capAt h f.sa]) partScope noFifo s h
def execScat (f : FmtE) (s : State) : Out :=
  onStrand (.scat f) s fun h =>
    engIssue (.scat f) f .ge (gathChk f true) (regsOf s f) (fun h => [capAt h f.sa]) partScope noFifo s h

/-! ### Halo, re-sharding, links (R284 to R291) -/

/-- The facet extents NX, NY, NZ, the width, the cell size in bytes, the mask (R284). -/
structure HGeo where
  nx : Nat
  ny : Nat
  nz : Nat
  w : Nat
  cb : Nat
  mask : Nat
  deriving DecidableEq, Repr
def hgeoOf (g : W64) : HGeo := ⟨bitsN g 0 8, bitsN g 8 8, bitsN g 16 8, bitsN g 24 4, 32 * bitsN g 34 14, bitsN g 28 6⟩
/-- Bytes of the faces of the X, Y and Z axes (R285). -/
def faceBytes (g : HGeo) (axis : Nat) : Nat :=
  match axis with | 0 => g.w * g.ny * g.nz * g.cb | 1 => g.nx * g.w * g.nz * g.cb | _ => g.nx * g.ny * g.w * g.cb
def axisSize (g : HGeo) (axis : Nat) : Nat := match axis with | 0 => g.nx | 1 => g.ny | _ => g.nz
/-- HALO: the receive slots lie in other crews' banks, and the entry meets their modes there (R285, log 64). -/
def haloChk (f : FmtE) (s : State) (h : Here) : IAns :=
  let fac := rdG s h f.sa
  let gr := rdG s h f.sb
  let rc := rdG s h f.sc
  let g := hgeoOf gr
  let zeros := bitsN fac 24 40 == 0 && bitsN gr 48 16 == 0 && bitsN rc 32 32 == 0
  let sizes := g.cb != 0 && g.w != 0 && g.nx != 0 && g.ny != 0 && g.nz != 0
  let widths := (List.range 6).all fun k => g.mask / 2 ^ k % 2 == 0 || decide (g.w ≤ axisSize g (k / 2))
  iBind (iGuard s (semAllowed h.t (bitsN rc 24 8)) 3 (bitsN rc 24 8)) fun s1 =>
    iBind (iGuard s1 (zeros && sizes && widths) 6 0) fun s2 =>
      iBind (iGuard s2 (bitsN fac 0 24 % 32 == 0) 9 (bitsN fac 0 24)) fun s3 =>
        iBind (iGuard s3 (bitsN rc 0 24 % 32 == 0) 9 (bitsN rc 0 24)) fun s4 =>
          iScratch s4 h (bitsN fac 0 24) (g.cb * g.nx * g.ny * g.nz) false
def execHalo (f : FmtE) (s : State) : Out :=
  onStrand (.halo f) s fun h =>
    engIssue (.halo f) f .he (haloChk f) (regsOf s f) (fun _ => []) partScope noFifo s h

/-- The RS engine of a die acts for a partition: it lies outside every cluster (R22, R106). -/
def reshdWho (s : State) (pid : BitVec 32) (d : DieId) : Who :=
  { pid := pid, die := d, slab := slabOnDie s pid d, clus := 10, core := none, task := 0, sup := true }
/-- The extents of an object's facets under some layouts that check 11 of R74 refuses (R69): the first, by facet die and number. -/
def facetBad (s : State) (pid oid : BitVec 32) (p : Part) (g : Nat × Nat × Nat × Nat) (lays : List W64) : Option (DieId × Nat) :=
  lays.findSome? fun lay => p.dies.findSome? fun d =>
    ((List.range (cdiv (geomSize (facetGeom p lay g)) (2 ^ 21))).find? fun k =>
      let e := walk s pid d ⟨oid, d, k⟩
      let a := 2 ^ 21 * k
      badExt s pid e (resOf (reshdWho s pid d) oid d a e) ||
        badExt s pid e (resOf (reshdWho s pid d) oid d (a + min (2 ^ 21) (geomSize (facetGeom p lay g) - a) - 1) e)).map fun k => (d, k)
/-- RESHD: a capability over the whole global byte space, the checks of R74, then a DIST object and a descriptor that keeps R101
(R275, R286). -/
def reshdChk (f : FmtE) (inst : Bool) (s : State) (h : Here) : IAns :=
  let c := capAt h f.sa
  let w := whoOf h
  let again := heldMovingAt h 0
  match (if again then none else checkCap w f.sa.toNat c (if inst then rENG else rENG + rLD + rST)) with
  | some fi => .fault s fi
  | none =>
    let oid := capOid c
    let (s1, e) := xlate s w ⟨oid, 0, 0⟩
    let whole := objBytes s w oid e.word0 e.dims e.layout
    if !again ∧ e.wf ∧ !(capBase c == 0 && decide (whole = capLen c)) then
      .fault s1 { cls := 3, d0 := BitVec.ofInt 64 (capPos c), d1 := f.sa.zeroExtend 64, oid := oid }
    else
      iBind (iChk (s1, checkObj s1 w c { rights := rENG, n := 256, align := 1 } 0 0 0 true { e with ext := 0 }) 0) fun s2 =>
        let bad := match partAt s w.pid with
          | some p => if wDist e.word0 then facetBad s2 w.pid oid p (geom e.word0 e.dims) [layoutRead e.layout] else none
          | none => none
        match bad with
        | some (d, k) => .fault s2
            { cls := 8, d0 := BitVec.ofNat 64 (2 ^ 21 * k), d1 := BitVec.ofNat 64 k, d2 := d.zeroExtend 64, oid := oid }
        | none =>
        let ok := match partAt s w.pid with
          | some p => wDist e.word0 && layoutOk p (rowBytes e.word0 e.dims) (rdG s h f.sb) && layoutRead (rdG s h f.sb) == rdG s h f.sb
          | none => false
        iGuard s2 ok 6 (wRead e.word0).toNat oid
def execReshd (f : FmtE) (s : State) : Out :=
  onStrand (.reshd f) s fun h =>
    engIssue (.reshd f) f .rs (reshdChk f false) (regsOf s f) (fun h => [capAt h f.sa]) partScope noFifo s h
def execReshdInst (f : FmtE) (s : State) : Out :=
  onStrand (.reshdInst f) s fun h =>
    engIssue (.reshdInst f) f .rs (reshdChk f true) (regsOf s f) (fun h => [capAt h f.sa]) partScope noFifo s h

def flagDie (x : W64) : DieId := x.extractLsb' 47 17
def dieInPart (s : State) (pid : BitVec 32) (d : DieId) : Bool := (partDies s pid).contains d
/-- The accessor of a SEND: for a DIST object the facet of FLAG.DIE, which other objects ignore (R103, R288). -/
def sendWho (s : State) (w : Who) (c : CapReg) (flag : W64) : Who :=
  if capOid c != 0 && wDist (otWord s w.pid w.die (capOid c).toNat 0) then { w with die := flagDie flag } else w
/-- The capability of a SEND over its data and its flag word. A DIST object has no facet on a die outside the partition, and
so no extent there: EXTENT, after the other checks (R27, R74, R288; log 81). -/
def sendRange (s : State) (h : Here) (reg : Nat) (c : CapReg) (fl : W64) (rights align n : Nat) (a : Int) (k : Nat) : IAns :=
  let w := sendWho s (whoOf h) c fl
  if w.die = h.core.die || dieInPart s h.t.pid w.die then iRange s h w reg c rights align n false a k
  else iBind (iRange s h (whoOf h) reg c rights align n false a k) fun s1 =>
    .fault s1 { cls := 8, d0 := BitVec.ofInt 64 a, d1 := BitVec.ofNat 64 (a.toNat / 2 ^ 21), d2 := w.die.zeroExtend 64, oid := capOid c }
/-- SEND and SENDT (R275, R288). DESIGN CHOICE (log 96): the flag's alignment is that of its byte, c.base + FOFF: R288 calls FOFF a
multiple of 8 and names no class, and a capability's base need be no multiple of 8. -/
def sendChk (f : FmtE) (s : State) (h : Here) : IAns :=
  let sp := rdG s h f.sb
  let fl := rdG s h f.sc
  let n := spanLen sp
  let scr := fun (s : State) => iBind (iSpan s sp) fun s1 => iScratch s1 h (spanAddr sp) n false
  if f.fn = 3 then iBind (iGuard s (bitsN fl 3 61 == 0 && decide (bitsN fl 0 3 < 6)) 6 0) scr
  else
    let c := capAt h f.sa
    let d := flagDie fl
    let rights := rENG + rST + (if f.fn = 0 then rAMO else 0)
    let semOk := f.fn != 1 || (dieInPart s h.t.pid d && holdsSlab s h.t.pid ⟨d, slabOfClus (bitsN fl 8 4)⟩ && decide (bitsN fl 8 4 < 10))
    iBind (iGuard s semOk 3 (bitsN fl 0 12)) fun s1 =>
      iBind (sendRange s1 h f.sa.toNat c fl rights 1 n (capPos c) 0) fun s2 =>
        iBind (if f.fn = 0 then sendRange s2 h f.sa.toNat c fl rights 8 8 (capBase c + bitsN fl 0 47) 1 else .ok s2)
          fun s3 => iBind (iGuard s3 (f.fn != 1 || bitsN fl 12 35 == 0) 6 (word0Of s3 h c) (capOid c)) scr
def execSend (f : FmtE) (s : State) : Out :=
  onStrand (.send f) s fun h =>
    engIssue (.send f) f .le (sendChk f) (regsOf s f) (fun h => [if f.fn = 3 then {} else capAt h f.sa]) partScope noFifo s h
def execSendt (f : FmtE) (s : State) : Out :=
  onStrand (.sendt f) s fun h =>
    engIssue (.sendt f) f .le (sendChk f) (regsOf s f) (fun h => [if f.fn = 3 then {} else capAt h f.sa]) partScope noFifo s h
/-- MCAST (R290): DIST objects only; the facet geometry is the same on every die. -/
def mcastChk (f : FmtE) (s : State) (h : Here) : IAns :=
  let c := capAt h f.sa
  let sp := rdG s h f.sb
  let ml := rdG s h f.sc
  let dist := (BitVec.ofNat 64 (word0Of s h c) : W64).getLsbD 49
  iBind (iRange s h (whoOf h) f.sa.toNat c (rENG + rST) 1 (spanLen sp) false (capPos c)) fun s1 =>
    iBind (iGuard s1 (dist && bitsN ml 41 23 == 0 && bitsN ml 28 4 == 0 && bitsN ml 24 4 != 0) 6 (word0Of s1 h c) (capOid c)) fun s2 =>
      iBind (iSpan s2 sp) fun s3 =>
        iBind (iGuard s3 (bitsN ml 0 24 % 4 == 0) 9 (bitsN ml 0 24)) fun s4 =>
          iBind (iScratch s4 h (spanAddr sp) (spanLen sp) false) fun s5 => iScratch s5 h (bitsN ml 0 24) (4 * bitsN ml 24 4) false
def execMcast (f : FmtE) (s : State) : Out :=
  onStrand (.mcast f) s fun h =>
    engIssue (.mcast f) f .le (mcastChk f) (regsOf s f) (fun h => [capAt h f.sa]) partScope noFifo s h
/-- RECVADD (R291). -/
def recvChk (f : FmtE) (s : State) (h : Here) : IAns :=
  let sp := rdG s h f.sa
  let k := rdG s h f.sb
  iBind (iGuard s (bitsN k 3 61 == 0 && decide (bitsN k 0 3 < 6)) 6 0) fun s1 =>
    iBind (iSpan s1 sp) fun s2 => iScratch s2 h (spanAddr sp) (spanLen sp) false
def execRecvadd (f : FmtE) (s : State) : Out :=
  onStrand (.recvadd f) s fun h =>
    engIssue (.recvadd f) f .le (recvChk f) (regsOf s f) (fun _ => []) partScope noFifo s h

/-! ### Attention and the inverted table (R292, R295, R296) -/

def attnCaps (f : FmtE) (h : Here) : List CapReg :=
  capAt h f.sa :: (List.range 5).map fun k => lkpD h.t.c (f.sc.toNat + k) {}
/-- The block over its 128 bytes; c(cb) to c(cb+3) through checks 1 to 3 of R74; the table's range (R292, R296). ATTN's byte offset
Reg(sb) is read unsigned (DESIGN CHOICE, log 96: R292 gives no sign). -/
def attnChk (f : FmtE) (s : State) (h : Here) : IAns :=
  let w := whoOf h
  let b := capAt h f.sa
  let need := fun (s : State) (k rights : Nat) =>
    match checkCap w (f.sc.toNat + k) (lkpD h.t.c (f.sc.toNat + k) {}) rights with | some fi => .fault s fi | none => IAns.ok s
  let ct := lkpD h.t.c (f.sc.toNat + 1) {}
  iBind (iRange s h w f.sa.toNat b (rENG + rLD + rST) 128 128 false (capPos b + (rdG s h f.sb).toNat)) fun s1 =>
    iBind (need s1 0 (rENG + rLD)) fun s2 =>
      iBind (need s2 1 (rENG + rLD)) fun s3 =>
        iBind (need s3 2 (rENG + rLD)) fun s4 =>
          iBind (need s4 3 (rENG + rLD + rST)) fun s5 =>
            iGuard s5 (decide (0 ≤ capOff ct ∧ capOff ct ≤ capLen ct ∧ capOff ct % 16 = 0)) 3 (capOff ct).toNat (capOid ct)
def execAttn (f : FmtE) (s : State) : Out :=
  onStrand (.attn f) s fun h =>
    engIssue (.attn f) f .ae (attnChk f) (regsOf s f) (attnCaps f) partScope noFifo s h
def execAttnc (f : FmtE) (s : State) : Out :=
  onStrand (.attnc f) s fun h =>
    engIssue (.attnc f) f .ae (attnChk f) (regsOf s f) (attnCaps f) partScope noFifo s h
/-- The table capability of KVMAP, KVUNMAP and TRUNC over its range (R275, R292). -/
def kvChk (f : FmtE) (s : State) (h : Here) : IAns :=
  let c := capAt h f.sa
  let off := capOff c
  iBind (iRange s h (whoOf h) f.sa.toNat c (rENG + rLD + rST) 1 0 false (capBase c)) fun s1 =>
    iGuard s1 (decide (0 ≤ off ∧ off ≤ capLen c ∧ off % 16 = 0)) 3 off.toNat (capOid c)
/-- The key register's zero bits (R295). -/
def kvKeyChk (f : FmtE) (s : State) (h : Here) : IAns :=
  iBind (kvChk f s h) fun s1 => iGuard s1 (bitsN (rdG s h f.sc) 6 2 == 0) 6 (word0Of s1 h (capAt h f.sa)) (capOid (capAt h f.sa))
def execKvmap (f : FmtE) (s : State) : Out :=
  onStrand (.kvmap f) s fun h =>
    engIssue (.kvmap f) f .ae (kvKeyChk f) (regsOf s f) (fun h => [capAt h f.sa]) partScope noFifo s h
def execKvmapLen (f : FmtE) (s : State) : Out :=
  onStrand (.kvmapLen f) s fun h =>
    engIssue (.kvmapLen f) f .ae (kvKeyChk f) (regsOf s f) (fun h => [capAt h f.sa]) partScope noFifo s h
def execKvunmap (f : FmtE) (s : State) : Out :=
  onStrand (.kvunmap f) s fun h =>
    engIssue (.kvunmap f) f .ae (kvChk f) (regsOf s f) (fun h => [capAt h f.sa]) partScope noFifo s h

/-! ### Stream unit (R303, R304) -/

/-- The record register's zero bits (R275, R303). -/
def suChk (r : BitVec 6) (s : State) (h : Here) : IAns := iGuard s (bitsN (rdG s h r) 6 58 == 0) 6 0
def suIssue (i : Instr) (f : FmtE) (s : State) (h : Here) : State :=
  engIssue i f .su (suChk f.sa) (regsOf s f) (fun _ => []) partScope noFifo s h
def execCursRd (f : FmtE) (s : State) : Out := onStrand (.cursRd f) s (suIssue (.cursRd f) f s)
def execCursPlay (f : FmtE) (s : State) : Out := onStrand (.cursPlay f) s (suIssue (.cursPlay f) f s)
def execCursGen (f : FmtE) (s : State) : Out := onStrand (.cursGen f) s (suIssue (.cursGen f) f s)
def execCursInit (f : FmtE) (s : State) : Out := onStrand (.cursInit f) s (suIssue (.cursInit f) f s)
def execCursFree (f : FmtE) (s : State) : Out := onStrand (.cursFree f) s (suIssue (.cursFree f) f s)
def execCursRdc (f : FmtE) (s : State) : Out := onStrand (.cursRdc f) s (suIssue (.cursRdc f) f s)
def execCommit (f : FmtE) (s : State) : Out := onStrand (.commit f) s (suIssue (.commit f) f s)
def execCommitSnap (f : FmtE) (s : State) : Out := onStrand (.commitSnap f) s (suIssue (.commitSnap f) f s)
def execSinpop (f : FmtE) (s : State) : Out := onStrand (.sinpop f) s (suIssue (.sinpop f) f s)
def execTrunc (f : FmtE) (s : State) : Out :=
  onStrand (.trunc f) s fun h =>
    engIssue (.trunc f) f .su (fun s h => iBind (kvChk f s h) (suChk f.sb · h)) (regsOf s f) (fun h => [capAt h f.sa])
      partScope noFifo s h

end Sys2Proof.Machine
end

