-- ==== Sys2Proof/Machine/EngineRun.lean ====
section
/-! DEFINITION. The work of copy, gather, halo and link entries (R280 to R291). An entry does its work when it starts and goes
on where it was held (log 12). -/

namespace Sys2Proof.Machine

/-! ### Loops over units of work -/

def setProg (s : State) (q : QueueId) (serial p : Nat) : State :=
  modEntry s q serial fun e => { e with prog := p, since := s.ck, reported := false }
/-- Units prog to total − 1 in order; what is done stays done when a unit holds or stops. -/
def unitLoop (q : QueueId) (serial total : Nat) (step : State → Nat → EAns Unit) (fuel prog : Nat) (s : State) : EAns Unit :=
  match fuel with
  | 0 => .ok s ()
  | k + 1 =>
    if total ≤ prog then .ok s ()
    else eBind (step s prog) fun s1 _ => unitLoop q serial total step k (prog + 1) (setProg s1 q serial (prog + 1))
def runUnits (q : QueueId) (e : Entry) (total : Nat) (step : State → Nat → EAns Unit) (s : State) : EAns Unit :=
  unitLoop q e.serial total step (total - e.prog) e.prog s

/-! ### Copy and gather (R280 to R283) -/

/-- The scratch side of a store: bytes are read, or one FIFO entry is popped once its write has been made, so a write that waits
loses no entry (R282). -/
def storeFrom (e : Entry) (sa off n : Nat) (write : State → Nat → EAns Unit) (s : State) : EAns Unit :=
  if e.fifo then eBind (entFifoPop s e sa) fun _ v => eBind (write s v) fun s1 _ => eBind (entFifoPop s1 e sa) fun s2 _ => .ok s2 ()
  else eBind (entScrRead s e (entClus e) (sa + off) n) write
/-- One line of a box between its object and scratch or a FIFO (R280, R282). -/
def cpyUnit (q : QueueId) (e : Entry) (store : Bool) (s : State) (n : Nat) : EAns Unit :=
  let w := entWho q e
  let c := entCap e 0
  let box := entReg e 2
  let (s1, x) := xlate s w ⟨capOid c, 0, 0⟩
  let dist := wDist x.word0
  let p := boxCoord dist (coordsOf (entReg e 1)) (boxLine box n)
  let a := boxByte dist c (geom x.word0 x.dims) p
  let ask : Ask := { rights := rENG + (if store then rST else rLD), n := 256, align := 256, host := true }
  let sa := bitsN box 0 24
  entChk w e (if dist then checkTile s1 w 0 c ask a p 0 else checkAcc s1 w 0 c ask a) fun s2 r =>
    if store then storeFrom e sa (256 * n) 256 (fun s3 v => entWriteAt w e 256 v s3 r) s2
    else
      eBind (entReadAt w e 256 s2 r) fun s3 v =>
        if e.fifo then entFifoPush s3 e sa v else entScrWrite s3 q e (entClus e) (sa + 256 * n) 256 v
/-- One piece of up to 256 bytes of a linear copy (R281). -/
def cpylUnit (q : QueueId) (e : Entry) (store : Bool) (s : State) (n : Nat) : EAns Unit :=
  let w := entWho q e
  let c := entCap e 0
  let sp := entReg e 2
  let len := min 256 (spanLen sp - 256 * n)
  let a : Int := capPos c + (entReg e 1).toNat + 256 * n
  let sa := spanAddr sp
  if store then storeFrom e sa (256 * n) len (fun s1 v => entWrite w e c (rENG + rST) true s1 a len v) s
  else
    eBind (entRead w e c (rENG + rLD) true s a len) fun s1 v =>
      if e.fifo then entFifoPush s1 e sa v else entScrWrite s1 q e (entClus e) (sa + 256 * n) len v
def cpylOoUnit (q : QueueId) (e : Entry) (s : State) (n : Nat) : EAns Unit :=
  let w := entWho q e
  let len := min 256 ((entReg e 1).toNat - 256 * n)
  eBind (entRead w e (entCap e 0) (rENG + rLD) true s (capPos (entCap e 0) + 256 * n) len) fun s1 v =>
    entWrite w e (entCap e 1) (rENG + rST) true s1 (capPos (entCap e 1) + 256 * n) len v
/-- Record j of GATH or SCAT (R283). -/
def gathUnit (q : QueueId) (e : Entry) (store : Bool) (s : State) (j : Nat) : EAns Unit :=
  let w := entWho q e
  let c := entCap e 0
  let rs := 32 * bitsN (entReg e 2) 24 16
  let da := bitsN (entReg e 2) 0 24 + rs * j
  eBind (entScrRead s e (entClus e) (bitsN (entReg e 1) 0 24 + 4 * j) 4) fun s1 idx =>
    let a : Int := capPos c + rs * idx
    if !(decide ((capBase c : Int) ≤ a) && decide (a + rs ≤ capBase c + capLen c)) then
      .fault s1 (entFault e { cls := 3, d0 := BitVec.ofInt 64 a, oid := capOid c })
    else if store then
      eBind (entScrRead s1 e (entClus e) da rs) fun s2 v => entWrite w e c (rENG + rST) false s2 a rs v
    else
      eBind (entRead w e c (rENG + rLD) false s1 a rs) fun s2 v => entScrWrite s2 q e (entClus e) da rs v

/-! ### Halo (R284, R285) -/

/-- The neighbour of a die inside its partition in a logical direction 0 to 5, modulo the extent of the axis (R19, R285). -/
def neighbour (p : Part) (d : DieId) (k : Nat) : DieId :=
  let ax := k / 2
  let n := axisExtent p ax
  let mv := fun (c lo : Nat) => lo + (if k % 2 = 0 then c - lo + 1 else c - lo + n - 1) % n
  match ax with
  | 0 => mkDie (mv (dx d) (dx p.lo)) (dy d) (dz d)
  | 1 => mkDie (dx d) (mv (dy d) (dy p.lo)) (dz d)
  | _ => mkDie (dx d) (dy d) (mv (dz d) (dz p.lo))
def neighbourOf (s : State) (pid : BitVec 32) (d : DieId) (k : Nat) : DieId :=
  match partAt s pid with | some p => if p.shape = 0 then d else neighbour p d k | none => d
/-- The cells of the face in a direction, x fastest (R285). -/
def faceCells (g : HGeo) (k : Nat) : List (Nat × Nat × Nat) :=
  let keep := fun (n c : Nat) => if k % 2 = 0 then decide (n - g.w ≤ c) else decide (c < g.w)
  (List.range g.nz).flatMap fun z => (List.range g.ny).flatMap fun y => (List.range g.nx).filterMap fun x =>
    let ok := match k / 2 with | 0 => keep g.nx x | 1 => keep g.ny y | _ => keep g.nz z
    if ok then some (x, y, z) else none
/-- The offset of the receive slot of a direction (R285). -/
def slotOff (g : HGeo) (k : Nat) : Nat :=
  (List.range (k / 2)).foldl (fun a ax => a + 2 * faceBytes g ax) 0 + k % 2 * faceBytes g (k / 2)
/-- A cluster takes no signal and no data of a partition: it is fenced, its slab is, or another partition holds it (R29, R33, R35). -/
def semRefuses (s : State) (pid : BitVec 32) (c : ClusterId) : Bool :=
  (clusterAt s c).fenced || (slabAt s (clusterSlab c)).fence || (slabAt s (clusterSlab c)).pid != pid
/-- A face that no ring carries to its neighbour, or whose receiving cluster is fenced, stops the entry; the place is the face's
direction (R278, R333; DESIGN CHOICE, log 94). -/
def faceRefused (e : Entry) (k reason : Nat) : FInfo :=
  { cls := 14, d0 := e.tag.zeroExtend 64, d1 := 1, d2 := BitVec.ofNat 64 reason, pos := some (BitVec.ofNat 64 k) }
/-- A face's bytes reach the neighbour's slot for the opposite direction, then its semaphore is signalled. -/
def faceLand (q : QueueId) (e : Entry) (k : Nat) (s : State) : EAns Unit :=
  let g := hgeoOf (entReg e 1)
  let c := entClus e
  let nb : ClusterId := ⟨neighbourOf s e.pid q.die k, c.clus⟩
  let opp := if k % 2 = 0 then k + 1 else k - 1
  let ra := bitsN (entReg e 2) 0 24 + slotOff g opp
  let fa := bitsN (entReg e 0) 0 24
  if nb.die ≠ q.die ∧ !reaches s q.die nb.die then .fault s (faceRefused e k 3)
  else if semRefuses s e.pid nb then .fault s (faceRefused e k 1)
  else eBind ((faceCells g k).zipIdx.foldl (fun acc cell =>
    eBind acc fun s1 _ =>
      let (x, y, z) := cell.1
      eBind (entScrRead s1 e c (fa + g.cb * ((z * g.ny + y) * g.nx + x)) g.cb) fun s2 v =>
        entScrWrite s2 q e nb (ra + g.cb * cell.2) g.cb v) (.ok s ())) fun s3 _ =>
    .ok (hearSem (addSem s3 nb (bitsN (entReg e 2) 24 8) 1) nb (bitsN (entReg e 2) 24 8)) ()

/-! ### Link engine (R288 to R291) -/

/-- The most data bytes of one packet here; larger transfers go as several packets (R347). -/
def chunkBytes : Nat := 2048
def chunkOf (n k : Nat) : Nat := min chunkBytes (n - chunkBytes * k)
def chunks (n : Nat) : Nat := cdiv n chunkBytes

/-- The flag of SEND.mem at its home: +1 as an atomic (R85, R288). -/
def flagAt (s : State) (w : Who) (r : Res) : HAns (W64 × BitVec 48 × Bool) := homeAtomic s w r 0 0xF 1 0 0 {}
/-- A SEND's completion signal (R288). -/
def sendFlag (q : QueueId) (e : Entry) (fn : Nat) (s : State) : EAns Unit :=
  let fl := entReg e 2
  let w := sendWho s (entWho q e) (entCap e 0) fl
  match fn with
  | 0 =>
    entChk w e (checkAcc s w 0 (entCap e 0) { rights := rENG + rST + rAMO, n := 8, align := 8 }
        (capBase (entCap e 0) + bitsN fl 0 47)) fun s1 r =>
      if r.home.die = q.die then
        match flagAt s1 w r with
        | .ok s2 _ => .ok s2 ()
        | .conflict o => .fault s1 (entRefused e r 0 o)
        | .refused why => .fault s1 (entRefused e r why 0)
      else
        .ok (addAck (sendPkt s1 q.die r.home.die e.tag (.flag e.pid r q e.serial)) q e.serial) ()
  | 1 =>
    let t : ClusterId := ⟨flagDie fl, bitsN fl 8 4⟩
    if t.die = q.die then
      (if semRefuses s e.pid t then .fault s { cls := 14, d0 := e.tag.zeroExtend 64, d1 := 1, d2 := 1 }
       else .ok (addSem s t (bitsN fl 0 8) 1) ())
    else .ok (addAck (sendPkt s q.die t.die e.tag (.semadd e.pid t.clus (bitsN fl 0 8) q e.serial)) q e.serial) ()
  | _ => .ok s ()
/-- Bytes of a stream reach the neighbour's buffer of (cluster, port) (R291). -/
def streamIn (s : State) (d : DieId) (clus port : Nat) (b : List Byte) : State :=
  modDie s d fun k => { k with streams := upd k.streams (clus, port) [] (· ++ b) }
/-- Unit k of a SEND: a piece of its data, then, as the last unit, the flag, once every data byte is visible (R288, R352). -/
def sendUnit (q : QueueId) (e : Entry) (fn : Nat) (s : State) (k : Nat) : EAns Unit :=
  let sp := entReg e 1
  let n := spanLen sp
  if k < chunks n then
    eBind (entScrRead s e (entClus e) (spanAddr sp + chunkBytes * k) (chunkOf n k)) fun s1 v =>
      if fn = 3 then
        let port := bitsN (entReg e 2) 0 3
        let nb := neighbourOf s1 e.pid q.die port
        let opp := if port % 2 = 0 then port + 1 else port - 1
        let b := bytesOf (chunkOf n k) v
        if nb = q.die then .ok (streamIn s1 nb (e.core.core / 4) opp b) ()
        else .ok (addAck (sendPkt s1 q.die nb e.tag (.stream e.pid (e.core.core / 4) opp b q e.serial (chunkBytes * k))) q e.serial) ()
      else
        let w := sendWho s1 (entWho q e) (entCap e 0) (entReg e 2)
        entWrite w e (entCap e 0) (rENG + rST) false s1 (capPos (entCap e 0) + chunkBytes * k) (chunkOf n k) v
  else if fn < 2 && !allAcked s q e.serial then .hold s
  else sendFlag q e fn s

/-- The walker posts the record of an extent that a packet finds unmapped (R92). -/
def postMiss (s : State) (w : Who) (l : Where) : State :=
  postExtent s { w with slab := slabOnDie s w.pid w.die }
    { loc := l, word0 := 0, key := ⟨w.pid, l.oid, l.facet, l.byte / 256⟩, home := w.slab, pa := 0, rate := 0, vsh := none,
      tkey := ⟨l.oid, l.facet, l.byte / 2 ^ 21⟩ }
/-- A packet's object write at a die, without a capability: the entry was checked when it issued (R74, R290). -/
def packetWrite (w : Who) (e : Entry) (oid : BitVec 32) (facet : DieId) (a n v : Nat) (s : State) : EAns Unit :=
  (piecesOf a n).foldl (fun acc p => eBind acc fun s1 _ =>
    match locate s1 w ⟨oid, facet, p.1⟩ with
    | (s2, some r) => entStoreAt w e p.2 (v / 2 ^ (8 * (p.1 - a)) % 2 ^ (8 * p.2)) s2 r
    | (s2, none) => .hold (postMiss s2 w ⟨oid, facet, p.1⟩)) (.ok s ())
/-- The next die of an MCAST's list is none of the partition's, or the cluster to signal there is fenced: the entry stops as at a fenced
home (R29, R278, R290; DESIGN CHOICE, log 81). -/
def foreignDie (e : Entry) (byte : Nat) : FInfo :=
  { cls := 14, d0 := e.tag.zeroExtend 64, d1 := 1, d2 := 1, oid := capOid (entCap e 0), pos := some (BitVec.ofNat 64 byte) }
/-- An entry's chain is cut at a place of its die list: no die from there on takes more of it (R290). -/
def cutChain (s : State) (q : QueueId) (serial place : Nat) : State :=
  modEntry s q serial fun x => { x with cut := some (min place (x.cut.getD place)) }
/-- A stop that cuts the chain. -/
def stopChain {α : Type} (q : QueueId) (serial place : Nat) (x : EAns α) : EAns α :=
  match x with | .fault s f => .fault (cutChain s q serial place) f | y => y
/-- One die of an MCAST chain: its facet, its semaphore, then the next die; the last acknowledges (R290, R352). `place` is the
die's position in the list. -/
def forwardAt (q : QueueId) (e : Entry) (oid : BitVec 32) (byte : Nat) (data : List Byte) (sem : Option Nat) (clus place : Nat)
    (die : DieId) (rest : List DieId) (s : State) : EAns Unit :=
  let w := { entWho q e with die := die }
  eBind (stopChain q e.serial place (packetWrite w e oid die byte data.length (ofBytes data) s)) fun s1 _ =>
    if sem.isSome && semRefuses s1 e.pid ⟨die, clus⟩ then .fault (cutChain s1 q e.serial place) (foreignDie e byte)
    else
    let s2 := match sem with
      | some n =>
        let s' := addSem s1 ⟨die, clus⟩ n 1
        if die = q.die then s' else hearSem s' ⟨die, clus⟩ n
      | none => s1
    match rest with
    | [] =>
      if die = q.die then .ok (entryAck s2 q e.serial) ()
      else .ok (sendPkt s2 die q.die e.tag (.ack (some e.pid) none e.taskId (some (q, e.serial)))) ()
    | d :: r =>
      if d = die then forwardAt q e oid byte data sem clus (place + 1) d r s2
      else if !dieInPart s2 e.pid d then .fault (cutChain s2 q e.serial (place + 1)) (foreignDie e byte)
      else .ok (sendPkt s2 die d e.tag (.forward e.pid oid byte data r sem clus q e.serial (place + 1))) ()
/-- The die list of an MCAST, read from scratch (R290). -/
def mcastDies (e : Entry) (s : State) : EAns (List DieId) :=
  let ml := entReg e 2
  let n := bitsN ml 24 4
  eBind (entScrRead s e (entClus e) (bitsN ml 0 24) (4 * n)) fun s1 v =>
    .ok s1 ((List.range n).map fun i => BitVec.ofNat 17 (v / 2 ^ (32 * i)))
/-- Packets of an MCAST: an empty SPAN still signals (R279, R290). -/
def mcastUnits (e : Entry) : Nat :=
  let n := chunks (spanLen (entReg e 1))
  if (entReg e 2).getLsbD 40 then max 1 n else n
/-- Unit k of an MCAST: one packet's worth of the data through the whole chain. -/
def mcastUnit (q : QueueId) (e : Entry) (s : State) (k : Nat) : EAns Unit :=
  let sp := entReg e 1
  let n := spanLen sp
  let ml := entReg e 2
  let last := decide (chunks n ≤ k + 1)
  eBind (mcastDies e s) fun s1 dies =>
    eBind (entScrRead s1 e (entClus e) (spanAddr sp + chunkBytes * k) (chunkOf n k)) fun s2 v =>
      let data := bytesOf (chunkOf n k) v
      let sem := if last && ml.getLsbD 40 then some (bitsN ml 32 8) else none
      let byte := (capPos (entCap e 0)).toNat + chunkBytes * k
      let s3 := addAck s2 q e.serial
      match dies with
      | [] => .ok s2 ()
      | d :: r =>
        if d = q.die then
          match forwardAt q e (capOid (entCap e 0)) byte data sem (e.core.core / 4) 0 d r s3 with
          | .ok s4 v => .ok s4 v
          | .hold s4 => .hold (entryAck s4 q e.serial)
          | .fault s4 f => .fault (entryAck s4 q e.serial) f
        else if !dieInPart s2 e.pid d then .fault (cutChain s2 q e.serial 0) (foreignDie e byte)
        else .ok (sendPkt s3 q.die d e.tag
          (.forward e.pid (capOid (entCap e 0)) byte data r sem (e.core.core / 4) q e.serial 0)) ()

/-- One element of RECVADD (R291). -/
def recvElem (fn : Nat) (old x : Nat) : Nat :=
  match fn with
  | 0 => roundF 1 .rne (addF false (decodeF 1 old) (decodeF 1 x))
  | 1 => roundF 3 .rne (addF false (decodeF 3 old) (decodeF 3 x))
  | _ => (old + x) % 2 ^ 32
/-- 32 bytes of the stream added into scratch; with fewer there the entry waits (R291). -/
def recvUnit (q : QueueId) (e : Entry) (fn : Nat) (s : State) (k : Nat) : EAns Unit :=
  let c := entClus e
  let key := (c.clus, bitsN (entReg e 1) 0 3)
  let buf := lkpD (dieAt s q.die).streams key []
  if buf.length < 32 then .hold s
  else
    let a := spanAddr (entReg e 0) + 32 * k
    let w := if fn = 1 then 16 else 32
    eBind (entScrRead s e c a 32) fun s1 v =>
      let inn := ofBytes (buf.take 32)
      let sum := (ofLanes 256 w ((List.range (256 / w)).map fun i =>
        recvElem fn (v / 2 ^ (w * i) % 2 ^ w) (inn / 2 ^ (w * i) % 2 ^ w))).toNat
      eBind (entScrWrite s1 q e c a 32 sum) fun s2 _ =>
        .ok (modDie s2 q.die fun d => { d with streams := ins d.streams key (buf.drop 32) }) ()

end Sys2Proof.Machine
end

