-- ==== Sys2Proof/Machine/Attn.lean ====
section
/-! DEFINITION. The KV inverted table and the attention engine (R292 to R301). -/

namespace Sys2Proof.Machine

/-! ### The inverted table (R292 to R295) -/

/-- A table entry as it is stored (R293). -/
structure KvEnt where
  head : Nat
  link : Nat
  v : Bool
  seq : Nat
  layer : Nat
  lblk : Nat
  vlen : Nat
  low : Nat
  deriving DecidableEq, Repr
def kvOf (n : Nat) : KvEnt :=
  { head := n / 2 ^ 96 % 2 ^ 32, link := n / 2 ^ 64 % 2 ^ 32, v := decide (n / 2 ^ 63 % 2 = 1), seq := n / 2 ^ 39 % 2 ^ 24,
    layer := n / 2 ^ 27 % 2 ^ 12, lblk := n / 2 ^ 7 % 2 ^ 20, vlen := n / 2 % 2 ^ 6, low := n % 2 }
def kvBits (k : KvEnt) : Nat :=
  k.head % 2 ^ 32 * 2 ^ 96 + k.link % 2 ^ 32 * 2 ^ 64 + k.v.toNat * 2 ^ 63 + k.seq % 2 ^ 24 * 2 ^ 39 +
    k.layer % 2 ^ 12 * 2 ^ 27 + k.lblk % 2 ^ 20 * 2 ^ 7 + k.vlen % 2 ^ 6 * 2 + k.low % 2
/-- A key (SEQ, LAYER, LBLK). -/
structure KvKey where
  seq : Nat
  layer : Nat
  lblk : Nat
  deriving DecidableEq, Repr
def kvHolds (k : KvKey) (x : KvEnt) : Bool := x.v && x.seq == k.seq && x.layer == k.layer && x.lblk == k.lblk
/-- The number of whole entries of a table capability (R292). -/
def kvSize (c : CapReg) : Nat := ((capLen c : Int) - capOff c).toNat / 16
def kvBucket (np : Nat) (k : KvKey) : Nat :=
  (k.seq * 0x9E3779B1 + k.layer * 0x85EBCA6B + k.lblk * 0xC2B2AE35) % 2 ^ 32 % np
def kvRead (w : Who) (e : Entry) (c : CapReg) (s : State) (i : Nat) : EAns KvEnt :=
  eBind (entRead w e c (rENG + rLD) false s (capPos c + 16 * i) 16) fun s1 v => .ok s1 (kvOf v)
def kvWrite (w : Who) (e : Entry) (c : CapReg) (s : State) (i : Nat) (x : KvEnt) : EAns Unit :=
  entWrite w e c (rENG + rST) false s (capPos c + 16 * i) 16 (kvBits x)
/-- The overflow list of a bucket, walked through LINK for at most `fuel` steps (R294). A HEAD or LINK that names no page of the table
ends it, as 0 does (DESIGN CHOICE, log 96: R294 gives such a value no meaning). -/
def kvWalk (w : Who) (e : Entry) (c : CapReg) (k : KvKey) (np : Nat) : Nat → Nat → State → EAns (Option Nat)
  | 0, _, s => .ok s none
  | fuel + 1, at1, s =>
    if at1 = 0 ∨ np < at1 then .ok s none
    else eBind (kvRead w e c s (at1 - 1)) fun s1 x =>
      if kvHolds k x then .ok s1 (some (at1 - 1)) else kvWalk w e c k np fuel x.link s1
def kvProbe (w : Who) (e : Entry) (c : CapReg) (k : KvKey) (np b : Nat) : List Nat → State → EAns (Option Nat)
  | [], s => .ok s none
  | i :: r, s => eBind (kvRead w e c s ((b + i) % np)) fun s1 x =>
      if kvHolds k x then .ok s1 (some ((b + i) % np)) else kvProbe w e c k np b r s1
/-- Lookup of a key (R294): the page, if any. -/
def kvLookup (w : Who) (e : Entry) (c : CapReg) (k : KvKey) (s : State) : EAns (Option Nat) :=
  let np := kvSize c
  if np = 0 then .ok s none
  else
    let b := kvBucket np k
    eBind (kvProbe w e c k np b (List.range 8) s) fun s1 p =>
      match p with
      | some x => .ok s1 (some x)
      | none => eBind (kvRead w e c s1 b) fun s2 x => kvWalk w e c k np np x.head s2
/-- Remove page P + 1 from the overflow list that starts at entry `at1`'s LINK, or at the bucket's HEAD (R295). -/
def kvUnlink (w : Who) (e : Entry) (c : CapReg) (np p1 tail : Nat) : Nat → Nat → State → EAns Unit
  | 0, _, s => .ok s ()
  | fuel + 1, at1, s =>
    if at1 = 0 ∨ np < at1 then .ok s ()
    else eBind (kvRead w e c s (at1 - 1)) fun s1 x =>
      if x.link = p1 then kvWrite w e c s1 (at1 - 1) { x with link := tail }
      else kvUnlink w e c np p1 tail fuel x.link s1
/-- KVUNMAP of a valid page that has just been read (R295): it is unlinked first, so every read comes before any write, and a hold
leaves the table as it was. -/
def kvClear (w : Who) (e : Entry) (c : CapReg) (p : Nat) (x : KvEnt) (s : State) : EAns Unit :=
  let np := kvSize c
  let b := kvBucket np ⟨x.seq, x.layer, x.lblk⟩
  eBind (kvRead w e c s b) fun s1 h =>
    eBind (if h.head = p + 1 then kvWrite w e c s1 b { h with head := x.link }
      else kvUnlink w e c np (p + 1) x.link np h.head s1) fun s2 _ =>
      eBind (kvRead w e c s2 p) fun s3 y => kvWrite w e c s3 p { y with v := false, vlen := 0, link := 0 }
/-- KVMAP (R295): the result code. -/
def kvmapRun (w : Who) (e : Entry) (c : CapReg) (p : Nat) (k : KvKey) (vlen : Nat) (s : State) : EAns Nat :=
  let np := kvSize c
  if np ≤ p then .ok s 3
  else eBind (kvRead w e c s p) fun s1 x =>
    if x.v then .ok s1 1
    else eBind (kvLookup w e c k s1) fun s2 found =>
      if found.isSome then .ok s2 2
      else
        let b := kvBucket np k
        let y : KvEnt := { x with v := true, seq := k.seq, layer := k.layer, lblk := k.lblk, vlen := vlen }
        if 8 ≤ (p + np - b) % np then
          eBind (kvRead w e c s2 b) fun s3 h =>
            eBind (kvWrite w e c s3 p { y with link := h.head }) fun s4 _ =>
              eBind (kvRead w e c s4 b) fun s5 h2 => eBind (kvWrite w e c s5 b { h2 with head := p + 1 }) fun s6 _ => .ok s6 0
        else eBind (kvWrite w e c s2 p y) fun s3 _ => .ok s3 0
/-- KVMAP.len (R295). -/
def kvlenRun (w : Who) (e : Entry) (c : CapReg) (p : Nat) (k : KvKey) (vlen : Nat) (s : State) : EAns Nat :=
  if kvSize c ≤ p then .ok s 3
  else eBind (kvRead w e c s p) fun s1 x =>
    if kvHolds k x then eBind (kvWrite w e c s1 p { x with vlen := vlen }) fun s2 _ => .ok s2 0 else .ok s1 1
/-- KVUNMAP (R295). -/
def kvunmapRun (w : Who) (e : Entry) (c : CapReg) (p : Nat) (s : State) : EAns Nat :=
  if kvSize c ≤ p then .ok s 3
  else eBind (kvRead w e c s p) fun s1 x => if x.v then eBind (kvClear w e c p x s1) fun s2 _ => .ok s2 0 else .ok s1 4
/-- The forms that change a table, which on one table are carried out one at a time (R295, R341). -/
def tableOp (e : Entry) : Bool := match e.cmd with | .kvmap _ | .kvmapLen _ | .kvunmap _ | .trunc _ => true | _ => false
/-- Another entry's operation on the table object is under way: operations wait for it to start, lookups to see the table before
or after it (R295, R341, R342). -/
def tableBusy (s : State) (pid oid : BitVec 32) (serial : Nat) : Bool :=
  let on := fun (e : Entry) =>
    tableOp e && e.st == .running && e.pid == pid && capOid (entCap e 0) == oid && e.serial != serial
  (s.clusters.any fun c => (lkpD c.2.queues .ae []).any on) || (s.slabs.any fun b => (lkpD b.2.queues .su []).any on)
def keyOfReg (x : W64) : KvKey := ⟨bitsN x 40 24, bitsN x 28 12, bitsN x 8 20⟩
/-- The AE table forms: the page number is the whole register (R295). -/
def kvRun (q : QueueId) (e : Entry) (s : State) : EAns Nat :=
  let w := entWho q e
  let c := entCap e 0
  let p := (entReg e 1).toNat
  match e.cmd with
  | .kvmap _ => kvmapRun w e c p (keyOfReg (entReg e 2)) (bitsN (entReg e 2) 0 6) s
  | .kvmapLen _ => kvlenRun w e c p (keyOfReg (entReg e 2)) (bitsN (entReg e 2) 0 6) s
  | _ => kvunmapRun w e c p s

/-! ### The request block (R296, R297) -/

/-- The fields of a request block that the engine reads. -/
structure Req where
  scale : Nat
  win : Nat
  poff : Nat
  ooff : Nat
  ostride : Nat
  qstride : Nat
  qoff : Nat
  qpos0 : Nat
  nq : Nat
  head0 : Nat
  nh : Nat
  grp : Nat
  pend : Nat
  pstart : Nat
  cur : Nat
  seq : Nat
  layer : Nat
  bmoff : Nat
  skipn : Nat
  status : Nat
  ofmt : Nat
  mask : Nat
  final : Bool
  e4m3 : Bool
  d : Nat
  ok : Bool
  deriving DecidableEq, Repr
/-- The request of a block. WIN without MASK = 2 is a zero field of no named fate, which reads 0, and nothing uses it (R6, R296). -/
def reqOf (n : Nat) : Req :=
  let f := fun (lo len : Nat) => n / 2 ^ lo % 2 ^ len
  let grp := f 640 8
  let head0 := f 656 8
  let nh := f 648 8 + 1
  let d := 64 * 2 ^ f 361 2
  let hk := if f 363 2 = 1 then 1024 / d else 512 / d
  { scale := f 992 32, win := f 960 32, poff := f 896 64, ooff := f 832 64, ostride := f 800 32, qstride := f 768 32,
    qoff := f 704 64, qpos0 := f 672 32, nq := f 664 8 + 1, head0 := head0, nh := nh, grp := grp, pend := f 608 32,
    pstart := f 576 32, cur := f 544 32, seq := f 520 24, layer := f 508 12, bmoff := f 416 64, skipn := f 384 32,
    status := f 376 8, ofmt := f 368 4, mask := f 366 2, final := decide (f 365 1 = 1), e4m3 := decide (f 363 2 = 1), d := d,
    ok := grp != 0 && f 480 28 == 0 && f 372 4 == 0 && (f 368 4 == 1 || f 368 4 == 3) && decide (f 363 2 < 2) &&
      decide (f 361 2 < 3) && f 320 41 == 0 && f 0 256 == 0 &&
      decide ((head0 + nh - 1) / grp < hk) }
def blockPos (e : Entry) : Int := capPos (entCap e 0) + (entReg e 1).toNat
def readReq (w : Who) (e : Entry) (s : State) : EAns Req :=
  eBind (entRead w e (entCap e 0) (rENG + rLD + rST) false s (blockPos e) 128) fun s1 v => .ok s1 (reqOf v)
/-- Write CUR, SKIPN and STATUS, the fields the engine owns (R296). -/
def wrCur (w : Who) (e : Entry) (s : State) (v : Nat) : EAns Unit :=
  entWrite w e (entCap e 0) (rENG + rLD + rST) false s (blockPos e + 68) 4 v
def wrSkipn (w : Who) (e : Entry) (s : State) (v : Nat) : EAns Unit :=
  entWrite w e (entCap e 0) (rENG + rLD + rST) false s (blockPos e + 48) 4 v
def wrStatus (w : Who) (e : Entry) (s : State) (v : Nat) : EAns Unit :=
  entWrite w e (entCap e 0) (rENG + rLD + rST) false s (blockPos e + 47) 1 v

def recSize (r : Req) : Nat := 4 * r.d + 32
/-- The (row, head) pairs of a request, rows outermost (R297). -/
def reqPairs (r : Req) : List (Nat × Nat) := (List.range r.nq).flatMap fun n => (List.range r.nh).map fun h => (n, r.head0 + h)
def recPos (e : Entry) (r : Req) (n h : Nat) : Int :=
  capPos (entCap e 4) + (r.poff + (n * r.nh + (h - r.head0)) * recSize r : Nat)
/-- A key position kept for a row (R297); bit of the bitmap for the block-sparse mask. -/
def kept (r : Req) (bit : Nat → Bool) (n b x : Nat) : Bool :=
  let kpos := 32 * b + x
  let q := r.qpos0 + n
  match r.mask with
  | 0 => decide (kpos ≤ q)
  | 1 => true
  | 2 => decide (q < kpos + r.win) && decide (kpos ≤ q)
  | _ => bit (n / 32)
/-- The bitmap bits of page b, by group of 32 rows (R297). -/
def readBits (w : Who) (e : Entry) (r : Req) (b : Nat) : Nat → State → EAns (List Bool)
  | 0, s => .ok s []
  | k + 1, s =>
    if r.mask ≠ 3 then .ok s []
    else
      let bit := k * r.pend + b
      eBind (readBits w e r b k s) fun s1 l =>
        eBind (entRead w e (entCap e 5) (rENG + rLD) false s1 (capPos (entCap e 5) + (r.bmoff + bit / 8 : Nat)) 1) fun s2 v =>
          .ok s2 (l ++ [decide (v / 2 ^ (bit % 8) % 2 = 1)])

/-! ### Pages (R298 to R301) -/

def wideRow (n : Nat) (w k : Nat) : List Nat := (List.range k).map fun i => n / 2 ^ (w * i) % 2 ^ w
/-- One (row, head) of one page: scores, softmax step, weighted sum; the record's new words (R298). -/
def attnPair (r : Req) (keep : Nat → Bool) (vlen : Nat) (qv : List FVal) (krow vrow : Nat → List FVal) (m l : Nat) (o : List Nat) :
    Nat × Nat × List Nat :=
  let act := fun x => decide (x < vlen) && keep x
  let sc := fun x => f32mul r.scale (roundF 1 .rne (exactSum (List.zipWith mulF qv (krow x))))
  let (p, m1, l1, a) := softmaxStep act sc m l
  let pf := p.map (decodeF 1)
  let o1 := o.zipIdx.map fun x =>
    let sum := roundF 1 .rne (exactSum (pf.zipIdx.map fun y => mulF y.1 ((vrow y.2).getD x.2 (.fin false 0 0))))
    f32add (f32mul x.1 a) sum
  (m1, l1, o1)
/-- The K or V row of slot x and KV head g in page P (R292). -/
def kvRow (w : Who) (e : Entry) (r : Req) (p g : Nat) (isV : Bool) (s : State) (x : Nat) : EAns (List FVal) :=
  let eb := if r.e4m3 then 1 else 2
  let off := (if isV then 32768 else 0) + 1024 * x + eb * r.d * g
  eBind (entRead w e (entCap e 3) (rENG + rLD) false s (capPos (entCap e 3) + (65536 * p + off : Nat)) (eb * r.d)) fun s1 v =>
    .ok s1 ((wideRow v (8 * eb) r.d).map (decodeF (if r.e4m3 then 4 else 3)))
def kvRows (w : Who) (e : Entry) (r : Req) (p g : Nat) (isV : Bool) : List Nat → State → EAns (List (List FVal))
  | [], s => .ok s []
  | x :: t, s => eBind (kvRow w e r p g isV s x) fun s1 a => eBind (kvRows w e r p g isV t s1) fun s2 l => .ok s2 (a :: l)
/-- One page of one request for one (row, head): the record as the page leaves it (R298). -/
def pagePair (w : Who) (e : Entry) (r : Req) (bits : List Bool) (p vlen b : Nat) (nh : Nat × Nat) (s : State) : EAns Nat :=
  let g := nh.2 / r.grp
  let pos := recPos e r nh.1 nh.2
  let qpos := capPos (entCap e 1) + (r.qoff + r.qstride * nh.1 + 2 * r.d * nh.2 : Nat)
  eBind (entRead w e (entCap e 1) (rENG + rLD) false s qpos (2 * r.d)) fun s1 qn =>
    eBind (kvRows w e r p g false (List.range 32) s1) fun s2 ks =>
      eBind (kvRows w e r p g true (List.range 32) s2) fun s3 vs =>
        eBind (entRead w e (entCap e 4) (rENG + rLD + rST) false s3 pos (recSize r)) fun s4 st =>
          let qv := (wideRow qn 16 r.d).map (decodeF 3)
          let (m, l, o) := attnPair r (kept r (fun i => bits.getD i false) nh.1 b) vlen qv (fun x => ks.getD x []) (fun x => vs.getD x [])
            (st % 2 ^ 32) (st / 2 ^ 32 % 2 ^ 32) (wideRow (st / 2 ^ 256) 32 r.d)
          .ok s4 (m + 2 ^ 32 * l + 2 ^ 256 * o.foldr (fun x a => x + 2 ^ 32 * a) 0)
/-- Every record starts as (−∞, +0, +0, …) (R298). -/
def initRecs (w : Who) (e : Entry) (r : Req) : List (Nat × Nat) → State → EAns Unit
  | [], s => .ok s ()
  | x :: t, s =>
    eBind (entWrite w e (entCap e 4) (rENG + rLD + rST) false s (recPos e r x.1 x.2) (recSize r) f32ninf) fun s1 _ => initRecs w e r t s1
def runPairs (g : Nat × Nat → State → EAns Unit) : List (Nat × Nat) → State → EAns Unit
  | [], s => .ok s ()
  | x :: t, s => eBind (g x s) fun s1 _ => runPairs g t s1
/-- A page of a request: every record is read at its start and written at its end, so a page that is held is done again whole
(R298). -/
def runPage (w : Who) (e : Entry) (r : Req) (bits : List Bool) (p vlen b : Nat) : List (Nat × Nat) → State → EAns Unit
  | [], s => .ok s ()
  | x :: t, s =>
    eBind (pagePair w e r bits p vlen b x s) fun s1 new =>
      eBind (runPage w e r bits p vlen b t s1) fun s2 _ =>
        entWrite w e (entCap e 4) (rENG + rLD + rST) false s2 (recPos e r x.1 x.2) (recSize r) new
/-- The normalised result of one (row, head) (R297, R298): an exact quotient rounded once. -/
def finalPair (w : Who) (e : Entry) (r : Req) (nh : Nat × Nat) (s : State) : EAns Unit :=
  let wb := if r.ofmt = 1 then 4 else 2
  let c : BitVec 4 := if r.ofmt = 1 then 1 else 3
  eBind (entRead w e (entCap e 4) (rENG + rLD + rST) false s (recPos e r nh.1 nh.2) (recSize r)) fun s1 st =>
    let l := decodeF 1 (st / 2 ^ 32 % 2 ^ 32)
    let out := (wideRow (st / 2 ^ 256) 32 r.d).map fun o =>
      if isZeroF l then 0
      else match decodeF 1 o, l with
        | .fin a m x, .fin b n y => roundF c .rne (divF (.fin a m x) (.fin b n y))
        | .inf a, .fin b _ _ => roundF c .rne (.inf (a != b))
        | .fin a _ _, .inf b => roundF c .rne (.fin (a != b) 0 0)
        | _, _ => canonNaN c
    entWrite w e (entCap e 4) (rENG + rLD + rST) false s1
      (capPos (entCap e 4) + (r.ooff + r.ostride * nh.1 + (nh.2 - r.head0) * r.d * wb : Nat)) (wb * r.d)
      (out.foldr (fun x a => x + 2 ^ (8 * wb) * a) 0)
/-- After the last page: STATUS, and the result when FINAL and nothing was skipped (R298). -/
def attnFinish (w : Who) (e : Entry) (r : Req) (s : State) : EAns Unit :=
  eBind (wrStatus w e s (if r.skipn = 0 then 2 else 3)) fun s1 _ =>
    if r.final && r.skipn == 0 then runPairs (finalPair w e r) (reqPairs r) s1 else .ok s1 ()
/-- The start of an ATTN or ATTNC entry (R298, R300): the block is checked, CUR, SKIPN and the records set or kept. -/
def attnStart (q : QueueId) (e : Entry) (s : State) : EAns Unit :=
  let w := entWho q e
  let fresh := !e.attnc
  eBind (readReq w e s) fun s1 r =>
    if !r.ok || (e.attnc && r.status != 4 && r.status != 5) then
      .fault s1 (entFault e { cls := 6, d0 := otWord s1 e.pid q.die (capOid (entCap e 0)).toNat 0, oid := capOid (entCap e 0) })
    else if fresh then
      eBind (wrCur w e s1 r.pstart) fun s2 _ =>
        eBind (wrSkipn w e s2 0) fun s3 _ => eBind (initRecs w e r (reqPairs r) s3) fun s4 _ => wrStatus w e s4 1
    else wrStatus w e s1 1

/-- How the next page of a running request stands. -/
inductive PageAns
  | finish
  | skipMasked
  | absent
  | miss (page : Nat)
  | page (p vlen : Nat)
  deriving DecidableEq, Repr
/-- The pool extent of a page (R298, R299). -/
def pageExtent (w : Who) (e : Entry) (s : State) (p : Nat) : State × Chk :=
  checkAcc s w 0 (entCap e 3) { rights := rENG + rLD, n := 65536, align := 1 } (capPos (entCap e 3) + (65536 * p : Nat))
def isCxl (s : State) (w : Who) (r : Res) : Bool := extTier (xlate s w r.tkey).2.ext == 1
/-- Classify page CUR (R298). -/
def pageAt (q : QueueId) (e : Entry) (s : State) (r : Req) : EAns (PageAns × List Bool) :=
  let w := entWho q e
  if r.pend ≤ r.cur then .ok s (.finish, [])
  else
    let b := r.cur
    eBind (readBits w e r b (cdiv r.nq 32) s) fun s1 bits =>
      if !(List.range r.nq).any fun n => (List.range 32).any fun x => kept r (fun i => bits.getD i false) n b x then
        .ok s1 (.skipMasked, bits)
      else if tableBusy s1 e.pid (capOid (entCap e 2)) e.serial then .hold s1
      else eBind (kvLookup w e (entCap e 2) ⟨r.seq, r.layer, b⟩ s1) fun s2 found =>
        match found with
        | none => .ok s2 (.absent, bits)
        | some p =>
          match pageExtent w e s2 p with
          | (s3, .fault f) => .fault s3 (entFault e f)
          | (s3, .moving) => .hold s3
          | (s3, .unmapped _) => .ok s3 (.absent, bits)
          | (s3, .ok x) =>
            if isCxl s3 w x then .ok s3 (.miss p, bits)
            else eBind (kvRead w e (entCap e 2) s3 p) fun s4 t => .ok s4 (.page p (min 32 t.vlen), bits)
/-- KVABSENT at page CUR (R300). -/
def kvAbsent (e : Entry) (r : Req) : FInfo :=
  { cls := 18, d0 := BitVec.ofNat 64 (r.seq * 2 ^ 40 + r.layer * 2 ^ 28 + r.head0 * 2 ^ 20), d1 := BitVec.ofNat 64 r.cur,
    d2 := entReg e 1, oid := capOid (entCap e 0) }
/-- The translation that a request holds for the page it is inside (R301). -/
def heldPage (s : State) (e : Entry) : Option AeTrans := (clusterAt s (entClus e)).ae.find? (·.serial == e.serial)
def dropPage (s : State) (e : Entry) : State :=
  modCluster s (entClus e) fun k => { k with ae := k.ae.filter (·.serial != e.serial) }
def holdPage (s : State) (e : Entry) (r : Req) (p vlen : Nat) : State :=
  modCluster s (entClus e) fun k => { k with
    ae := k.ae ++ [{ pid := e.pid, serial := e.serial, seq := r.seq, layer := r.layer, lblk := r.cur, page := p, vlen := vlen, since := s.ck }] }
/-- One step of a running request: enter page CUR, or finish the page it is inside, or the request (R298, R301). The flag
says that the request is over. -/
def attnStep (q : QueueId) (e : Entry) (s : State) : EAns Bool :=
  let w := entWho q e
  eBind (readReq w e s) fun s1 r =>
    match heldPage s1 e with
    | some t =>
      eBind (readBits w e r t.lblk (cdiv r.nq 32) s1) fun s2 bits =>
        eBind (runPage w e r bits t.page t.vlen t.lblk (reqPairs r) s2) fun s3 _ =>
          eBind (wrCur w e s3 (t.lblk + 1)) fun s4 _ => .ok (dropPage s4 e) false
    | none =>
      eBind (pageAt q e s1 r) fun s2 x =>
        match x.1 with
        | .finish => eBind (attnFinish w e r s2) fun s3 _ => .ok s3 true
        | .skipMasked => eBind (wrCur w e s2 (r.cur + 1)) fun s3 _ => .ok s3 false
        | .absent => eBind (wrStatus w e s2 4) fun s3 _ => .fault s3 (kvAbsent e r)
        | .miss _ => .hold s2
        | .page p vlen => .ok (holdPage s2 e r p vlen) false
/-- TIERMISS at page CUR (R299): the record first; while the event queue is full the request holds, and so it does while its issuer is
on no core (DESIGN CHOICE, log 96: R299 names the issuing core's queue alone). -/
def tierStep (q : QueueId) (e : Entry) (s : State) : EAns Unit :=
  let w := entWho q e
  eBind (readReq w e s) fun s1 r =>
    if (heldPage s1 e).isSome then .hold s1
    else eBind (pageAt q e s1 r) fun s2 x =>
      match x.1 with
      | .miss p =>
        match coreOfTask s2 e.pid e.taskId with
        | none => .hold s2
        | some c =>
          match (coreAt s2 c).task with
          | none => .hold s2
          | some t =>
            if 64 ≤ t.evq.length then .hold s2
            else
              eBind (wrSkipn w e s2 (r.skipn + 1)) fun s3 _ =>
                eBind (wrCur w e s3 (r.cur + 1)) fun s4 _ =>
                  .ok (modTask s4 c (postEvent (eventRec 2 5 (capOid (entCap e 3)) (entReg e 1)
                    (BitVec.ofNat 64 (r.seq * 2 ^ 40 + r.layer * 2 ^ 28 + r.cur * 2 ^ 8)) (BitVec.ofNat 64 p)))) ()
      | _ => .hold s2

end Sys2Proof.Machine
end

