-- ==== Sys2Proof/Machine/Stream.lean ====
section
/-! DEFINITION. The stream unit: its forms, frame arrival and truncation (R302 to R304, R335 to R341). -/

namespace Sys2Proof.Machine

def recAt (s : State) (d : DieId) (i : Nat) : SRec := lkpD (dieAt s d).recs i {}
def setRec (s : State) (d : DieId) (i : Nat) (r : SRec) : State := modDie s d fun k => { k with recs := ins k.recs i r }
/-- The lowest stamp in the FIFO (R336). -/
def ceil (r : SRec) : Nat := r.fifo.foldl (fun a x => min a x.1.toNat) (2 ^ 32 - 1)
def allOnes : W64 := BitVec.allOnes 64
def pair32 (hi lo : BitVec 32) : W64 := hi ++ lo
/-- Valid snapshots in the order taken, latest first: slots walked back from SHEAD (R302). -/
def snapsBack (r : SRec) : List Nat :=
  ((List.range 8).map fun i => (r.shead + 8 - i) % 8).filter fun k => r.svalid.getLsbD k
def scount (v : BitVec 8) : Nat := ((List.range 8).filter fun k => v.getLsbD k).length

/-- A cursor form's new record and result; none when it is refused (R303, R336, R339). A value that would take a cursor beyond
2^32 − 1 is refused; CURS .play reads bits 31:0 (R303, R335; log 31). -/
def suForm (i : Instr) (val : W64) (task : W64) (r : SRec) : Option (SRec × W64) :=
  let v : BitVec 32 := val.truncate 32
  let fits := decide (val.toNat < 2 ^ 32)
  let c := ceil r
  match i with
  | .cursRd _ => if r.v then some (r, pair32 r.gen r.play) else none
  | .cursPlay _ =>
    if r.v && decide (r.play ≤ v) && decide (v ≤ r.gen) && decide (v ≤ r.cmt) && decide (v.toNat ≤ c) then
      some ({ r with play := v }, pair32 r.gen v) else none
  | .cursGen _ =>
    if r.v && fits && decide (r.gen ≤ v) && decide (v.toNat ≤ c) then some ({ r with gen := v }, pair32 v r.play) else none
  | .cursInit _ =>
    if bitsN val 38 2 = 3 ∨ bitsN val 0 16 = 0 then none
    else some ({ seq := val.extractLsb' 40 24, policy := bitsN val 38 2, v := true, sint := val.extractLsb' 0 16, shead := 7,
                 nlm1 := val.extractLsb' 26 12, listener := some task }, 0)
  | .cursFree _ => if r.v then some ({ r with v := false, fifo := [], svalid := 0, shead := 7 }, 0) else none
  | .cursRdc _ => if r.v then some (r, pair32 r.rply r.cmt) else none
  | .commit _ =>
    if r.v && fits && decide (r.cmt ≤ v) && decide (v ≤ r.gen) && decide (v.toNat ≤ c) then some ({ r with cmt := v }, pair32 r.gen v)
    else none
  | .commitSnap _ =>
    if r.v && fits && v.toNat % r.sint.toNat == 0 && decide (v ≤ r.gen) then
      let k := (r.shead + 1) % 8
      some ({ r with snap := ins r.snap k v, svalid := r.svalid ||| BitVec.ofNat 8 (2 ^ k), shead := k }, BitVec.ofNat 64 k)
    else none
  | .sinpop _ =>
    if !r.v || r.fifo.any fun x => decide (x.1 < r.gen) then none
    else match r.fifo with
      | [] => some ({ r with listener := some task }, allOnes)
      | x :: rest => some ({ r with fifo := rest, fhead := (r.fhead + 1) % 16, listener := some task }, pair32 x.1 x.2)
  | _ => none

/-! ### TRUNC (R304, R341) -/

/-- The layers and blocks that TRUNC unmaps. -/
def truncKeys (r : SRec) (p : Nat) : List KvKey :=
  let b0 := cdiv p 32
  let b1 := r.gen.toNat / 32
  (List.range (r.nlm1.toNat + 1)).flatMap fun l => (List.range (b1 + 1 - b0)).map fun i => ⟨r.seq.toNat, l, b0 + i⟩
def truncUnmap (w : Who) (e : Entry) (c : CapReg) : List KvKey → State → EAns Unit
  | [], s => .ok s ()
  | k :: t, s => eBind (kvLookup w e c k s) fun s1 found =>
      match found with
      | none => truncUnmap w e c t s1
      | some p => eBind (kvRead w e c s1 p) fun s2 x => eBind (kvClear w e c p x s2) fun s3 _ => truncUnmap w e c t s3
def truncTrim (w : Who) (e : Entry) (c : CapReg) (r : SRec) (p : Nat) : List Nat → State → EAns Unit
  | [], s => .ok s ()
  | l :: t, s => eBind (kvLookup w e c ⟨r.seq.toNat, l, p / 32⟩ s) fun s1 found =>
      match found with
      | none => truncTrim w e c r p t s1
      | some pg => eBind (kvRead w e c s1 pg) fun s2 x =>
          eBind (kvWrite w e c s2 pg { x with vlen := min (min 32 x.vlen) (p % 32) }) fun s3 _ => truncTrim w e c r p t s3
/-- Steps 2 and 3 of R304 on the record; the slot of RPLY, 255 when no snapshot remains. -/
def truncRec (r : SRec) (p : Nat) : SRec × Nat :=
  let left := (snapsBack r).filter fun k => decide ((lkpD r.snap k 0).toNat ≤ p)
  let best := left.foldl (fun (a : Option Nat) k =>
    match a with
    | none => some k
    | some b => if (lkpD r.snap b 0).toNat < (lkpD r.snap k 0).toNat then some k else some b) none
  let rply := match best with | some k => lkpD r.snap k 0 | none => 0
  ({ r with svalid := BitVec.ofNat 8 (left.foldl (fun a k => a + 2 ^ k) 0), rply := rply, shead := left.headD 7,
            cmt := BitVec.ofNat 32 (min r.cmt.toNat p), gen := BitVec.ofNat 32 p }, best.getD 255)
def truncRun (q : QueueId) (e : Entry) (s : State) : EAns W64 :=
  let w := entWho q e
  let c := entCap e 0
  let i := bitsN (entReg e 1) 0 6
  let r := recAt s q.die i
  let p := bitsN (entReg e 2) 0 32
  if !holdsSlab s e.pid ⟨q.die, i / 32⟩ || !r.v || decide (p < r.play.toNat) || decide (r.gen.toNat < p) then .ok s allOnes
  else
    eBind (truncUnmap w e c (truncKeys r p) s) fun s1 _ =>
      eBind (if p % 32 = 0 then .ok s1 () else truncTrim w e c r p (List.range (r.nlm1.toNat + 1)) s1) fun s2 _ =>
        let (r1, slot) := truncRec r p
        .ok (setRec s2 q.die i r1) (BitVec.ofNat 64 (slot * 2 ^ 56 + r1.rply.toNat))
/-- The record that an SU form names (R303). -/
def suRecord (e : Entry) : Nat := match e.cmd with | .trunc _ => bitsN (entReg e 1) 0 6 | _ => bitsN (entReg e 0) 0 6
/-- A TRUNC on this record of the die runs: later forms and arrivals wait (R340). -/
def truncRuns (s : State) (d : DieId) (i : Nat) : Bool :=
  [0, 1].any fun u => (queueAt s ⟨d, u, .su⟩).any fun e =>
    (match e.cmd with | .trunc _ => true | _ => false) && e.st == .running && !e.done && suRecord e == i
/-- An SU entry's work: its single point in the record's order (R340). -/
def suRun (q : QueueId) (e : Entry) (s : State) : EAns W64 :=
  match e.cmd with
  | .trunc _ => truncRun q e s
  | i =>
    let n := bitsN (entReg e 0) 0 6
    if !holdsSlab s e.pid ⟨q.die, n / 32⟩ then .ok s allOnes
    else match suForm i (entReg e 1) e.taskId (recAt s q.die n) with
      | none => .ok s allOnes
      | some (r, v) => .ok (setRec s q.die n r) v

/-! ### Frame arrival (R337, R338) -/

/-- An event for a record's listener. It is dropped when the listener is not resident, and LOST is noted in the listener's image, or
at the partition for a task that is to start again under its id (R306, R337). -/
def toListener (s : State) (pid : BitVec 32) (r : SRec) (ev : BitVec 256) : State :=
  match r.listener with
  | none => s
  | some tid =>
    match coreOfTask s pid tid with
    | some c => modTask s c (postEvent ev)
    | none =>
      let mine := fun (t : Task) => t.pid == pid && t.taskId == tid
      if anyTask s mine then modTaskId s pid tid fun t => { t with evLost := true }
      else modPart s pid fun p => if p.lostTo.contains tid then p else { p with lostTo := p.lostTo ++ [tid] }
/-- The launch of a task: its number and tag, from bits 23:0 of LSEQ in the task's id (R137, R140; log 82). -/
def launchOfTask (s : State) (pid : BitVec 32) (tid : W64) : BitVec 32 × BitVec 32 :=
  let n := bitsN tid 23 24
  match (partAt s pid).bind fun p => p.launches.find? fun x => bitsN x.1 0 24 == n with
  | some (q, l) => (q, l.packet.extractLsb' 960 32)
  | none => (BitVec.ofNat 32 n, 0)
/-- The LATEFRAME record of a listener (R329, R338): LSEQ, LTAG, CLUS and CIX are those of the listener's launch and core, 0 where it has
none (DESIGN CHOICE, log 82). -/
def lateRec (s : State) (pid : BitVec 32) (listener : Option W64) (i : Nat) (p play : BitVec 32) : FaultRec :=
  let core := listener.bind (coreOfTask s pid)
  let (q, g) := match listener with | some t => launchOfTask s pid t | none => (0, 0)
  { cls := 19, src := 6, susp := false, clus := (core.map fun c => c.core / 4).getD 0, cix := (core.map cix).getD 0,
    taskId := listener.getD 0, ltag := g, lseq := q, d0 := BitVec.ofNat 64 i, d1 := p.zeroExtend 64, d2 := play.zeroExtend 64 }
/-- The status and effect of a frame stamped p at record i of a die (R337, R338). -/
def frameAt (s : State) (pid : BitVec 32) (d : DieId) (i : Nat) (p handle : BitVec 32) : State × Nat :=
  let r := recAt s d i
  let sl : SlabId := ⟨d, i / 32⟩
  let sinput := fun (st : BitVec 32) => eventRec 4 6 0 (BitVec.ofNat 64 i) (st.zeroExtend 64) (handle.zeroExtend 64)
  let slate := fun (n : Nat) => eventRec 5 6 0 (BitVec.ofNat 64 i) (p.zeroExtend 64) (BitVec.ofNat 64 n)
  if !holdsSlab s pid sl || !r.v then (s, 5)
  else if p < r.play then
    match r.policy with
    | 0 =>
      let s1 := toListener s pid r (slate 0)
      (postRec s1 sl (lateRec s1 pid r.listener i p r.play), 3)
    | 1 => (toListener s pid r (slate 1), 2)
    | _ =>
      let s1 := toListener s pid r (slate 2)
      if 16 ≤ r.fifo.length then (s1, 4)
      else
        let r1 := { r with fifo := r.fifo ++ [(r.play, handle)] }
        (toListener (setRec s1 d i r1) pid r1 (sinput r.play), 1)
  else if 16 ≤ r.fifo.length then (s, 4)
  else
    let r1 := { r with fifo := r.fifo ++ [(p, handle)] }
    (toListener (setRec s d i r1) pid r1 (sinput p), 0)

end Sys2Proof.Machine
end

