-- ==== Sys2Proof/Machine/EngineStep.lean ====
section
/-! DEFINITION. The steps of an engine queue (R22, R122, R273, R277, R278): start, work, completion, halo faces, the re-shard
rendezvous, fired sends, and the pages of an attention request (R285 to R289, R298 to R301, R104, R105). -/

namespace Sys2Proof.Machine

/-! ### Start (R122, R277) -/

/-- The entry's wait semaphore has reached its value (R164). -/
def waitMet (s : State) (e : Entry) : Bool := !e.wv || decide (e.wcnt ≤ (semAt s (entClus e) e.wsem).toNat)
def isSendt (e : Entry) : Bool := match e.cmd with | .sendt _ => true | _ => false
def isRecv (e : Entry) : Bool := match e.cmd with | .recvadd _ => true | _ => false
def isAttn (e : Entry) : Bool := match e.cmd with | .attn _ | .attnc _ => true | _ => false
def isAttnc (e : Entry) : Bool := match e.cmd with | .attnc _ => true | _ => false
def isReshd (inst : Bool) (e : Entry) : Bool := match e.cmd with | .reshd _ => !inst | .reshdInst _ => inst | _ => false
/-- The queue at a shared engine of the die's other slab (R22). -/
def otherQ (q : QueueId) : QueueId := { q with unit := 1 - q.unit }
/-- The entry that a queue serves next: a fired send first (R289), then the head. -/
def nextEntry (s : State) (q : QueueId) : Option Entry :=
  match queueAt s q with
  | e :: _ => if e.st != .queued then some e else (match firedAt s q with | x :: _ => some x | [] => some e)
  | [] => (firedAt s q).head?
/-- HE and LE serve the two queues alternately, one entry at a time (R22). A RECVADD that waits for its stream, a stopped entry
and an entry whose wait is not met do not occupy the engine. -/
def engineFree (s : State) (q : QueueId) : Bool :=
  match q.q with
  | .he | .le =>
    let turn := if q.q = .he then (dieAt s q.die).heTurn else (dieAt s q.die).leTurn
    match nextEntry s (otherQ q) with
    | none => true
    | some o => !(o.st == .running && !isRecv o) && !(decide (turn ≠ q.unit) && o.st == .queued && waitMet s o)
  | _ => true
/-- Operations on one table are carried out one at a time, and SU forms wait for a TRUNC on their record (R295, R340, R341). -/
def orderMet (s : State) (q : QueueId) (e : Entry) : Bool :=
  !(tableOp e && tableBusy s e.pid (capOid (entCap e 0)) e.serial) && !(q.q == .su && truncRuns s q.die (suRecord e))
/-- Step 2 of R277: an entry that names a DIST object checks its generation again. -/
def lgenCheck (s : State) (q : QueueId) (e : Entry) : Option FInfo :=
  (e.caps.take 1 ++ (match e.cmd with | .cpylOo _ => e.caps.drop 1 | _ => [])).findSome? fun c =>
    if !c.tag || capOid c == 0 then none
    else
      let w0 := otWord s e.pid q.die (capOid c).toNat 0
      if wDist w0 && capLgen c != wLgen w0 then
        some (entFault e { cls := 7, d0 := BitVec.ofNat 64 (capLgen c), d1 := BitVec.ofNat 64 (wLgen w0), oid := capOid c })
      else none

/-- A piece of work is over: the flag tells a finished entry. -/
def fin (x : EAns Unit) : EAns Bool := eBind x fun s _ => .ok s true
def setResult (s : State) (q : QueueId) (serial : Nat) (v : W64) : State := modEntry s q serial fun e => { e with result := v }
/-- The work of an entry that has started; the flag says that nothing of it is left but acknowledgements. -/
def runEntry (q : QueueId) (e : Entry) (s : State) : EAns Bool :=
  match e.cmd with
  | .cpy _ => fin (runUnits q e (boxLines (entReg e 2)) (cpyUnit q e false) s)
  | .cpySt _ => fin (runUnits q e (boxLines (entReg e 2)) (cpyUnit q e true) s)
  | .cpyl _ => fin (runUnits q e (cdiv (spanLen (entReg e 2)) 256) (cpylUnit q e false) s)
  | .cpylSt _ => fin (runUnits q e (cdiv (spanLen (entReg e 2)) 256) (cpylUnit q e true) s)
  | .cpylOo _ => fin (runUnits q e (cdiv (entReg e 1).toNat 256) (cpylOoUnit q e) s)
  | .gath _ => fin (runUnits q e (bitsN (entReg e 1) 24 24) (gathUnit q e false) s)
  | .scat _ => fin (runUnits q e (bitsN (entReg e 1) 24 24) (gathUnit q e true) s)
  | .halo _ =>
    let m := (hgeoOf (entReg e 1)).mask
    if e.st = .queued then .ok (setProg s q e.serial m) (decide (m = 0)) else .ok s (decide (e.prog = 0))
  | .send f | .sendt f => fin (runUnits q e (chunks (spanLen (entReg e 1)) + 1) (sendUnit q e f.fn.toNat) s)
  | .mcast _ => fin (runUnits q e (mcastUnits e) (mcastUnit q e) s)
  | .recvadd f => fin (runUnits q e (spanLen (entReg e 0) / 32) (recvUnit q e f.fn.toNat) s)
  | .attn _ | .attnc _ =>
    if e.prog = 0 then
      eBind (attnStart q { e with attnc := e.attnc || isAttnc e } s) fun s1 _ => .ok (setProg s1 q e.serial 1) false
    else .ok s false
  | .kvmap _ | .kvmapLen _ | .kvunmap _ => eBind (kvRun q e s) fun s1 v => .ok (setResult s1 q e.serial (BitVec.ofNat 64 v)) true
  | .trunc _ | .cursRd _ | .cursPlay _ | .cursGen _ | .cursInit _ | .cursFree _ | .cursRdc _ | .commit _ | .commitSnap _ | .sinpop _ =>
    eBind (suRun q e s) fun s1 v => .ok (setResult s1 q e.serial v) true
  | _ => .ok s false
/-- An entry that a signal closes: SEND.mem and SEND.sem (R288). -/
def flagged (e : Entry) : Bool := match e.cmd with | .send f | .sendt f => decide (f.fn.toNat < 2) | _ => false
/-- The work of an entry has ended. A SEND whose flag has its effect in the same step completes with it (R112, R122; log 62). -/
def endWork (s : State) (q : QueueId) (serial : Nat) : State :=
  let s1 := modEntry s q serial fun x => { x with done := true }
  match entryAt s1 q serial with
  | some e => if flagged e && e.acks == 0 then completeEntry s1 q e else s1
  | none => s1
/-- Run an entry and note its progress. -/
def workEntry (s : State) (q : QueueId) (e : Entry) : State :=
  let s1 := modEntry s q e.serial fun x =>
    { x with st := .running, since := if x.st == .queued && q.q != .rs then s.ck else x.since }
  match runEntry q e s1 with
  | .ok s2 ended => if ended then endWork s2 q e.serial else s2
  | .hold s2 => s2
  | .fault s2 f => engFault s2 q e f
/-- A SENDT at the head arms, or fires at once, and leaves its queue without a signal (R289). -/
def armSend (s : State) (q : QueueId) (e : Entry) : State :=
  let sl : SlabId := ⟨q.die, q.unit⟩
  if 64 ≤ (slabAt s sl).armed.length then s
  else
    let s1 := popQueue s q e.serial
    let met := decide (e.wcnt ≤ (semAt s (entClus e) e.wsem).toNat)
    modSlab s1 sl fun b => if met then { b with fired := b.fired ++ [{ e with since := s.ck }] } else { b with armed := b.armed ++ [e] }

/-- ENGINE_ENTRY_START (R122, R277): the head starts when its wait is met and the engine is free, or goes on where it was
held. -/
def execEngineEntryStart (q : QueueId) (s : State) : Out :=
  .next <| match queueAt s q with
    | [] => s
    | e :: _ =>
      match e.st with
      | .halted => s
      | .running => if e.done then s else workEntry s q e
      | .queued =>
        if !(firedAt s q).isEmpty then s
        else if isSendt e then armSend s q e
        else if !waitMet s e || !engineFree s q || !orderMet s q e then s
        else match lgenCheck s q e with
          | some f => engFault s q e f
          | none => workEntry s q e
/-- SENDT_FIRE (R289): the first fired send runs once the entry of its queue that is running has completed. -/
def execSendtFire (sl : SlabId) (s : State) : Out :=
  .next <|
    let q : QueueId := ⟨sl.die, sl.slab, .le⟩
    let busy := match queueAt s q with | e :: _ => e.st != .queued | [] => false
    match (slabAt s sl).fired with
    | [] => s
    | e :: _ =>
      if busy || e.st == .halted || e.done || (e.st == .queued && !engineFree s q) then s
      else match (if e.st == .queued then lgenCheck s q e else none) with
        | some f => engFault s q e f
        | none => workEntry s q e
/-- ENGINE_ENTRY_COMPLETE (R122, R277): every write is visible and acknowledged; the entry signals and leaves. -/
def execEngineEntryComplete (q : QueueId) (s : State) : Out :=
  .next <| match nextEntry s q with
    | none => s
    | some e => if e.st == .running && e.done && e.acks == 0 then completeEntry s q e else s

/-! ### Halo faces (R285) -/

def execHaloFaceArrival (q : QueueId) (dir : Nat) (s : State) : Out :=
  .next <| match queueAt s q with
    | [] => s
    | e :: _ =>
      match e.cmd with
      | .halo _ =>
        if e.st == .running && decide (dir < 6) && decide (e.prog / 2 ^ dir % 2 = 1) then
          match faceLand q e dir s with
          | .ok s1 _ =>
            let s2 := setProg s1 q e.serial (e.prog - 2 ^ dir)
            if e.prog = 2 ^ dir then modEntry s2 q e.serial fun x => { x with done := true } else s2
          | .hold s1 => s1
          | .fault s1 f => engFault s1 q e f
        else s
      | _ => s

/-! ### Re-sharding (R104, R105, R286, R287) -/

/-- The die's entry for a rendezvous: the first such RESHD to stand at the head of either slab's queue. -/
def dieReshd (s : State) (pid oid : BitVec 32) (inst : Bool) (d : DieId) : Option (QueueId × Entry) :=
  let at1 := fun (u : Nat) =>
    let q : QueueId := ⟨d, u, .rs⟩
    match queueAt s q with
    | e :: _ =>
      if e.pid == pid && isReshd inst e && capOid (entCap e 0) == oid && e.st == EState.running && !e.done then some (q, e) else none
    | [] => none
  match at1 0, at1 1 with
  | some a, some b => if b.2.since < a.2.since then some b else some a
  | some a, none => some a
  | none, x => x
/-- The entries of every die of the die list, once all are there (R286). -/
def rendezvous (s : State) (pid oid : BitVec 32) (inst : Bool) (p : Part) : Option (List (QueueId × Entry)) :=
  let l := p.dies.map (dieReshd s pid oid inst)
  if l.all (·.isSome) && !l.isEmpty then some (l.filterMap id) else none
/-- The descriptor of a RESHD; the zero fields of HEAD read 0 (R6, R101, R286). -/
def reshdDesc (e : Entry) : W64 := layoutRead (entReg e 1)
def reshdTarget (l : List (QueueId × Entry)) : W64 := match l with | x :: _ => reshdDesc x.2 | [] => 0
def stopAll (s : State) (l : List (QueueId × Entry)) (f : Entry → FInfo) : State :=
  l.foldl (fun acc x => engFault acc x.1 x.2 (entFault x.2 (f x.2))) s
/-- Every entry of a rendezvous completes, with the schedule's last write, so no engine mark outlives it (R112, R286). -/
def doneAll (s : State) (l : List (QueueId × Entry)) : State := l.foldl (fun acc x => completeEntry acc x.1 x.2) s
def layoutStop (oid : BitVec 32) (lgen : Nat) (e : Entry) : FInfo :=
  { cls := 7, d0 := BitVec.ofNat 64 (capLgen (entCap e 0)), d1 := BitVec.ofNat 64 lgen, oid := oid }

/-- A 32-byte row of a facet: die, facet line, row of the line (R68, R102). -/
def rowPlace (p : Part) (lay : W64) (g : Nat × Nat × Nat × Nat) (q w h t : Nat) : DieId × Nat × Nat :=
  let (d, l) := tileOwner p lay g q w h t
  (d, lineNo (facetGeom p lay g) l.1 (l.2.1 / 8) l.2.2.1 l.2.2.2, l.2.1 % 8)
/-- Old and new place of every row of the object. -/
def rowMoves (p : Part) (g : Nat × Nat × Nat × Nat) (frm tgt : W64) : List ((DieId × Nat × Nat) × (DieId × Nat × Nat)) :=
  (List.range g.2.2.2).flatMap fun t => (List.range g.2.2.1).flatMap fun h => (List.range g.2.1).flatMap fun w =>
    (List.range g.1).map fun q => (rowPlace p frm g q w h t, rowPlace p tgt g q w h t)
def facetLines (p : Part) (g : Nat × Nat × Nat × Nat) (lay : W64) : List (DieId × Nat) :=
  p.dies.flatMap fun d => (List.range (geomSize (facetGeom p lay g) / 256)).map fun n => (d, n)
/-- The home place of a facet line, from the facet die's own tables. -/
def facetRes (s : State) (pid oid : BitVec 32) (d : DieId) (n : Nat) : Option Res :=
  let e := walk s pid d ⟨oid, d, n / 8192⟩
  if extV e.ext then some (resOf (reshdWho s pid d) oid d (256 * n) e) else none
/-- The schedule's effect: every line of every new facet is written once, its version one above that of its position; then
the descriptor, LGEN + 1, and no cached translation of the object (R104, R105). -/
def reshard (s : State) (pid oid : BitVec 32) (p : Part) (g : Nat × Nat × Nat × Nat) (frm tgt : W64) : State :=
  let old := fun (d : DieId) (n : Nat) => match facetRes s pid oid d n with | some r => (homeLine s r).data | none => 0
  let moves := rowMoves p g frm tgt
  let s1 := (facetLines p g tgt).foldl (fun acc x =>
    let data := moves.foldl (fun (dt : Line) m =>
      if m.2.1 = x.1 ∧ m.2.2.1 = x.2 then lineSet dt (32 * m.2.2.2) 32 (lineGet (old m.1.1 m.1.2.1) (32 * m.1.2.2) 32) else dt) 0
    match facetRes s pid oid x.1 x.2 with
    | none => acc
    | some r =>
      let l := homeLine acc r
      putLine (bring acc r) r.key (bumpVer { l with data := data, written := BitVec.allOnes 64, tags := 0, recs := [], pend := [] })) s
  let s2 := p.dies.foldl (fun acc d =>
    let w0 := otWord acc pid d oid.toNat 0
    let a := otEntryAddr acc pid d oid.toNat
    physWrite (physWrite acc a (bytesOf 8 (setBits w0 16 16 (wLgen w0 + 1)).toNat)) (a + 40) (bytesOf 8 tgt.toNat)) s1
  dropTrans s2 pid fun k => k.oid == oid

/-- RESHD_RENDEZVOUS (R286). The schedule waits for the accesses that passed their checks before it (R104). A line of the object
that is open to the entry stops them all with CONFLICT, an extent that check 11 of R74 refuses with EXTENT, and an unmapped one holds
them. -/
def execReshdRendezvous (pid oid : BitVec 32) (s : State) : Out :=
  .next <| match partAt s pid with
    | none => s
    | some p =>
      match rendezvous s pid oid false p with
      | none => s
      | some l =>
        let d0 := p.dies.headD 0
        let w0 := otWord s pid d0 oid.toNat 0
        let dims : BitVec 128 := otWord s pid d0 oid.toNat 2 ++ otWord s pid d0 oid.toNat 1
        let g := geom w0 dims
        let cur := layoutRead (otWord s pid d0 oid.toNat 5)
        let tgt := reshdTarget l
        let lines := facetLines p g cur ++ facetLines p g tgt
        if !(l.all fun x => reshdDesc x.2 == tgt) || (tgt != cur && !p.scheds.contains ⟨oid, cur, tgt⟩) then
          stopAll s l (layoutStop oid (wLgen w0))
        else if tgt = cur then doneAll s l
        else if let some (d, k) := facetBad s pid oid p g [cur, tgt] then
          stopAll s l fun _ => { cls := 8, d0 := BitVec.ofNat 64 (2 ^ 21 * k), d1 := BitVec.ofNat 64 k, d2 := d.zeroExtend 64, oid := oid }
        else match lines.find? fun x => (facetRes s pid oid x.1 x.2).isNone with
          | some x => postMiss s (reshdWho s pid x.1) ⟨oid, x.1, 256 * x.2⟩
          | none =>
            let w : Who := { reshdWho s pid d0 with entry := some (⟨d0, 0, .rs⟩, 0) }
            let isOpen := s.l2.find? fun kl => kl.1.pid == pid && kl.1.oid == oid && lineOpen w kl.2
            match isOpen with
            | some (k, hl) => stopAll s l fun _ =>
                { cls := 13, d0 := BitVec.ofNat 64 (256 * k.line), d1 := ownerOf w hl (plainOpen w hl ||| syncOpen w hl), oid := oid }
            | none => if quietObj s pid oid then doneAll (reshard s pid oid p g cur tgt) l else s
/-- RESHD_INST_RENDEZVOUS (R287): both schedules are installed, up to 64 in the partition. -/
def execReshdInstRendezvous (pid oid : BitVec 32) (s : State) : Out :=
  .next <| match partAt s pid with
    | none => s
    | some p =>
      match rendezvous s pid oid true p with
      | none => s
      | some l =>
        let d0 := p.dies.headD 0
        let w0 := otWord s pid d0 oid.toNat 0
        let cur := layoutRead (otWord s pid d0 oid.toNat 5)
        let tgt := reshdTarget l
        let a : Sched := ⟨oid, cur, tgt⟩
        let b : Sched := ⟨oid, tgt, cur⟩
        let sch := if p.scheds.contains a then p.scheds else p.scheds ++ [a]
        let sch2 := if sch.contains b then sch else sch ++ [b]
        if !(l.all fun x => reshdDesc x.2 == tgt) || decide (64 < sch2.length) then stopAll s l (layoutStop oid (wLgen w0))
        else doneAll (setPart s pid { p with scheds := sch2 }) l

/-! ### Attention (R298 to R301) -/

/-- The running request of a cluster's AE. -/
def attnHead (s : State) (cl : ClusterId) : Option (QueueId × Entry) :=
  let q : QueueId := ⟨cl.die, cl.clus, .ae⟩
  match queueAt s q with
  | e :: _ => if isAttn e && e.st == .running && decide (e.prog ≠ 0) && !e.done then some (q, e) else none
  | [] => none
/-- The engine stops at a page boundary for a capture: STATUS STOPPED, to run as ATTNC at resume (R298, R307). -/
def attnStop (q : QueueId) (e : Entry) (s : State) : State :=
  match wrStatus (entWho q e) e s 5 with
  | .ok s1 _ => modEntry s1 q e.serial fun x => { x with st := .queued, attnc := true, prog := 0 }
  | .hold s1 => s1
  | .fault s1 f => engFault s1 q e f
/-- ATTN_PAGE: the request enters its next page, leaves the page it is inside, or ends. -/
def execAttnPage (cl : ClusterId) (s : State) : Out :=
  .next <| match attnHead s cl with
    | none => s
    | some (q, e) =>
      if (heldPage s e).isNone && capturing s cl e.pid e.taskId then attnStop q e s
      else match attnStep q e s with
        | .ok s1 ended => modEntry s1 q e.serial fun x => { x with done := ended, since := s.ck, reported := false }
        | .hold s1 => s1
        | .fault s1 f => engFault (dropPage s1 e) q e f
/-- TIERMISS (R299). -/
def execTiermiss (cl : ClusterId) (s : State) : Out :=
  .next <| match attnHead s cl with
    | none => s
    | some (q, e) =>
      match tierStep q e s with
      | .ok s1 _ => modEntry s1 q e.serial fun x => { x with since := s.ck, reported := false }
      | .hold s1 => s1
      | .fault s1 f => engFault s1 q e f

end Sys2Proof.Machine
end

