-- ==== Sys2Proof/Machine/HostQ.lean ====
section
/-! DEFINITION. Host queue pairs and their completions (R354 to R357). -/

namespace Sys2Proof.Machine

/-- Queue pair n of an event: pair n mod 64 of package n div 64, packages counted along x, y, z (log 2). -/
def qpPkg (n : Nat) : DieId := mkDie (2 * (n / 64 % 24)) (2 * (n / 64 / 24 % 24)) (2 * (n / 64 / 576))
def qpNo (n : Nat) : Nat := n % 64
def qpAt (s : State) (n : Nat) : QPair := lkpD (pkgAt s (qpPkg n)).qps (qpNo n) {}
def modQp (s : State) (n : Nat) (f : QPair → QPair) : State :=
  modPkg s (qpPkg n) fun p => { p with qps := ins p.qps (qpNo n) (f (lkpD p.qps (qpNo n) {})) }
/-- A completion (R357). -/
def completion (op status : Nat) (ctag : BitVec 32) (value : Nat) (ltag : BitVec 32) (final : Nat) : BitVec 256 :=
  BitVec.ofNat 256 (final * 2 ^ 128 + ltag.toNat * 2 ^ 144 + value % 2 ^ 32 * 2 ^ 176 + ctag.toNat * 2 ^ 208 +
    status % 256 * 2 ^ 240 + op % 256 * 2 ^ 248)
/-- Post a completion. The queue has 1,024 entries; the host is taken to have fetched the oldest one when a completion comes to a
full queue (R354, R362; log 83). -/
def postCq (s : State) (n : Nat) (c : BitVec 256) : State :=
  modQp s n fun q => { q with cq := (q.cq ++ [c]).drop (q.cq.length + 1 - 1024), cqTail := q.cqTail + 1 }
/-- A NAK of class invalid request: the queue pair enters its error state (R354, R355). It leaves it at a reset of its package alone,
also where it changes its partition (DESIGN CHOICE, log 96: R354 names no way out). -/
def nakQp (s : State) (n : Nat) : State := modQp s n fun q => { q with error := true, naks := q.naks + 1 }
/-- Header fields (R356). -/
def hOp (h : BitVec 256) : Nat := bitsN h 248 8
def hTag (h : BitVec 256) : BitVec 32 := h.extractLsb' 208 32

end Sys2Proof.Machine
end

