-- ==== Sys2Proof/Machine/Launch.lean ====
section
/-! DEFINITION. Launches: the packet and header, acceptance at the root, evaluation on each die, dependences, selection and
placement of crews, task start, and the end of strata and launches (R130 to R154, R305). -/

namespace Sys2Proof.Machine

/-! ### Packet and header (R130 to R136) -/

def pk (l : Launch) (lo len : Nat) : Nat := bitsN l.packet lo len
def hd (l : Launch) (lo len : Nat) : Nat := bitsN l.header lo len
def pkClass (l : Launch) : Nat := pk l 1022 2
def pkPcrit (l : Launch) : Bool := pk l 1021 1 == 1
def pkCevent (l : Launch) : Bool := pk l 1020 1 == 1
def pkTokens (l : Launch) : Nat := if pk l 992 16 = 0 then 1 else pk l 992 16
def pkDep (l : Launch) (i : Nat) : W64 := l.packet.extractLsb' (1024 + 64 * i) 64
def pkCompl (l : Launch) : W64 := l.packet.extractLsb' 1280 64
def loopKind (l : Launch) (i : Nat) : Nat := pk l (512 + 64 * i + 62) 2
def loopCount (l : Launch) (i : Nat) : Nat := pk l (512 + 64 * i) 32
def levelsOf (l : Launch) (kind : Nat) : List Nat := (List.range 6).filter fun i => loopKind l i == kind
/-- N (kind 3) and C (kind 2) of R133. -/
def spaceSize (l : Launch) (kind : Nat) : Nat := (levelsOf l kind).foldl (fun a i => a * loopCount l i) 1
/-- The level index of a mixed-radix index, the outermost level most significant (R133). -/
def levelIndex (l : Launch) (kind idx i : Nat) : Nat :=
  idx / ((levelsOf l kind).filter fun j => decide (i < j)).foldl (fun a j => a * loopCount l j) 1 % loopCount l i
def hCrew (l : Launch) : Nat := hd l 280 3
def hScrm (l : Launch) : BitVec 48 := l.header.extractLsb' 400 48
def hFifom (l : Launch) : BitVec 48 := l.header.extractLsb' 464 48
def hSemlo (l : Launch) : Nat := hd l 288 8
def hSemn (l : Launch) : Nat := hd l 296 9
def hFeat (l : Launch) : W64 := l.header.extractLsb' 320 64
def hRestart (l : Launch) : Bool := hd l 284 1 == 1
def hCoresid (l : Launch) : Bool := hd l 283 1 == 1

/-- A dependence or COMPL word keeps R136. Of a word with V = 0 only bit 32 is checked, since it designates no die (DESIGN CHOICE,
log 85). -/
def depOk (p : Part) (w : W64) : Bool :=
  let loc := w.getLsbD 62
  let clus := bitsN w 41 4
  let has := fun (d : DieId) => p.slabs.contains ⟨d, slabOfClus clus⟩
  !w.getLsbD 32 &&
  (!w.getLsbD 63 ||
    (decide (clus < 10) &&
      (if loc then bitsN w 45 17 == 0 && p.dies.all has else p.dies.contains (w.extractLsb' 45 17) && has (w.extractLsb' 45 17))))
/-- The loop table keeps R132. -/
def loopsOk (l : Launch) : Bool :=
  (List.range 6).all fun i =>
    let e := pk l (512 + 64 * i) 64
    let k := loopKind l i
    e / 2 ^ 32 % 2 ^ 29 == 0 && (k == 3 || e / 2 ^ 61 % 2 == 0) && (if k = 0 then loopCount l i == 0 else loopCount l i != 0) &&
    (k == 0 || (List.range i).all fun j => loopKind l j != 0) &&
    (k != 3 || (levelsOf l 3).all fun j => pk l (512 + 64 * j + 61) 1 == e / 2 ^ 61 % 2)
/-- The packet keeps R132, R135 and R136. -/
def packetOk (p : Part) (l : Launch) : Bool :=
  let lo : DieId := l.packet.extractLsb' 912 17
  let hi : DieId := l.packet.extractLsb' 929 17
  pk l 1408 640 == 0 && pk l 1008 12 == 0 && pk l 954 6 == 0 && pk l 896 16 == 0 && pk l 946 8 != 0 &&
  decide (dx lo ≤ dx hi ∧ dy lo ≤ dy hi ∧ dz lo ≤ dz hi) &&
  (l.issuer.isSome || pk l 1344 64 == 0) &&
  bitsN (pkCompl l) 0 32 == 0 && !(pkCevent l && (pkCompl l).getLsbD 63) && depOk p (pkCompl l) &&
  (List.range 4).all (fun i => depOk p (pkDep l i)) && loopsOk l
/-- The header keeps R130 and R131. -/
def headerOk (l : Launch) : Bool :=
  let ent := fun (lo : Nat) => hd l lo 64 % 8 == 0 && decide (hd l lo 64 < capLen l.kcap)
  hd l 448 16 == 0 && hd l 384 16 == 0 && hd l 305 15 == 0 && hd l 285 3 == 0 && hd l 256 24 == 0 && hd l 128 96 == 0 &&
  decide (1 ≤ hCrew l ∧ hCrew l ≤ 4) && decide (hSemn l ≤ 256) && decide (hSemlo l + hSemn l ≤ 256) &&
  (hScrm l &&& hFifom l) == 0 && ent 0 && ent 64
/-- The object that a launch capability names, as the die's walker reads it (R137). -/
def capObject (s : State) (pid : BitVec 32) (d : DieId) (c : CapReg) : TEntry := walk s pid d ⟨capOid c, 0, capBase c / 2 ^ 21⟩
def objSizeOf (s : State) (pid : BitVec 32) (d : DieId) (c : CapReg) : Nat :=
  objBytes s { pid := pid, die := d, slab := slabOnDie s pid d, clus := 0, core := none, task := 0, sup := true } (capOid c)
    (capObject s pid d c).word0 (capObject s pid d c).dims (capObject s pid d c).layout
/-- CapOK(K, EXEC) of R137: its four tests and no other. -/
def kcapOk (s : State) (pid : BitVec 32) (d : DieId) (k : CapReg) : Bool :=
  k.tag && hasRights k rEXEC && decide (64 ≤ capLen k) && decide (capBase k + capLen k ≤ objSizeOf s pid d k)
/-- The 64 bytes of the header, published; none while their extent is unmapped (R92). -/
def readHeader (s : State) (pid : BitVec 32) (d : DieId) (k : CapReg) : Option (BitVec 512) :=
  let w : Who := { pid := pid, die := d, slab := slabOnDie s pid d, clus := 0, core := none, task := 0, sup := true }
  let facet := dieOfFacet w (capObject s pid d k).word0
  let part := fun (i n : Nat) => (locate s w ⟨capOid k, facet, capBase k + i⟩).2.map fun r =>
    lineGet (homeLine s r).data (r.loc.byte % 256) n
  let n := min 64 (256 - capBase k % 256)
  match part 0 n, (if n = 64 then some 0 else part n (64 - n)) with
  | some a, some b => some (BitVec.ofNat 512 (a + b * 2 ^ (8 * n)))
  | _, _ => none

/-! ### LAUNCH (R305) -/

/-- Granule i of the packet as a CLD of the task meets it (R74, R204, R305). -/
def granuleChk (h : Here) (f : FmtE) (s : State) (i : Nat) : State × Chk :=
  checkAcc s (whoOf h) f.sb.toNat (rdC h.t f.sb)
    { rights := rENG + rLD + rCLD, n := 32, align := if i = 0 then 256 else 32, again := heldMovingAt h i } (capPos (rdC h.t f.sb) + 32 * i)
def capOfLine (d : Line) (tg : BitVec 8) (i : Nat) : CapReg := { tag := tg.getLsbD i, bits := d.extractLsb' (256 * i) 256 }
/-- A CLD of granule i: `k` receives it. One that was sent to another die goes on under its translation (R77). -/
def granuleThen (h : Here) (f : FmtE) (i : Nat) (s : State) (k : State → CapReg → State) : State :=
  let chk := granuleChk h f s i
  let go := loadThen s h chk 32 false fun s1 _ d tg => k s1 (capOfLine d tg i)
  if h.t.remote != .idle then go
  else match chk.2 with
    | .moving => hold h (.movingAt i) chk.1
    | _ => capObjOk s h (rdC h.t f.sb) chk f.sb go
/-- A granule has been read; a LAUNCH that holds at a later one does not read it again. -/
def keepGranule (h : Here) (g : CapReg) (s : State) : State :=
  modTask s h.core fun t => { t with as := { t.as with got := t.as.got ++ [g] } }
/-- The packet's granules after those in `got`, each read as a CLD in ascending order; `k` receives all eight (R305). -/
def launchFrom (f : FmtE) (k : State → List CapReg → State) : Nat → Here → List CapReg → State → State
  | 0, _, got, s => k s got
  | m + 1, h, got, s =>
    granuleThen h f got.length s fun s1 g =>
      launchFrom f k m { h with t := { h.t with remote := .idle } } (got ++ [g]) (keepGranule h g s1)
/-- The packet as eight CLDs, those that the held LAUNCH has made before left out. -/
def launchRead (h : Here) (f : FmtE) (s : State) (k : State → List CapReg → State) : State :=
  launchFrom f k (8 - h.t.as.got.length) h h.t.as.got s
/-- The packet goes to the root; PARENT is the issuer, and an ACAP without GRANT is untagged. -/
def submit (h : Here) (f : FmtE) (g : List CapReg) (s : State) : State :=
  let a := g.getD 1 {}
  let e := { mkEntry s h (.launch f) f [] [] false with serial := s.serial + 1 }
  let packet : BitVec 2048 := ofLanes 2048 256 (g.map fun x => x.bits.toNat)
  let sub : Sub := { packet := setBits packet 1344 64 h.t.taskId.toNat, kcap := g.getD 0 {},
                     acap := { a with tag := a.tag && hasRights a rGRANT }, issuer := some e }
  retire h (takeTag h (.launch f) f (modPart { s with serial := s.serial + 1 } h.t.pid fun p => { p with subs := p.subs ++ [sub] }))
def execLaunch (f : FmtE) (s : State) : Out :=
  onStrand (.launch f) s fun h =>
    match iSems s h f with
    | .fault s1 fi => faultOf s1 h fi
    | .hold s1 why => hold h why s1
    | .ok s1 =>
      match checkCap (whoOf h) f.sa.toNat (rdC h.t f.sa) (rENG + rLAUNCH) with
      | some fi => faultOf s1 h fi
      | none => launchRead h f s1 fun s2 g => releaseThen s2 h 3 none (submit h f g)

/-! ### Acceptance at the root (R137) -/

/-- The root returns a status to the issuer: the LAUNCH's register and signal, or the host's completion. -/
def returnStatus (s : State) (pid : BitVec 32) (qp : Option Nat) (ctag : BitVec 32) (issuer : Option Entry) (status : Nat)
    (lseq ltag : BitVec 32) : State :=
  match issuer with
  | some e => signalEntry (modTaskId s pid e.taskId (landResult e.dst e.tag (BitVec.ofNat 64 status))) e
  | none => match qp with
    | some n => postCq s n (completion 1 status ctag lseq.toNat ltag 0)
    | none => s
def lseqTaken (p : Part) (v : BitVec 32) : Bool :=
  bitsN v 0 24 == 0 || p.launches.any fun x => bitsN x.1 0 24 == bitsN v 0 24
/-- The next launch sequence number that R137 admits. -/
def nextLseq (p : Part) : Nat → BitVec 32 → BitVec 32
  | 0, v => v
  | k + 1, v => if lseqTaken p v then nextLseq p k (v + 1) else v
def subPcrit (x : Sub) : Bool := x.packet.getLsbD 1021
def subRoom (p : Part) (x : Sub) : Bool := decide (p.out < p.limit) || (subPcrit x && decide (p.out < p.limit + 32))
/-- E of R137, in die-list order, against the die table as it stands at acceptance. -/
def eligible (s : State) (p : Part) (packet : BitVec 2048) : List DieId :=
  p.dies.filter fun d => (dieAt s d).live && inBox d (packet.extractLsb' 912 17) (packet.extractLsb' 929 17) &&
    packet.getLsbD (946 + ldie d)
/-- The host's command leaves the head of its queue. -/
def popCmd (s : State) (n : Nat) : State := modQp s n fun q => { q with waiting := q.waiting.drop 1, sqHead := q.sqHead + 1 }
/-! ### Evaluation on each die (R137, R138, R141) -/

/-- The slabs of a partition on a die. -/
def dieSlabs (s : State) (pid : BitVec 32) (d : DieId) : List SlabId := (partSlabs s pid).filter fun x => x.die == d
def dieClusters (s : State) (pid : BitVec 32) (d : DieId) : List ClusterId :=
  (dieSlabs s pid d).flatMap fun x => (List.range 5).map fun k => ⟨d, 5 * x.slab + k⟩
/-- The supervisor's core is never free (R143). -/
def supCore (x : SlabId) : CoreId := ⟨x.die, 20 * x.slab + 19⟩
def dieFeature (s : State) (pid : BitVec 32) (d : DieId) : W64 :=
  match dieSlabs s pid d with | x :: _ => (coreAt s ⟨d, 20 * x.slab⟩).feature | [] => 0
/-- Crews that the partition's clusters of a die can hold at once (R137); with `fences`, fenced clusters count for none. -/
def capacity (s : State) (pid : BitVec 32) (d : DieId) (l : Launch) (fences : Bool) : Nat :=
  (dieClusters s pid d).foldl (fun a c =>
    let cores := if c.clus % 5 = 4 then 3 else 4
    let n := cores / hCrew l
    let n1 := if (hScrm l ||| hFifom l) != 0 || hSemn l != 0 then min n 1 else n
    a + if fences && (clusterAt s c).fenced then 0 else n1) 0
/-- The DIES indices of the die at position k of E (R138). -/
def ownedBy (l : Launch) (m k : Nat) : List Nat :=
  let n := spaceSize l 3
  let cyc := (levelsOf l 3).any fun j => pk l (512 + 64 * j + 61) 1 == 1
  if cyc then (List.range n).filter fun i => i % m == k
  else
    let b := n / m
    let r := n % m
    if k < r then (List.range (b + 1)).map (· + k * (b + 1)) else (List.range b).map (· + (k * b + r))
def crewsPerIndex (l : Launch) : Nat := cdiv (spaceSize l 2) (hCrew l)
/-- The verdict of R137 in its order; none: the header's extent is unmapped and the evaluation waits. -/
def verdict (s : State) (pid : BitVec 32) (p : Part) (d : DieId) (l : Launch) : Option (Nat × BitVec 512) :=
  if !packetOk p l then some (1, 0)
  else if !kcapOk s pid d l.kcap || !l.acap.tag then some (2, 0)
  else match readHeader s pid d l.kcap with
    | none => none
    | some hdr =>
      let l1 := { l with header := hdr }
      let m := l.dies.length
      let most := cdiv (spaceSize l1 3) m
      if !headerOk l1 then some (1, hdr)
      else if m = 0 then some (3, hdr)
      else if 2 ^ 23 ≤ most * spaceSize l1 2 then some (1, hdr)
      else if l.dies.any fun e => hFeat l1 &&& ~~~ dieFeature s pid e != 0 then some (4, hdr)
      else if hCoresid l1 && l.dies.any (fun e => decide (capacity s pid e l1 false < most * crewsPerIndex l1)) then some (5, hdr)
      else some (0, hdr)
/-- The launch is gone from the root: its issuer has the status, the count falls (R137). -/
def rejectLaunch (s : State) (pid : BitVec 32) (l : Launch) (status : Nat) : State :=
  let ltag : BitVec 32 := l.packet.extractLsb' 960 32
  returnStatus (modPart s pid fun p => { p with launches := del p.launches l.lseq, out := p.out - 1 }) pid l.qp l.ctag l.issuer status
    l.lseq ltag
/-- A packet enters a slab's lode, or its overflow area (R141). -/
def enterLode (s : State) (sl : SlabId) (l : Launch) : State :=
  let deps := (List.range 4).map fun i => !(pkDep l i).getLsbD 63
  let ent : LodeEnt := { lseq := l.lseq, pcrit := pkPcrit l, ready := if deps.all id then some s.ck else none, deps := deps }
  modSlab s sl fun b =>
    let used := (b.lode.filter (·.reserve)).length
    let norm := (b.lode.filter fun e => !e.reserve).length
    if pkPcrit l && decide (used < 32) then { b with lode := b.lode ++ [{ ent with reserve := true }] }
    else if norm < 224 then { b with lode := b.lode ++ [ent] }
    else { b with overflow := b.overflow ++ [(l.lseq, pkPcrit l)] }
/-- The packet of a launch has come along the die list to a die, and every packet before it has been evaluated there (R137;
log 84). -/
def packetAt (p : Part) (die : DieId) (lseq : BitVec 32) (l : Launch) : Bool :=
  ((p.dies.takeWhile (· != die)).all fun d => (lkp l.strata d).isSome) &&
  p.launches.all fun x => !decide (x.1 - p.next < lseq - p.next) || (lkp x.2.strata die).isSome
/-- LAUNCH_EVALUATE: the die evaluates the packet, computes its stratum, and holds it in its lodes; an empty stratum takes
none. When every die has it, the root returns ACCEPTED. -/
def execLaunchEvaluate (pid : BitVec 32) (die : DieId) (lseq : BitVec 32) (s : State) : Out :=
  .next <| match partAt s pid with
    | none => s
    | some p =>
      match lkp p.launches lseq with
      | none => s
      | some l =>
        if !p.dies.contains die || (lkp l.strata die).isSome || !packetAt p die lseq l then s
        else match (if l.evaluated then some (0, l.header) else verdict s pid p die l) with
          | none => s
          | some (st, hdr) =>
            if st ≠ 0 then rejectLaunch s pid l st
            else
              let l0 := { l with header := hdr, evaluated := true }
              let owned := match l.dies.findIdx? (· == die) with | some k => ownedBy l0 l.dies.length k | none => []
              let str : Stratum := { owned := owned, crews := owned.length * crewsPerIndex l0, left := owned.length * spaceSize l0 2 }
              let l1 := { l0 with strata := ins l0.strata die str }
              let s1 := setPart s pid { p with launches := ins p.launches lseq l1 }
              let s2 := if owned.isEmpty then s1 else (dieSlabs s1 pid die).foldl (fun acc sl => enterLode acc sl l1) s1
              if p.dies.all fun d => (lkp l1.strata d).isSome then
                returnStatus s2 pid l.qp l.ctag l.issuer 0 lseq (l.packet.extractLsb' 960 32)
              else s2

/-! ### Dependences (R142) -/

/-- The place of a dependence as a die observes it. -/
def depPlace (w : W64) (d : DieId) : ClusterId := ⟨if w.getLsbD 62 then d else w.extractLsb' 45 17, bitsN w 41 4⟩
def depMet (s : State) (w : W64) (d : DieId) : Bool :=
  !w.getLsbD 63 || decide (bitsN w 0 32 ≤ (semAt s (depPlace w d) (bitsN w 33 8)).toNat)
/-- DEPENDENCE_REPORT: the scheduler observes dependence i, which stays satisfied. -/
def execDependenceReport (sl : SlabId) (lseq : BitVec 32) (i : Nat) (s : State) : Out :=
  .next <|
    let b := slabAt s sl
    match partAt s b.pid with
    | none => s
    | some p =>
      match lkp p.launches lseq with
      | none => s
      | some l =>
        if decide (4 ≤ i) || !depMet s (pkDep l i) sl.die then s
        else
          let f := fun (e : LodeEnt) =>
            if e.lseq = lseq then
              let deps := e.deps.set i true
              { e with deps := deps, ready := if e.ready.isSome then e.ready else if deps.all id then some s.ck else none }
            else e
          modSlab s sl fun b => { b with lode := b.lode.map f }

/-! ### Selection and placement (R143 to R145, R149) -/

/-- The next undispatched crew of a stratum, in crew order. -/
def nextCrewOf (st : Stratum) : Option Nat :=
  match st.restartq with
  | x :: _ => some x.1
  | [] => if st.nextCrew < st.crews then some st.nextCrew else none
def takeCrew (st : Stratum) : Stratum :=
  match st.restartq with
  | _ :: r => { st with restartq := r }
  | [] => { st with nextCrew := st.nextCrew + 1 }
/-- Positions of crew k that are to start: those that were killed, or all (R330). -/
def crewPos (l : Launch) (st : Stratum) (k : Nat) : List Nat :=
  match st.restartq.find? (fun x => x.1 == k) with
  | some x => x.2
  | none => List.range (min (hCrew l) (spaceSize l 2 - hCrew l * (k % crewsPerIndex l)))
/-- Tasks of crew k of a stratum, and the ordinal of its first (R134). -/
def crewSize (l : Launch) (k : Nat) : Nat := min (hCrew l) (spaceSize l 2 - hCrew l * (k % crewsPerIndex l))
def crewFirst (l : Launch) (k : Nat) : Nat := k / crewsPerIndex l * spaceSize l 2 + hCrew l * (k % crewsPerIndex l)
def crewInfo (l : Launch) (k : Nat) : CrewInfo :=
  { lseq := l.lseq, ltag := l.packet.extractLsb' 960 32, index := k, size := crewSize l k, scrm := hScrm l, fifom := hFifom l,
    semlo := hSemlo l, semn := hSemn l, restart := hRestart l, coresid := hCoresid l, feat := hFeat l }
/-- Two ranges of semaphores overlap. -/
def semsMeet (a b : CrewInfo) : Bool := decide (a.semlo < b.semlo + b.semn ∧ b.semlo < a.semlo + a.semn ∧ 0 < a.semn ∧ 0 < b.semn)
/-- Cores of a cluster that no task and no placed crew holds (R143). -/
def freeCores (s : State) (c : ClusterId) (feat : W64) : List Nat :=
  let k := clusterAt s c
  (List.range 4).filter fun i =>
    let x := coreAt s (coreOf c i)
    x.task.isNone && !(c.clus % 5 == 4 && i == 3) && !x.fenced && (feat &&& ~~~ x.feature) == 0 &&
    !k.crews.any fun cr => cr.cores.contains i
/-- A task of the cluster is suspended: the cluster does not count as free (R326). -/
def suspOn (s : State) (c : ClusterId) : Bool :=
  (List.range 4).any fun i => match (coreAt s (coreOf c i)).task with | some t => t.susp.isSome | none => false
/-- A crew that is resident meets the banks or semaphores of another (R143). -/
def crewsClash (i : CrewInfo) (cr : CrewRes) : Bool :=
  ((cr.info.scrm ||| cr.info.fifom) &&& (i.scrm ||| i.fifom)) != 0 || semsMeet cr.info i
/-- A crew fits a cluster (R143); one of a fenced slab or of a die in reset takes none (R33, R371, R375), nor one reserved for another
launch (R330) or with a suspended task (R326). -/
def fits (s : State) (pid : BitVec 32) (i : CrewInfo) (need : Nat) (c : ClusterId) : Bool :=
  let k := clusterAt s c
  holdsSlab s pid (clusterSlab c) && !(slabAt s (clusterSlab c)).fence && (dieAt s c.die).live && !k.fenced && (k.reserved.isNone || k.reserved == some i.lseq) &&
  decide (need ≤ (freeCores s c i.feat).length) && !suspOn s c && !k.crews.any (crewsClash i)
/-- Cores of a cluster that are not free: tasks resident or about to start. -/
def loadOf (s : State) (c : ClusterId) : Nat :=
  ((List.range 4).filter fun i => (coreAt s (coreOf c i)).task.isSome || (clusterAt s c).crews.any fun cr => cr.cores.contains i).length
/-- The least-loaded cluster that a crew fits, ties to the lowest number. -/
def bestCluster (s : State) (pid : BitVec 32) (i : CrewInfo) (need : Nat) (l : List ClusterId) : Option ClusterId :=
  (l.filter (fits s pid i need)).foldl (fun (a : Option ClusterId) c =>
    match a with
    | none => some c
    | some b => if loadOf s c < loadOf s b then some c else some b) none
/-- The effective class of a launch at a slab (R144). -/
def effClass (s : State) (sl : SlabId) (l : Launch) (size : Nat) : Nat :=
  let c := pkClass l
  if c < 3 ∧ pkTokens l * size ≤ (slabAt s sl).buckets.getD c 0 then c else 3
/-- The banks of a placed crew begin their change; one in TRANSIT begins later (R80, R143). -/
def bankWant (i : CrewInfo) (b : Nat) : Mode := if i.scrm.getLsbD b then .scratch else .fifo
def startBanks (s : State) (c : ClusterId) (i : CrewInfo) : State :=
  (crewBanks i).foldl (fun acc b =>
    let k := bankAt (clusterAt acc c) b
    if k.transit.isNone && k.mode != bankWant i b then startMode acc c b (bankWant i b) none else acc) s
/-- The id of the task with ordinal `ord` of a launch's stratum on a die (R140). -/
def tidOf (d : DieId) (lseq : BitVec 32) (ord : Nat) : W64 := BitVec.ofNat 64 (d.toNat * 2 ^ 47 + bitsN lseq 0 24 * 2 ^ 23 + ord)
/-- Place a crew: semaphores to 0, banks to their modes, cores taken, no cluster reserved for the launch any more
(R143, R330). -/
def placeCrew (s : State) (pid : BitVec 32) (l : Launch) (st : Stratum) (c : ClusterId) (k cls : Nat) : State :=
  let i := crewInfo l k
  let pos := crewPos l st k
  let cores := (freeCores s c i.feat).take pos.length
  let first := crewFirst l k
  let cr : CrewRes :=
  { info := i, pid := pid, cores := cores, cls := cls,
    tids := pos.map fun j => tidOf c.die l.lseq (first + j),
    unstarted := pos.map fun j => (j, first + j) }
  let free := fun (x : ClusterId × Cluster) =>
    if x.1.die = c.die ∧ x.2.reserved = some l.lseq then (x.1, { x.2 with reserved := none }) else x
  let s0 := { s with clusters := s.clusters.map free }
  let s1 := modCluster s0 c fun kk => { kk with crews := kk.crews ++ [cr] }
  let s2 := (List.range i.semn).foldl (fun acc j => setSem acc c (i.semlo + j) 0) s1
  startBanks s2 c i
/-- A candidate of R145: the entry, its launch, its stratum's next crew and its effective class. -/
structure Cand where
  ent : LodeEnt
  l : Launch
  st : Stratum
  crew : Nat
  cls : Nat
  at1 : Nat
  deriving DecidableEq, Repr
def candLt (a b : Cand) : Bool :=
  decide (a.cls < b.cls) || (a.cls == b.cls && (decide (a.at1 < b.at1) || (a.at1 == b.at1 && decide (a.l.lseq < b.l.lseq))))
def candIns (a : Cand) : List Cand → List Cand
  | [] => [a]
  | x :: r => if candLt a x then a :: x :: r else x :: candIns a r
def candidates (s : State) (sl : SlabId) : List Cand :=
  let b := slabAt s sl
  match partAt s b.pid with
  | none => []
  | some p =>
    (b.lode.filterMap fun e =>
      match e.ready, lkp p.launches e.lseq with
      | some t, some l =>
        match lkp l.strata sl.die with
        | some st => (match nextCrewOf st with
          | some k => some { ent := e, l := l, st := st, crew := k, cls := effClass s sl l (crewPos l st k).length, at1 := t : Cand }
          | none => none)
        | none => none
      | _, _ => none).foldl (fun acc c => candIns c acc) []
/-- Dispatch charges the scheduler's bucket (R144), takes the crew from the shared count, and ends the launch's skipping in every
lode of the die (R141, R145). -/
def dispatch (s : State) (pid : BitVec 32) (sl : SlabId) (x : Cand) (c : ClusterId) : State :=
  let s1 := placeCrew s pid x.l x.st c x.crew x.cls
  let s2 := modLaunch s1 pid x.l.lseq (modStratum sl.die takeCrew)
  let charge := if x.cls < 3 then pkTokens x.l * (crewPos x.l x.st x.crew).length else 0
  let clear := fun (e : LodeEnt) => if e.lseq = x.l.lseq then { e with skipped := none, blocking := false } else e
  let s3 := modSlab s2 sl fun b => { b with buckets := b.buckets.set x.cls (b.buckets.getD x.cls 0 - charge) }
  (dieSlabs s pid sl.die).foldl (fun a y => modSlab a y fun b => { b with lode := b.lode.map clear }) s3
/-- The schedulers of a die that may place crews of a launch: those that are not fenced and hold it ready (R141, R142). -/
def schedulers (s : State) (pid : BitVec 32) (d : DieId) (lseq : BitVec 32) : List SlabId :=
  (dieSlabs s pid d).filter fun y => !(slabAt s y).fence && (slabAt s y).lode.any fun e => e.lseq == lseq && e.ready.isSome
/-- The cluster that a scheduler would give the crew, among those of its own slab (R141, R145). -/
def ownCluster (s : State) (pid : BitVec 32) (sl : SlabId) (l : Launch) (k : Nat) : Option ClusterId :=
  bestCluster s pid (crewInfo l k) (hCrew l) ((dieClusters s pid sl.die).filter fun c => clusterSlab c == sl)
/-- One crew of a co-resident stratum: to the scheduler that has a cluster, by turns where both have one, slab 0 first; that scheduler's
bucket is charged (R141, R144). -/
def placeTurn (s : State) (pid : BitVec 32) (sl : SlabId) (x : Cand) : Option State :=
  let can := (schedulers s pid sl.die x.l.lseq).filterMap fun y => (ownCluster s pid y x.l x.crew).map fun c => (y, c)
  let go := fun (t : State) (y : SlabId × ClusterId) =>
    dispatch t pid y.1 { x with cls := effClass s y.1 x.l (crewPos x.l x.st x.crew).length } y.2
  match can with
  | [] => none
  | [y] => some (go s y)
  | y :: _ =>
    let z := (can.find? fun z => z.1.slab == x.st.turn).getD y
    some (modLaunch (go s z) pid x.l.lseq (modStratum sl.die fun st => { st with turn := 1 - z.1.slab }))
/-- All crews of a co-resident stratum at one time, or none (R145 step 6). -/
def placeAll (s : State) (pid : BitVec 32) (sl : SlabId) : Nat → Cand → Option State
  | 0, _ => some s
  | n + 1, x =>
    match (partAt s pid).bind (fun p => (lkp p.launches x.l.lseq).bind fun l => (lkp l.strata sl.die).bind fun st =>
        (nextCrewOf st).map fun k => (l, st, k)) with
    | none => some s
    | some (l, st, k) =>
      match placeTurn s pid sl { x with l := l, st := st, crew := k } with
      | none => none
      | some t => placeAll t pid sl n x
/-- The next crew of a candidate placed by the scheduler of `sl` on its own clusters, or all crews of a co-resident stratum; none
where nothing fits (R141, R145). -/
def placeCand (s : State) (pid : BitVec 32) (sl : SlabId) (x : Cand) : Option State :=
  if hCoresid x.l then
    match lkp x.l.strata sl.die with
    | some st => placeAll s pid sl (st.crews - st.nextCrew + st.restartq.length) x
    | none => none
  else
    (ownCluster s pid sl x.l x.crew).map (dispatch s pid sl x)
/-- The launch that a scheduler's choice falls on (R145). -/
def chosen (s : State) (pid : BitVec 32) (sl : SlabId) : List Cand → Option (BitVec 32)
  | [] => none
  | x :: r => if (placeCand s pid sl x).isSome then some x.l.lseq else if x.ent.blocking then none else chosen s pid sl r
/-- Both schedulers of a die would place the launch's next crew: they take turns, slab 0 first (R141). -/
def contended (s : State) (pid : BitVec 32) (sl : SlabId) (x : Cand) : Bool :=
  let other : SlabId := ⟨sl.die, 1 - sl.slab⟩
  holdsSlab s pid other && !(slabAt s other).fence && chosen s pid other (candidates s other) == some x.l.lseq
/-- Try the candidates in order; a launch that fits nothing is skipped, and stops the rest once it blocks (R145). A crew that is
the other scheduler's by turn is left to it (R141); the crews of a co-resident stratum have taken their turns in `placeAll`. -/
def tryCands (pid : BitVec 32) (sl : SlabId) : List Cand → State → State
  | [], s => s
  | x :: r, s =>
    match placeCand s pid sl x with
    | some s1 =>
      if hCoresid x.l || !contended s pid sl x then s1
      else if x.st.turn != sl.slab then s
      else modLaunch s1 pid x.l.lseq (modStratum sl.die fun st => { st with turn := 1 - sl.slab })
    | none =>
      let note := fun (e : LodeEnt) =>
        if e.lseq = x.l.lseq then { e with skipped := some (e.skipped.getD s.ck) } else e
      let s1 := modSlab s sl fun b => { b with lode := b.lode.map note }
      if x.ent.blocking then s1 else tryCands pid sl r s1
/-- CREW of the launch that an image belongs to: the free cores that its crew needs, whole or not (R143, R149). -/
def imageNeed (s : State) (pid : BitVec 32) (im : Image) : Nat :=
  match (partAt s pid).bind fun p => lkp p.launches im.info.lseq with
  | some l => hCrew l
  | none => im.info.size
/-- The cluster on which an image would be restored (R149, R331). -/
def imageFits (s : State) (pid : BitVec 32) (d : DieId) (im : Image) : Option ClusterId :=
  bestCluster s pid im.info (imageNeed s pid im) (dieClusters s pid d)
def imgIns (im : Image) : List Image → List Image
  | [] => [im]
  | y :: r => if im.resumable.getD 0 < y.resumable.getD 0 then im :: y :: r else y :: imgIns im r
/-- Crews whose RESUME has been issued, or that yielded, in order: those in the areas of the partition's slabs on the die, since either
scheduler restores them (R145 step 1, R332). -/
def eligibleImages (s : State) (sl : SlabId) : List Image :=
  (((dieSlabs s (slabAt s sl).pid sl.die).flatMap fun y => (slabAt s y).images).filter fun im => im.away && !im.held).foldl
    (fun acc im => imgIns im acc) []
/-- CREW_PLACE (R145): suspended crews come first, by CREW_RESTORE. -/
def execCrewPlace (sl : SlabId) (s : State) : Out :=
  .next <|
    let pid := (slabAt s sl).pid
    let first := (eligibleImages s sl).any fun im => (imageFits s pid sl.die im).isSome
    if first || (slabAt s sl).fence then s else tryCands pid sl (candidates s sl) s
/-- SKIP_BLOCK (R145 step 5). -/
def execSkipBlock (sl : SlabId) (lseq : BitVec 32) (s : State) : Out :=
  .next <|
    let f := fun (e : LodeEnt) =>
      if e.lseq == lseq && (match e.skipped with | some t => decide (t + 65536 ≤ s.ck) | none => false) then { e with blocking := true } else e
    modSlab s sl fun b => { b with lode := b.lode.map f }
/-- TOKEN_REFILL (R144): at the end of a period; a write of SYS.PRIO takes effect here. -/
def execTokenRefill (sl : SlabId) (s : State) : Out :=
  .next <|
    let b := slabAt s sl
    if s.ck < b.refillAt then s
    else
      let p := b.prio
      let one := fun (k v : Nat) => min (bitsN p (20 * k + 10) 10) (v + bitsN p (20 * k) 10)
      modSlab s sl fun b => { b with
        prioNow := p, buckets := (List.range 3).map fun k => one k (b.buckets.getD k 0)
        refillAt := b.refillAt + 1024 * 2 ^ bitsN p 60 4 }

/-! ### Task start (R139) -/

def startRegs (l : Launch) (st : Stratum) (pos ord : Nat) : AMap Nat W64 :=
  let c := spaceSize l 2
  let level := fun (i : Nat) => match loopKind l i with
    | 1 => loopCount l i
    | 2 => levelIndex l 2 (ord % c) i
    | 3 => levelIndex l 3 (st.owned.getD (ord / c) 0) i
    | _ => 0
  ((List.range 6).map fun i => (i + 1, BitVec.ofNat 64 (level i))) ++ [(7, BitVec.ofNat 64 pos), (8, BitVec.ofNat 64 ord)]
def startTask (l : Launch) (st : Stratum) (i : CrewInfo) (pid : BitVec 32) (ck : Nat) (tid : W64) (pos ord : Nat) : Task :=
  { pid := pid, taskId := tid, pos := pos, ord := ord, crew := i, a := startRegs l st pos ord, x := startRegs l st pos ord,
    c := [(1, l.acap), (2, l.kcap)], kcap := l.kcap, as := { pc := BitVec.ofNat 64 (hd l 0 64) },
    xs := { pc := BitVec.ofNat 64 (hd l 64 64) }, remBase := hd l 224 32 * 1024, remAt := ck }
/-- An event record for the task was dropped while no core and no image held it (R337). -/
def missed (s : State) (pid : BitVec 32) (tid : W64) : Bool := ((partAt s pid).map fun p => p.lostTo.contains tid).getD false
/-- TASK_START: once every bank has reached its mode. The start follows the acquire of the launch's dependences (R142). -/
def execTaskStart (cl : ClusterId) (lseq : BitVec 32) (crew : Nat) (s : State) : Out :=
  .next <|
    match (clusterAt s cl).crews.find? (fun cr => cr.info.lseq == lseq && cr.info.index == crew && !cr.unstarted.isEmpty) with
    | none => s
    | some cr =>
      match (partAt s cr.pid).bind fun p => lkp p.launches lseq with
      | none => s
      | some l =>
        let ready := (crewBanks cr.info).all fun b =>
          (bankAt (clusterAt s cl) b).transit.isNone && (bankAt (clusterAt s cl) b).mode == bankWant cr.info b
        if !ready then startBanks s cl cr.info
        else
          let st := lkpD l.strata cl.die { owned := [], crews := 0, left := 0 }
          let s1 := cr.unstarted.zipIdx.foldl (fun acc u =>
            let tid := cr.tids.getD u.2 0
            let t := { startTask l st cr.info cr.pid s.ck tid u.1.1 u.1.2 with evLost := missed s cr.pid tid }
            modCore acc (coreOf cl (cr.cores.getD u.2 0)) fun k =>
              { k with task := some t, acc := [], dirty := [], mxq := [], wanted := false }) s
          let w : Who := { pid := cr.pid, die := cl.die, slab := clusterSlab cl, clus := cl.clus, core := none,
                           task := cr.tids.headD 0, sup := false }
          let go := fun (x : CrewRes) => if x = cr then { x with unstarted := [] } else x
          let s2 := modPart (acquireInval s1 w 3) cr.pid fun p => { p with lostTo := p.lostTo.filter fun t => !cr.tids.contains t }
          modCluster s2 cl fun k => { k with crews := k.crews.map go }

/-! ### Completion (R152) -/

/-- An engine entry or a LAUNCH of this launch's tasks is still on the die. -/
def launchBusy (s : State) (pid : BitVec 32) (d : DieId) (lseq : BitVec 32) : Bool :=
  ((List.range 10).any fun c => (entriesOn s ⟨d, c⟩).any fun e => e.pid == pid && e.lseq == lseq) ||
  ((partAt s pid).map fun p => p.subs.any fun x =>
    match x.issuer with | some e => e.lseq == lseq && e.core.die == d | none => false).getD false
/-- A lode entry frees; packets leave the overflow area in LSEQ order, a PCRIT packet ahead into a free reserve entry
(R141). -/
def freeLode (s : State) (pid : BitVec 32) (sl : SlabId) (lseq : BitVec 32) : State :=
  let s1 := modSlab s sl fun b => { b with lode := b.lode.filter (fun e => e.lseq != lseq), overflow := b.overflow.filter (fun x => x.1 != lseq) }
  let b := slabAt s1 sl
  let used := (b.lode.filter (·.reserve)).length
  let norm := (b.lode.filter fun e => !e.reserve).length
  let pick := match b.overflow.find? (fun x => x.2 && decide (used < 32)) with
    | some x => some x
    | none => if norm < 224 then b.overflow.head? else none
  match pick with
  | none => s1
  | some x =>
    let s2 := modSlab s1 sl fun b => { b with overflow := b.overflow.erase x }
    match (partAt s2 pid).bind fun p => lkp p.launches x.1 with
    | some l => enterLode s2 sl l
    | none => s2
/-- The COMPL semaphore of a stratum: a release at PARTITION scope, and a signal that a crew there has heard (R152, R330). -/
def signalCompl (s : State) (l : Launch) (d : DieId) : State :=
  let w := pkCompl l
  if pkCevent l || !w.getLsbD 63 then s
  else
    let c := depPlace w d
    let n := bitsN w 33 8
    hearSem (addSem s c n 1) c n
/-- STRATUM_END. -/
def execStratumEnd (pid : BitVec 32) (die : DieId) (lseq : BitVec 32) (s : State) : Out :=
  .next <| match (partAt s pid).bind fun p => lkp p.launches lseq with
    | none => s
    | some l =>
      match lkp l.strata die with
      | none => s
      | some st =>
        let crewHere := (dieClusters s pid die).any fun c => (clusterAt s c).crews.any fun cr => cr.pid == pid && cr.info.lseq == lseq
        if st.reported || !l.dies.contains die || st.left != 0 || crewHere || launchBusy s pid die lseq then s
        else
          let s1 := modLaunch s pid lseq fun x => modStratum die (fun y => { y with reported := true }) { x with reported := x.reported + 1 }
          (dieSlabs s1 pid die).foldl (fun acc sl => freeLode acc pid sl lseq) (signalCompl s1 l die)
/-- Slots of a launch that has ended are freed (R331). -/
def dropImages (s : State) (pid lseq : BitVec 32) : State :=
  { s with slabs := s.slabs.map fun sb =>
      (sb.1, { sb.2 with images := sb.2.images.filter fun im => !(im.pid == pid && im.info.lseq == lseq) }) }
/-- The LDONE record of a launch (R306). -/
def ldone (l : Launch) : BitVec 256 :=
  eventRec 1 7 0 (BitVec.ofNat 64 (pk l 960 32)) (BitVec.ofNat 64 l.status) (l.lseq.zeroExtend 64)
/-- The final completion of a launch that has ended: an LDONE record waits while the issuer's event queue is full or the issuer is
captured (R306); `none` while it waits. -/
def signalDone (s : State) (pid : BitVec 32) (l : Launch) : Option State :=
  if !pkCevent l then some s
  else match l.issuer with
    | none => (match l.qp with
      | some n => some (postCq s n (completion 1 l.status l.ctag l.lseq.toNat (l.packet.extractLsb' 960 32) 1))
      | none => some s)
    | some e =>
      match coreOfTask s pid e.taskId with
      | some c =>
        (match (coreAt s c).task with
         | some t => if 64 ≤ t.evq.length then none else some (modTask s c (postEvent (ldone l)))
         | none => some s)
      | none =>
        if s.slabs.any fun sb => sb.2.images.any fun im => im.away && im.pid == pid && im.tasks.any fun t => t.taskId == e.taskId
        then none else some s
/-- LAUNCH_COMPLETE: when every stratum of E has reported the count falls and the final completion is posted; a record that has to
wait is posted by a later event (R152, R306). -/
def execLaunchComplete (pid : BitVec 32) (lseq : BitVec 32) (s : State) : Out :=
  .next <| match partAt s pid with
    | none => s
    | some p =>
      match lkp p.launches lseq with
      | none =>
        (match lkp p.done lseq with
         | none => s
         | some l => (signalDone (setPart s pid { p with done := del p.done lseq }) pid l).getD s)
      | some l =>
        if l.strata.length < p.dies.length || l.reported < l.dies.length then s
        else
          let gone := dropImages (setPart s pid { p with launches := del p.launches lseq, out := p.out - 1 }) pid lseq
          (signalDone gone pid l).getD (modPart gone pid fun q => { q with done := ins q.done lseq l })

/-! ### Residency (R150, R151) -/

/-- The task waits as R150 asks, or RESIDENCY has suspended it at such a wait: of launches that block each other each is reported
(R150; log 15). -/
def residWait (t : Task) : Bool :=
  match t.susp with
  | some r => r.cls == 16
  | none => (match t.as.held with | some ⟨.bar, _⟩ | some ⟨.sem, _⟩ => true | _ => false) && queueBlocked t .xs
def tasksOn (s : State) (d : DieId) : List (CoreId × Task) :=
  s.cores.filterMap fun x => if x.1.die = d then x.2.task.map fun t => (x.1, t) else none
/-- Conditions 1, 2 and 4 of R150 for a launch with undispatched crews. -/
def residOwn (s : State) (pid : BitVec 32) (d : DieId) (l : Launch) : Bool :=
  match lkp l.strata d with
  | none => false
  | some st =>
    match nextCrewOf st with
    | none => false
    | some k =>
      ((tasksOn s d).all fun x => !(x.2.pid == pid && x.2.crew.lseq == l.lseq) || residWait x.2) &&
      !(dieClusters s pid d).any (fits s pid (crewInfo l k) (hCrew l)) &&
      !launchBusy s pid d l.lseq &&
      !(dieClusters s pid d).any fun c => (clusterAt s c).reserved.isSome || (clusterAt s c).crews.any fun cr => cr.choice != 0
/-- The cores of a cluster that would serve a crew of `l` if they were free (R143). -/
def usableCores (s : State) (c : ClusterId) (l : Launch) : List Nat :=
  (List.range 4).filter fun i =>
    !(c.clus % 5 == 4 && i == 3) && !(coreAt s (coreOf c i)).fenced && (hFeat l &&& ~~~ (coreAt s (coreOf c i)).feature) == 0
/-- Cores that a task or a placed crew of the cluster holds. -/
def heldCores (s : State) (c : ClusterId) : List Nat :=
  (List.range 4).filter fun i =>
    (coreAt s (coreOf c i)).task.isSome || (clusterAt s c).crews.any fun cr => cr.cores.contains i
/-- Cores that have to be freed before any crew of `l` fits: those of crews that meet its banks or semaphores, and of suspended tasks
(R143, R326). -/
def mustFree (s : State) (c : ClusterId) (l : Launch) : List Nat :=
  (heldCores s c).filter fun i =>
    ((clusterAt s c).crews.any fun cr => crewsClash (crewInfo l 0) cr && cr.cores.contains i) ||
    (match (coreAt s (coreOf c i)).task with | some t => t.susp.isSome | none => false)
/-- The cores of a cluster whose freeing would let a crew of `l` fit there: none where it has too few that could serve one, those that
have to be freed where they are enough, else those and every held core that could serve (log 15). -/
def blockCores (s : State) (c : ClusterId) (l : Launch) : List Nat :=
  let can := usableCores s c l
  let must := mustFree s c l
  let held := heldCores s c
  if (clusterAt s c).fenced || decide (can.length < hCrew l) then []
  else if hCrew l ≤ (can.filter fun i => !held.contains i || must.contains i).length then must
  else held.filter fun i => can.contains i || must.contains i
/-- Those cores on the die, each with its task; a core of a crew that has not yet started has none. -/
def blockers (s : State) (pid : BitVec 32) (d : DieId) (l : Launch) : List (Option Task) :=
  (dieClusters s pid d).flatMap fun c => (blockCores s c l).map fun i => (coreAt s (coreOf c i)).task
/-- Condition 3 of R150: every blocker is a task of one of the launches `ls`. -/
def residCores (s : State) (pid : BitVec 32) (d : DieId) (ls : List Launch) (l : Launch) : Bool :=
  (blockers s pid d l).all fun b => match b with
    | some t => t.pid == pid && ls.any fun y => y.lseq == t.crew.lseq
    | none => false
/-- The launches that meet all four conditions together: the largest set whose blockers lie inside it. -/
def residSet (s : State) (pid : BitVec 32) (d : DieId) : Nat → List Launch → List Launch
  | 0, l => l
  | k + 1, l => residSet s pid d k (l.filter (residCores s pid d l))
def residNow (s : State) (pid : BitVec 32) (p : Part) (d : DieId) : List Launch :=
  let all := (p.launches.map (·.2)).filter (residOwn s pid d)
  residSet s pid d all.length all
/-- The watch that the barrier units of a partition's dies keep: for each launch, since when the conditions have held on a die. -/
def watchPart (s : State) (pid : BitVec 32) (p : Part) : Part :=
  if p.launches.isEmpty then p
  else
    let met := p.dies.map fun d => (d, (residNow s pid p d).map (·.lseq))
    let upd := fun (l : Launch) =>
      { l with watch := met.filterMap fun x => if x.2.contains l.lseq then some (x.1, (lkp l.watch x.1).getD s.ck) else none }
    { p with launches := p.launches.map fun x => (x.1, upd x.2) }
/-- The class of the latest record that names a launch: of those that the last step has posted toward the rings of its partition's
slabs, or as it was (R152). -/
def latestRec (s : State) (p : Part) (l : Launch) : Nat :=
  (p.slabs.flatMap fun x => (slabAt s x).pending.drop (slabAt s x).noted).foldl (fun a r => if r.lseq = l.lseq then r.cls else a) l.last
def notePart (s : State) (p : Part) : Part :=
  { p with launches := p.launches.map fun x => (x.1, { x.2 with last := latestRec s p x.2 }) }
/-- What the barrier units and the schedulers note between two steps (R150, R152). -/
def between (s : State) : State :=
  { s with parts := s.parts.map fun x => (x.1, notePart s (watchPart s x.1 x.2))
           slabs := s.slabs.map fun x => (x.1, { x.2 with noted := x.2.pending.length }) }
def residRec (l : Launch) (susp : Bool) : FaultRec :=
  { cls := 16, src := 11, susp := susp, lseq := l.lseq, ltag := l.packet.extractLsb' 960 32, d0 := l.lseq.zeroExtend 64,
    d1 := BitVec.ofNat 64 (pk l 960 32) }
/-- R151: a co-resident stratum that a cluster fence leaves unable ever to fit on a die is reported there once, with no task
suspended. -/
def raiseCoresid (s : State) (pid : BitVec 32) (die : DieId) (l : Launch) : State :=
  match lkp l.strata die with
  | none => s
  | some st =>
    if hCoresid l && !l.raised.contains die && decide (0 < st.crews ∧ st.nextCrew = 0 ∧ capacity s pid die l true < st.crews) then
      modLaunch (postRec s (slabOnDie s pid die) (residRec l false)) pid l.lseq fun x => { x with raised := x.raised ++ [die] }
    else s
/-- RESIDENCY: once the conditions have held for 65,536 ck, every resident task of the launch on the die is suspended at its wait
and one record is posted; the watch begins again. A launch of which every resident task has been suspended so is not reported again. -/
def execResidency (pid : BitVec 32) (die : DieId) (lseq : BitVec 32) (s : State) : Out :=
  .next <| match partAt s pid with
    | none => s
    | some p =>
      match lkp p.launches lseq with
      | none => s
      | some l =>
        let s0 := raiseCoresid s pid die l
        match lkp l.watch die with
        | none => s0
        | some t =>
          let mine := (tasksOn s0 die).filter fun x => x.2.pid == pid && x.2.crew.lseq == lseq
          let told := !mine.isEmpty && mine.all fun x => x.2.susp.isSome
          if s.ck < t + 65536 || told || !(residNow s pid p die).any fun x => x.lseq == lseq then s0
          else
            let s1 := mine.foldl (fun acc x =>
              if x.2.susp.isNone then modTask acc x.1 fun t => suspendTask (residRec l true) (freezeRemain acc t) else acc) s0
            modLaunch (postRec s1 (slabOnDie s pid die) (residRec l true)) pid lseq fun x => { x with watch := del x.watch die }

end Sys2Proof.Machine
end

