-- ==== Sys2Proof/Machine/Preempt.lean ====
section
/-! DEFINITION. Fault records and their ring, the watchdog, the supervisor's start, pre-emption, checkpoint and restore
(R307, R312, R323, R325, R329 to R332). -/

namespace Sys2Proof.Machine

/-! ### Fault records (R329) -/

def recBits (r : FaultRec) : BitVec 512 :=
  BitVec.ofNat 512 (r.oid.toNat + r.cix % 4 * 2 ^ 44 + r.clus % 16 * 2 ^ 46 + r.more.toNat * 2 ^ 50 + r.susp.toNat * 2 ^ 51 +
    r.src % 16 * 2 ^ 52 + r.cls % 256 * 2 ^ 56 + r.taskId.toNat * 2 ^ 64 + r.ltag.toNat * 2 ^ 128 + r.lseq.toNat * 2 ^ 160 +
    r.pc.toNat * 2 ^ 192 + r.d0.toNat * 2 ^ 256 + r.d1.toNat * 2 ^ 320 + r.d2.toNat * 2 ^ 384)
/-- A record of a suspended task is posted once the matrix queue of its core has completed, that of RESIDENCY once those of every
task it suspended have (R151, R272, R278, R326). -/
def recReady (s : State) (sl : SlabId) (r : FaultRec) : Bool :=
  let pid := (slabAt s sl).pid
  if r.susp && r.src != 11 then
    match coreOfTask s pid r.taskId with
    | some c => (coreAt s c).mxq.isEmpty
    | none => true
  else if r.susp && r.src == 11 then
    (tasksOn s sl.die).all fun x => !(x.2.pid == pid && x.2.crew.lseq == r.lseq) || (coreAt s x.1).mxq.isEmpty
  else true
/-- FAULT_RECORD_POST (R310, R329): the oldest waiting record enters the ring once it has room, or the slab's buffer of 64
while no ring is usable. -/
def execFaultRecordPost (sl : SlabId) (s : State) : Out :=
  .next <|
    let b := slabAt s sl
    match ringBase s b.pid sl b.fq 64 with
    | none =>
      match b.pending with
      | [] => s
      | r :: rest =>
        if decide (64 ≤ b.fbuf.length) || !recReady s sl r then s
        else modSlab s sl fun b => { b with pending := rest, noted := b.noted - 1, fbuf := b.fbuf ++ [r] }
    | some (_, n) =>
      let put := fun (r : FaultRec) (s1 : State) =>
        let i := b.causeTail.toNat % n
        let s2 := hwWrite s1 b.pid (b.fq.extractLsb' 32 32) (64 * i / 256) (64 * i % 256) (ringAddr s b.pid sl b.fq (64 * i))
          (bytesOf 64 (recBits r).toNat)
        let s3 := modSlab s2 sl fun b => { b with causeTail := b.causeTail + 1, fring := b.fring ++ [r] }
        if b.fq.getLsbD 8 then addSem s3 ⟨sl.die, sl.slab * 5 + 4⟩ (bitsN b.fq 0 8) 1 else s3
      if n ≤ b.fring.length then s
      else match b.fbuf, b.pending with
        | r :: rest, _ => put r (modSlab s sl fun b => { b with fbuf := rest })
        | [], r :: rest => if recReady s sl r then put r (modSlab s sl fun b => { b with pending := rest, noted := b.noted - 1 }) else s
        | [], [] => s

/-! ### Watchdog (R325) -/

def watched (w : HoldWhy) : Bool := counted w
def wdogLimit (s : State) (sl : SlabId) : Nat := 1024 * bitsN (slabAt s sl).wdog 0 32
/-- WATCHDOG: a strand held for LIMIT·1,024 ck takes the fault at the held instruction. -/
def execWatchdog (c : CoreId) (x : Strand) (s : State) : Out :=
  .next <|
    match (coreAt s c).task with
    | none => s
    | some t =>
      match (strandOf t x).held with
      | none => s
      | some hd =>
        let lim := wdogLimit s (coreSlab c)
        if t.susp.isNone && watched hd.why && decide (lim ≠ 0) && decide (hd.since + lim ≤ s.ck) then
          takeFault s { core := c, x := x, k := coreAt s c, t := t } 20 0 (BitVec.ofNat 64 ((s.ck - hd.since) / 1024))
        else s
/-- WATCHDOG_ENGINE: a held entry is reported, once until it moves on, and not stopped. -/
def execWatchdogEngine (q : QueueId) (s : State) : Out :=
  .next <| match nextEntry s q with
    | none => s
    | some e =>
      let sl := coreSlab e.core
      let lim := wdogLimit s sl
      if e.st != .halted && !e.done && !e.reported && decide (lim ≠ 0) && decide (e.since + lim ≤ s.ck) then
        postRec (modEntry s q e.serial fun x => { x with reported := true }) sl
          { cls := 20, src := srcCode q.q, susp := false, clus := e.core.core / 4, cix := cix e.core, taskId := e.taskId,
            ltag := ltagOf s e.pid e.lseq, lseq := e.lseq, pc := e.pc, d0 := e.tag.zeroExtend 64,
            d1 := BitVec.ofNat 64 ((s.ck - e.since) / 1024) }
      else s

/-! ### The supervisor task (R139, R143, R323) -/

/-- Every right except SEALED: bits 48 to 58. -/
def allRights : Nat := 0x7FF
def slabBase (sl : SlabId) : Nat := sl.die.toNat * 2 ^ 47 + sl.slab * 2 ^ 46
/-- c1: oid 0 over the whole physical window (log 6). -/
def windowCap : CapReg := { tag := true, bits := mkCap 0 0 allRights 0 (2 ^ 64 - 1) 0 }
/-- The capability of the firmware entry (log 6). -/
def supKcap (sl : SlabId) : CapReg :=
  { tag := true, bits := mkCap 0 0 allRights (slabBase sl + Config.supEntry) (Config.hbmBytes - Config.supEntry) 0 }
def supTask (pid : BitVec 32) (sl : SlabId) (ck : Nat) : Task :=
  { pid := pid, taskId := BitVec.ofNat 64 (sl.die.toNat * 2 ^ 47 + (0x7FFFFE + sl.slab)), ord := 0x7FFFFE + sl.slab,
    c := [(1, windowCap), (2, supKcap sl)], kcap := supKcap sl, remAt := ck }
/-- Start the supervisor of a slab from its firmware entry. An engine entry of its own that a fault has halted stays at the head of its
queue (DESIGN CHOICE, log 96: R323 says nothing of it). -/
def startSup (s : State) (pid : BitVec 32) (sl : SlabId) : State :=
  let s1 := match (coreAt s (supCore sl)).task with | some t => discardTask s t.pid t.taskId | none => s
  let s2 := modCore (dropLease s1 (supCore sl)) (supCore sl) fun k =>
    { k with task := some (supTask pid sl s.ck), acc := [], dirty := [], mxq := [], wanted := false }
  modSlab s2 sl fun b => { b with supst := 0 }
/-- SUPERVISOR_RESTART: the controller restarts a faulted supervisor; a fenced core takes none (log 89). -/
def execSupervisorRestart (sl : SlabId) (s : State) : Out :=
  .next <|
    if (slabAt s sl).supst = 1 && (dieAt s sl.die).live && !(slabAt s sl).fence && !(coreAt s (supCore sl)).fenced && !(clusterAt s (CoreId.cluster (supCore sl))).fenced then
      startSup s (slabAt s sl).pid sl
    else s

/-! ### Capture (R307, R331) -/

/-- The object of SYS.SAVE is usable, and the number of slots it holds (R312). -/
def saveSlots (s : State) (sl : SlabId) : Nat :=
  let b := slabAt s sl
  let oid : BitVec 32 := b.save.extractLsb' 32 32
  let n := bitsN b.save 16 16
  let e := walk s b.pid sl.die ⟨oid, 0, 0⟩
  if oid ≠ 0 ∧ wState e.word0 = 1 ∧ wLinear e.word0 ∧ ¬ wVer e.word0 ∧ n * 2 ^ 24 ≤ e.dims.toNat % 2 ^ 64 then n else 0
def freeSlots (s : State) (sl : SlabId) : Nat := saveSlots s sl - (slabAt s sl).images.length
/-- The crew's slot, wherever it was first saved. -/
def slotOf (s : State) (pid : BitVec 32) (i : CrewInfo) : Option (SlabId × Image) :=
  (s.slabs.flatMap fun sb => sb.2.images.map fun im => (sb.1, im)).find? fun x =>
    x.2.pid == pid && x.2.info.lseq == i.lseq && x.2.info.index == i.index
def sameCrew (pid : BitVec 32) (i : CrewInfo) (cr : CrewRes) : Bool := cr.pid == pid && cr.info.lseq == i.lseq && cr.info.index == i.index
def crewAt (s : State) (c : ClusterId) (lseq : BitVec 32) (crew : Nat) : Option CrewRes :=
  (clusterAt s c).crews.find? fun cr => cr.info.lseq == lseq && cr.info.index == crew
def modCrew (s : State) (c : ClusterId) (pid : BitVec 32) (i : CrewInfo) (f : CrewRes → CrewRes) : State :=
  modCluster s c fun k => { k with crews := k.crews.map fun cr => if sameCrew pid i cr then f cr else cr }
/-- The tasks of a crew, with their cores. -/
def crewTasks (s : State) (c : ClusterId) (cr : CrewRes) : List (CoreId × Task) :=
  cr.cores.filterMap fun i => (coreAt s (coreOf c i)).task.map fun t => (coreOf c i, t)
/-- Remove chosen entries from every queue of a cluster and of its die's slabs, and from the armed sends. -/
def dropEntries (s : State) (c : ClusterId) (p : Entry → Bool) : State :=
  let s1 := (queuesOf c).foldl (fun acc q =>
    if (queueAt acc q).any p then setQueue acc q ((queueAt acc q).filter fun e => !p e) else acc) s
  [0, 1].foldl (fun acc u =>
    if (slabAt acc ⟨c.die, u⟩).armed.any p then modSlab acc ⟨c.die, u⟩ fun b => { b with armed := b.armed.filter fun e => !p e } else acc) s1
/-- Entries in the order of their issue (R307). -/
def serialIns (e : Entry) : List Entry → List Entry
  | [] => [e]
  | x :: r => if e.serial < x.serial then e :: x :: r else x :: serialIns e r
def bySerial (l : List Entry) : List Entry := l.foldl (fun a e => serialIns e a) []
/-- A capture begins, or takes in what a further .park finds: the strands issue nothing more, and queued entries and armed sends
leave their queues and are saved in their order (R307, R331). -/
def beginCapture (s : State) (c : ClusterId) (cr : CrewRes) (choice : Nat) : State :=
  let p := fun (e : Entry) => issuedBy cr.pid cr.tids e && e.st == .queued && !isResult e.cmd &&
    !((slabAt s ⟨c.die, 0⟩).fired.contains e || (slabAt s ⟨c.die, 1⟩).fired.contains e)
  let es := bySerial ((entriesOn s c).filter p)
  modCrew (dropEntries s c p) c cr.pid cr.info fun x => { x with choice := max choice x.choice, saved := x.saved ++ es, drainBy := none }
/-- The strand waits for another die's answer; a reduction that still stands in the side log is saved with it (R93). -/
def awaitsAnswer (t : Task) : Bool :=
  match t.remote with
  | .sent .. => true
  | .posted n => !t.side.any fun e => e.tag == n && !e.sent
  | _ => false
/-- A LAUNCH of the crew's tasks has no status yet (R137, R307). -/
def launchPending (s : State) (pid : BitVec 32) (tids : List W64) : Bool :=
  match partAt s pid with
  | none => false
  | some p =>
    let mine := fun (x : Option Entry) => match x with | some e => tids.contains e.taskId | none => false
    (p.subs.any fun x => mine x.issuer) ||
    p.launches.any fun x => mine x.2.issuer && !p.dies.all fun d => (lkp x.2.strata d).isSome
/-- Nothing of the crew's work is still in flight: matrix queues, engine entries, stores on their way to other dies, banks (R307, R322,
R331 steps 2 to 4); an entry that a fault has halted stays as it stands. -/
def captureReady (s : State) (c : ClusterId) (cr : CrewRes) : Bool :=
  let mine := (entriesOn s c).filter (issuedBy cr.pid cr.tids)
  let halted := fun (p : Nat × BitVec 32) => mine.any fun e => e.st == .halted && e.tag == p.2
  (crewTasks s c cr).all (fun x => (coreAt s x.1).mxq.isEmpty && x.2.pendReg.all halted && !awaitsAnswer x.2 &&
    x.2.unacked.all fun u => u.2 == 0) &&
  mine.all (fun e => e.st == .halted || (!isResult e.cmd && ((isRecv e && !e.done) || (isAttn e && e.st == .queued)))) &&
  !launchPending s cr.pid cr.tids &&
  (crewBanks cr.info).all (fun b => (bankAt (clusterAt s c) b).transit.isNone) && cr.unstarted.isEmpty
/-- Dirty words go beside their records, which stay open; the words leave the L1 (R331 step 4). -/
def spillTask (s : State) (c : ClusterId) (tid : W64) : State :=
  (clusterAt s c).l1.foldl (fun acc kl =>
    match kl.2.own.find? (·.task == tid) with
    | none => acc
    | some o =>
      let s1 := spill acc kl.1 { kl.2 with own := [o] }
      mapL1 s1 c fun k x => if k = kl.1 then { invalWords x o.mask with own := x.own.filter (·.task != tid) } else x) s
/-- A bank as it is saved: frames whose dirty bit is set over those of the earlier image; FIFO entries in order. -/
def bankImg (k : Cluster) (old : List BankImg) (b : Nat) : BankImg :=
  let (was, epoch) := match old.find? (·.idx == b) with | some x => (x.frames, x.epoch) | none => ([], 0)
  let frames := (bankAt k b).dirty.foldl (fun m f =>
    ins m f ((List.range 256).map fun i => (b * 2 ^ 18 + 256 * f + i, scrByte k (b * 2 ^ 18 + 256 * f + i)))) was
  { idx := b, mode := (bankAt k b).mode, frames := if (bankAt k b).mode = .scratch then frames else [], fifo := (bankAt k b).fifo, epoch := epoch }
/-- A task as an image holds it. -/
def savedTask (s : State) (t : Task) : Task :=
  { freezeRemain s t with windows := [], as := unheld t.as, xs := unheld t.xs }
/-- The hardware writes an image over a slot: the L2 no longer holds its lines, and its granules lose their tags (R205, R312, R331). -/
def dropSlot (s : State) (sl : SlabId) (n : Nat) : State :=
  let exts := (List.range 8).filterMap fun i => areaExt s (sl, slabAt s sl) (8 * n + i)
  { s with
    l2 := s.l2.filter fun kl => saveSlot s kl.1 != some (sl, n)
    memTags := s.memTags.filter fun g => !exts.any fun e => inLines e (g / 8) }
/-- CHECKPOINT (R331): a capture that finds no slot free waits for one with its crew stopped on its cores (DESIGN CHOICE, log 105: no rule
says what becomes of a capture begun while another takes the last slot). The image takes a slot, the banks return to CACHE, the cores are free. Members with a fault pending
leave the crew PARKED. -/
def execCheckpoint (cl : ClusterId) (lseq : BitVec 32) (crew : Nat) (s : State) : Out :=
  .next <| match crewAt s cl lseq crew with
    | none => s
    | some cr =>
      if cr.choice < 3 || !captureReady s cl cr then s
      else
        let slot := slotOf s cr.pid cr.info
        let sl := match slot with | some x => x.1 | none => clusterSlab cl
        let n := match slot with
          | some x => x.2.slot
          | none => ((List.range (saveSlots s sl)).find? fun k => !(slabAt s sl).images.any fun y => y.slot == k).getD 0
        if slot.isNone && freeSlots s sl = 0 then s
        else
          let ts := crewTasks s cl cr
          let k := clusterAt s cl
          let rest := (entriesOn s cl).filter (issuedBy cr.pid cr.tids)
          let back := fun (e : Entry) => if e.st == .running then { e with st := .queued } else e
          let im : Image :=
            { info := cr.info, pid := cr.pid, slab := sl.slab, tasks := ts.map fun x => savedTask s x.2,
              acc := ts.map fun x => (coreAt s x.1).acc, wanted := ts.map fun x => (coreAt s x.1).wanted,
              dirtyBlk := ts.map fun x => (coreAt s x.1).dirty,
              banks := (crewBanks cr.info).map (bankImg k (match slot with | some x => x.2.banks | none => [])),
              sems := (List.range cr.info.semn).map fun i => (cr.info.semlo + i, semAt s cl (cr.info.semlo + i)),
              entries := bySerial (rest.map back ++ cr.saved), resumable := some (s.serial + 1),
              held := cr.choice == 4 || ts.any (fun x => x.2.susp.isSome), slot := n,
              harmed := (match slot with | some x => x.2.harmed | none => false) }
          let s1 := dropSlot (ts.foldl (fun acc x => spillTask acc cl x.2.taskId) s) sl n
          let s2 := dropEntries { s1 with serial := s1.serial + 1 } cl (issuedBy cr.pid cr.tids)
          let s3 := ts.foldl (fun acc x => modCore (dropLease acc x.1) x.1 fun q => { q with task := none, wanted := false }) s2
          let s4 := modCluster s3 cl fun q => { q with crews := q.crews.filter fun y => !sameCrew cr.pid cr.info y }
          let s5 := modSlab s4 sl fun b => { b with
            images := im :: b.images.filter fun y => !(y.pid == cr.pid && y.info.lseq == lseq && y.info.index == crew) }
          (crewBanks cr.info).foldl (fun acc b => startMode acc cl b .cache none) s5

/-! ### Restore (R332) -/

/-- The queue of R273 for a command of a core. -/
def engOf (c : CoreId) (i : Instr) : EngQ :=
  match i with
  | .cpy _ | .cpySt _ | .cpyl _ | .cpylSt _ | .cpylOo _ => ceFor c
  | .gath _ | .scat _ => .ge
  | .halo _ => .he
  | .reshd _ | .reshdInst _ => .rs
  | .send _ | .sendt _ | .mcast _ | .recvadd _ => .le
  | .attn _ | .attnc _ | .kvmap _ | .kvmapLen _ | .kvunmap _ => .ae
  | _ => .su
/-- Saved entries, in their order, go ahead of every newer entry that has not started (R307). -/
def mergeSaved (l : List Entry) (e : Entry) : List Entry :=
  let first := fun (x : Entry) => x.st != .queued || decide (x.serial < e.serial)
  l.takeWhile first ++ e :: l.dropWhile first
/-- The saved entries of a crew enter the queues of their tasks' new cores (R307). -/
def reenter (s : State) (coreFor : Entry → CoreId) (es : List Entry) : State :=
  es.foldl (fun acc e =>
    let c := coreFor e
    let q := queueFor c (engOf c e.cmd)
    setQueue acc q (mergeSaved (queueAt acc q) { e with core := c, since := s.ck, reported := false })) s
/-- A bank takes the mode and contents of its image (R331, R332). -/
def loadBank (s : State) (c : ClusterId) (b : BankImg) : State :=
  let s1 := if (bankAt (clusterAt s c) b.idx).mode = b.mode then s
    else finishMode (startMode s c b.idx b.mode none) c b.idx
  modCluster s1 c fun k =>
    { k with
      scr := (b.frames.flatMap (·.2)).foldl (fun m x => ins m x.1 x.2) (k.scr.filter fun x => x.1 / 2 ^ 18 != b.idx)
      bank := ins k.bank b.idx { mode := b.mode, fifo := b.fifo, epoch := b.epoch } }
/-- Free bits in lanes of 64. -/
def freeWide (free n k : Nat) : BitVec n :=
  ofLanes n 64 ((List.range (n / 64)).map fun i => (Config.freeBits free (0x10000 + 128 * k + i)).toNat)
/-- Free bytes in the place of some bytes. -/
def freeBytes (free k : Nat) (b : List Byte) : List Byte := b.zipIdx.map fun x => (Config.freeBits free (k + x.2)).truncate 8
/-- The data of a side-log entry of a harmed image; no capability comes of free bits (R197). -/
def freeOp (free k : Nat) (op : WOp) : WOp :=
  match op with
  | .bytes b => .bytes (freeBytes free k b)
  | .cap _ => .cap ⟨false, freeWide free 256 k⟩
  | .reduce fn w _ => .reduce fn w (Config.freeBits free k)
  | .release b => .release (freeBytes free k b)
/-- A task whose image a write has harmed: its registers, program counters, loop stacks, SYS.REMAIN, queues, side log, events, refusals
and tags are undefined, and no capability of it is tagged (R7, R197, R312; log 87). -/
def scramble (free : Nat) (t : Task) : Task :=
  let bits := fun (k : Nat) => Config.freeBits free (0x8000 + k)
  let fill := fun (k : Nat) (q : List W64) => q.zipIdx.map fun x => bits (0x800 + 0x40 * k + x.2)
  { t with
    a := (List.range 63).map fun i => (i + 1, bits (0x100 + i)),
    x := (List.range 63).map fun i => (i + 1, bits (0x200 + i)),
    c := (List.range 16).map fun i => (i, ⟨false, freeWide free 256 (0x300 + i)⟩),
    v := (List.range 32).map fun i => (i, freeWide free 1024 (0x100 + i)),
    t := (List.range 256).map fun i => ((i / 32, i % 32), freeWide free 1024 (0x200 + i)),
    p := (List.range 7).map fun i => (i + 1, (bits (0x400 + i)).truncate 32),
    as := { t.as with pc := bits 0x500, loops := t.as.loops.zipIdx.map fun x => bits (0x510 + x.2) },
    xs := { t.xs with pc := bits 0x501, loops := t.xs.loops.zipIdx.map fun x => bits (0x520 + x.2) },
    q0 := fill 0 t.q0, q1 := fill 1 t.q1, q2 := fill 2 t.q2, q3 := fill 3 t.q3,
    bq := t.bq.zipIdx.map fun x => Config.freePick free (0x10100 + x.2),
    vq := t.vq.zipIdx.map fun x => (freeWide free 1024 (0x400 + x.2), (bits (0x540 + x.2)).truncate 4),
    wq := t.wq.zipIdx.map fun x => freeWide free 1024 (0x420 + x.2),
    gen := t.gen.zipIdx.map fun x => (x.1.1, (bits (0x600 + x.2)).truncate 32),
    side := t.side.zipIdx.map fun x => { x.1 with op := freeOp free (0x40000 + 0x100 * x.2) x.1.op },
    evq := t.evq.zipIdx.map fun x => freeWide free 256 (0x440 + x.2),
    evLost := Config.freePick free 0x10200,
    stag := (bits 0x502).truncate 32,
    etag := (bits 0x503).truncate 32,
    refusals := t.refusals.zipIdx.map fun x => ((bits (0x700 + x.2)).truncate 32, x.1.2.1, (bits (0x780 + x.2)).truncate 32),
    remBase := (bits 0x504).toNat }
/-- An image that a write has harmed: what its crew restores of tasks, accumulators, wanted bits, scratch, FIFOs, semaphores and engine
entries is undefined (R7, R312; log 87). -/
def harmedImage (free epoch : Nat) (im : Image) : Image :=
  { im with
    tasks := im.tasks.zipIdx.map fun x => scramble (free + x.2) x.1
    acc := im.acc.zipIdx.map fun x => (List.range 256).map fun i => (i, freeWide (free + x.2) 8192 (0x500 + i))
    wanted := im.wanted.zipIdx.map fun x => Config.freePick free (0x10300 + x.2)
    banks := im.banks.map fun b =>
      { b with frames := [], epoch := epoch, fifo := b.fifo.zipIdx.map fun x => freeWide free 2048 (0x10000 + 0x400 * b.idx + x.2) }
    sems := im.sems.map fun x => (x.1, (Config.freeBits free (0x7000 + x.1)).truncate 32)
    entries := im.entries.zipIdx.map fun x =>
      { x.1 with regs := x.1.regs.zipIdx.map fun y => Config.freeBits free (0x80000 + 0x100 * x.2 + y.2) } }
/-- The open records of a task that has moved name its new cluster (R113, R129). -/
def moveRecs (s : State) (pid : BitVec 32) (tids : List W64) (clus : Nat) : State :=
  mapL2 s fun k l => if k.pid = pid then
    { l with recs := l.recs.map fun r => if tids.contains r.task then { r with clus := clus } else r } else l
/-- The words that a moved task has registered are current at their homes alone: its new cluster's copies of them go (R83, R110, R116). -/
def dropMoved (s : State) (pid : BitVec 32) (tids : List W64) (c : ClusterId) : State :=
  s.l2.foldl (fun acc kl =>
    let m := (kl.2.recs.filter fun r => tids.contains r.task).foldl (fun a r => a ||| r.mask) 0
    if kl.1.pid = pid ∧ m ≠ 0 then dropStale acc c kl.1 m else acc) s
/-- CREW_RESTORE: the first crew in the order of R145 step 1 that fits a cluster of its die. What its tasks execute happens after the
release of the RESUME that made it eligible (R108, R324), so words of the cluster's L1 that none of them owns go (R84). -/
def execCrewRestore (sl : SlabId) (s : State) : Out :=
  .next <|
    let ok := fun (im : Image) (c : ClusterId) => im.banks.all fun b => (bankAt (clusterAt s c) b.idx).transit.isNone
    match (if (slabAt s sl).fence then [] else eligibleImages s sl).findSome? (fun im => (imageFits s im.pid sl.die im).map fun c => (im, c)) with
    | none => s
    | some (img, c) =>
      let im := if img.harmed then harmedImage s.free (s.serial + 1) img else img
      if !ok im c then s
      else
        let cores := (freeCores s c im.info.feat).take im.tasks.length
        let cr : CrewRes :=
          { info := im.info, pid := im.pid, cores := cores, unstarted := [],
            tids := (im.tasks.map (·.taskId)) ++ (im.entries.map (·.taskId)).filter fun t => !im.tasks.any fun x => x.taskId == t }
        let s1 := modCluster { s with serial := s.serial + 1 } c fun k => { k with crews := k.crews ++ [cr] }
        let s2 := im.banks.foldl (fun acc b => loadBank acc c b) s1
        let s3 := im.sems.foldl (fun acc x => setSem acc c x.1 x.2) s2
        let coreNo := fun (i : Nat) => coreOf c (cores.getD i 0)
        let s4 := im.tasks.zipIdx.foldl (fun acc x =>
          let cid := coreNo x.2
          let want := im.wanted.getD x.2 false
          let a1 := modCore acc cid fun k =>
            { k with task := some { x.1 with remAt := s.ck, replay := !x.1.side.isEmpty }, acc := im.acc.getD x.2 [],
                     dirty := [], mxq := [], wanted := want }
          if want then modCluster a1 c fun k => { k with lease := { k.lease with reqs := k.lease.reqs ++ [cix cid] } } else a1)
          { s3 with free := s.free + 4 }
        let coreFor := fun (e : Entry) => match im.tasks.findIdx? (·.taskId == e.taskId) with
          | some i => coreNo i
          | none => coreOf c (cix e.core)
        let tids := im.tasks.map (·.taskId)
        let w : Who := { pid := im.pid, die := c.die, slab := clusterSlab c, clus := c.clus, core := none, task := tids.headD 0, sup := false }
        let s5 := acquireInval (dropMoved (moveRecs (reenter s4 coreFor im.entries) im.pid tids c.clus) im.pid tids c) w 3
        let gone := fun (y : Image) => if y = img then { y with banks := im.banks, away := false, entries := [], resumable := none, harmed := false } else y
        modSlab s5 ⟨sl.die, img.slab⟩ fun b => { b with images := b.images.map gone }

/-! ### Pre-emption (R330) -/

/-- Tasks of a crew by position go back to its stratum, in crew order (R145, R333). -/
def putBack (k : Nat) (again : List Nat) (st : Stratum) : Stratum :=
  { st with restartq := st.restartq.takeWhile (fun x => decide (x.1 < k)) ++ [(k, again)] ++ st.restartq.dropWhile fun x => decide (x.1 < k) }
/-- The crew's tasks end without a save and re-enter the undispatched count (R327, R330). -/
def killCrew (s : State) (c : ClusterId) (cr : CrewRes) : State :=
  let ts := crewTasks s c cr
  let again := ts.map (fun x => x.2.pos) ++ cr.unstarted.map (·.1)
  let s1 := modCrew s c cr.pid cr.info fun x => { x with unstarted := [], cores := ts.map fun y => cix y.1 }
  let s2 := ts.foldl (fun acc x => killTask acc x.1) s1
  let put := fun (st : Stratum) => putBack cr.info.index again { st with left := st.left + ts.length }
  reapCrews (modLaunch s2 cr.pid cr.info.lseq (modStratum c.die put)) c
/-- The choice for a departing crew (R330): drain unless a task has more than WINDOW left; kill or checkpoint otherwise; only
drain for a crew that has heard, or whose choice would be checkpoint while FREE is 0. -/
def departCrew (s : State) (c : ClusterId) (cr : CrewRes) (again : Bool) : State :=
  let win := bitsN (slabAt s (clusterSlab c)).drain 0 32
  let short := (crewTasks s c cr).all fun x => decide (remainOf s x.2 ≤ win)
  let noSlot := !cr.info.restart && freeSlots s (clusterSlab c) == 0
  if (short && !again) || cr.heard || noSlot then
    modCrew s c cr.pid cr.info fun x => { x with choice := 1, drainBy := if again then none else some (s.ck + win) }
  else if cr.info.restart then killCrew s c cr
  else beginCapture s c cr 3
/-- The cluster with chosen crews gone. -/
def withoutCrews (s : State) (c : ClusterId) (p : CrewRes → Bool) : State :=
  let out := (clusterAt s c).crews.filter p
  let s1 := modCluster s c fun k => { k with crews := k.crews.filter fun x => !p x }
  (out.flatMap (·.cores)).foldl (fun acc i => modCore acc (coreOf c i) fun k => { k with task := none }) s1
/-- The effective class of the launch of a resident crew, as it stands (R144). -/
def crewClass (s : State) (c : ClusterId) (cr : CrewRes) : Nat :=
  match (partAt s cr.pid).bind fun p => lkp p.launches cr.info.lseq with
  | none => 3
  | some l =>
    let st := lkpD l.strata c.die { owned := [], crews := 0, left := 0 }
    effClass s (clusterSlab c) l (match nextCrewOf st with | some k => (crewPos l st k).length | none => cr.info.size)
/-- PREEMPT: a crew that fits no cluster of the scheduler's own slab (DESIGN CHOICE, log 102: R320 and R330 do not say whether those of a
second slab of the partition on the die count) has a cluster reserved: the candidate whose departing tasks have the least SYS.REMAIN.
Its crews depart. -/
def execPreempt (sl : SlabId) (lseq : BitVec 32) (s : State) : Out :=
  .next <| match (candidates s sl).find? fun x => x.l.lseq == lseq with
    | none => s
    | some x =>
      let pid := (slabAt s sl).pid
      let i := crewInfo x.l x.crew
      let own := (dieClusters s pid sl.die).filter fun c => clusterSlab c == sl
      let lower := fun (c : ClusterId) (cr : CrewRes) => decide (x.cls < crewClass s c cr)
      let cand := own.filter fun c =>
        let k := clusterAt s c
        k.reserved.isNone &&
        !((List.range 4).any fun j => match (coreAt s (coreOf c j)).task with | some t => t.susp.isSome | none => false) &&
        !(k.crews.any fun cr => decide (3 ≤ cr.choice) || cr.info.coresid) && k.crews.any (lower c) &&
        fits (withoutCrews s c (lower c)) pid i (hCrew x.l) c
      let cost := fun (c : ClusterId) => ((clusterAt s c).crews.filter (lower c)).foldl (fun a cr =>
        (crewTasks s c cr).foldl (fun b y => b + remainOf s y.2) a) 0
      let best := cand.foldl (fun (a : Option ClusterId) c =>
        match a with
        | none => some c
        | some b => if cost c < cost b then some c else some b) none
      if 3 ≤ x.cls || own.any (fits s pid i (hCrew x.l)) || own.any (fun c => (clusterAt s c).reserved == some lseq) then s
      else match best with
        | none => s
        | some c =>
          let s1 := modCluster s c fun k => { k with reserved := some lseq }
          ((clusterAt s c).crews.filter (lower c)).foldl (fun acc cr => departCrew acc c cr false) s1
/-- DRAIN_WINDOW_EXPIRY: the choice is made again without drain, also for a crew of which a member has been suspended since the drain
began (DESIGN CHOICE, log 96: R326 keeps a suspended task from being chosen, and R330 makes this choice again for the crew). -/
def execDrainWindowExpiry (cl : ClusterId) (lseq : BitVec 32) (crew : Nat) (s : State) : Out :=
  .next <| match crewAt s cl lseq crew with
    | none => s
    | some cr =>
      match cr.drainBy with
      | none => s
      | some t => if cr.choice = 1 ∧ t ≤ s.ck then departCrew s cl cr true else s

end Sys2Proof.Machine
end

