-- ==== Sys2Proof/Machine/System.lean ====
section
/-! DEFINITION. The system forms (R20, R25, R308 to R324) and the completion of a bank's mode change (R80). -/

namespace Sys2Proof.Machine

/-! ### System registers (R19, R20, R23, R25, R172, R174, R308 to R312) -/

/-- AXMAP's three codes at a physical position (R17). -/
def axesOf (p : Nat) : List Nat :=
  (match p % 4 with | 0 => [0, 1] | 1 => [5, 0] | 2 => [4, 5] | _ => [1, 4]) ++ [2]
/-- SYS.ORIENT of a die (R19); all but DCOORD, LDIE and WRAP read 0 outside the supervisor (R20). -/
def orientOf (s : State) (d : DieId) (full : Bool) : W64 :=
  let p := Config.posOf (ldie d)
  let pub := d.toNat * 2 ^ 47 + ldie d * 2 ^ 44 + (pkgAt s (pkgOf d)).wrap.toNat * 2 ^ 35
  let ports := (portsOf p).zipIdx.foldl (fun a x => a + x.1 * 2 ^ (16 + 3 * x.2)) 0
  let axes := (axesOf p).zipIdx.foldl (fun a x => a + x.1 * 2 ^ (7 + 3 * x.2)) 0
  BitVec.ofNat 64 (if full then pub + p * 2 ^ 41 + p % 4 * 2 ^ 39 + p / 4 * 2 ^ 38 + ports + axes + chxOf p * 2 ^ 3 else pub)
/-- The physical index of a logical cluster: the set bits of ENABLED in order (R24). -/
def physCluster (j : Nat) : Nat := (((List.range 11).filter fun i => Config.harvest.getLsbD i).getD j 0)
/-- SYS.COREID (R25). -/
def coreIdOf (h : Here) : W64 :=
  let d := h.core.die
  BitVec.ofNat 64 (d.toNat * 2 ^ 47 + ldie d * 2 ^ 44 + (if isSup h.t then physCluster (h.core.core / 4) * 2 ^ 9 else 0) +
    (coreSlab h.core).slab * 2 ^ 8 + h.core.core / 4 * 2 ^ 4 + cix h.core * 4 + (match h.x with | .as => 0 | .xs => 2))
/-- SYS.CAUSE (R311): TAIL and HEAD modulo 2^28, CLASS of the record at HEAD. -/
def causeOf (b : Slab) : W64 :=
  BitVec.ofNat 64 ((match b.fring with | r :: _ => r.cls | [] => 0) * 2 ^ 56 + b.causeTail.toNat * 2 ^ 28 + b.causeHead.toNat)
/-- SYS.SAVE with FREE, the slots that hold no image (R312). -/
def saveOf (s : State) (sl : SlabId) : W64 := setBits (slabAt s sl).save 0 16 (freeSlots s sl)
/-- The value that CSRR delivers (R314). -/
def csrValue (s : State) (h : Here) (n : Nat) : W64 :=
  let b := slabAt s (coreSlab h.core)
  match n with
  | 0x000 => h.k.feature
  | 0x001 => orientOf s h.core.die (isSup h.t)
  | 0x002 => Config.harvest
  | 0x003 => coreIdOf h
  | 0x004 => h.t.taskId
  | 0x008 => BitVec.ofNat 64 (remainOf s h.t)
  | 0x009 => b.prio
  | 0x010 => causeOf b
  | 0x100 => b.drain
  | 0x101 => b.wdog
  | 0x102 => b.fq
  | 0x103 => b.flog
  | 0x104 => b.flLost ++ b.flTail
  | 0x105 => saveOf s (coreSlab h.core)
  | 0x106 => b.otbase
  | _ => 0
/-- CSRR (R314); a read of SYS.CAUSE acquires the records it observes (R329). -/
def execCsrr (f : FmtS) (s : State) : Out :=
  onStrand (.csrr f) s fun h =>
    let s1 := if f.csr = 0x10 then acquire s h 3 else s
    retire h (wrG h f.dst (csrValue s h f.csr.toNat) s1)
/-- CSRR of SYS.FLSTAT clears LOST (R311). -/
def execCsrrSysFlstat (f : FmtS) (s : State) : Out :=
  onStrand (.csrrSysFlstat f) s fun h =>
    retire h (wrG h f.dst (csrValue s h 0x104) (modSlab s (coreSlab h.core) fun b => { b with flLost := 0 }))
def setRemain (h : Here) (v : Nat) (s : State) : State := modTask s h.core fun t => { t with remBase := v, remAt := s.ck }
/-- CSRW of SYS.REMAIN, SYS.DRAIN and SYS.WDOG (R309). -/
def execCsrw (f : FmtS) (s : State) : Out :=
  onStrand (.csrw f) s fun h =>
    let v := rdG s h f.sa
    let low := fun (x : W64) => x &&& 0xFFFFFFFF
    retire h (if f.csr = 8 then setRemain h v.toNat s
      else if f.csr = 0x100 then modSlab s (coreSlab h.core) fun b => { b with drain := low v }
      else modSlab s (coreSlab h.core) fun b => { b with wdog := low v })
/-- CSRW of SYS.CAUSE moves HEAD, at most to TAIL (R311). -/
def execCsrwSysCause (f : FmtS) (s : State) : Out :=
  onStrand (.csrwSysCause f) s fun h =>
    let want : BitVec 28 := (rdG s h f.sa).truncate 28
    retire h (modSlab s (coreSlab h.core) fun b =>
      let n := min (want - b.causeHead).toNat (b.causeTail - b.causeHead).toNat
      { b with causeHead := b.causeHead + BitVec.ofNat 28 n, fring := b.fring.drop n })
/-- CSRW of SYS.PRIO takes effect at the next refill (R144). -/
def execCsrwSysPrio (f : FmtS) (s : State) : Out :=
  onStrand (.csrwSysPrio f) s fun h => retire h (modSlab s (coreSlab h.core) fun b => { b with prio := rdG s h f.sa })
/-- CSRW of SYS.SAVE (R312): ignored when it would drop slots in use or rename an area that holds an image. -/
def execCsrwSysSave (f : FmtS) (s : State) : Out :=
  onStrand (.csrwSysSave f) s fun h =>
    let v := rdG s h f.sa
    retire h (modSlab s (coreSlab h.core) fun b =>
      let used := b.images.length
      if bitsN v 16 16 < used ∨ (v.extractLsb' 32 32 ≠ b.save.extractLsb' 32 32 ∧ used ≠ 0) then b
      else { b with save := setBits v 0 16 0 })
/-- The writable fields of SYS.FQ and SYS.FLOG (R310). -/
def ringMask (v : W64) : W64 := v &&& 0xFFFFFFFFF00001FF
def execCsrwSysFq (f : FmtS) (s : State) : Out :=
  onStrand (.csrwSysFq f) s fun h => retire h (modSlab s (coreSlab h.core) fun b => { b with fq := ringMask (rdG s h f.sa) })
/-- A ring that is named anew holds no entry yet. -/
def nameLog (b : Slab) (v : W64) : Slab := { b with flog := v, flHeld := if bitsN b.flog 28 36 = bitsN v 28 36 then b.flHeld else 0 }
/-- CSRW of SYS.FLOG: the buffered entries enter a usable ring (R310). -/
def execCsrwSysFlog (f : FmtS) (s : State) : Out :=
  onStrand (.csrwSysFlog f) s fun h =>
    retire h (flushLog (modSlab s (coreSlab h.core) fun b => nameLog b (ringMask (rdG s h f.sa))) h.t.pid (coreSlab h.core))

/-! ### TRAP, FEAT, REMAIN (R315, R316, R321) -/

/-- TRAP: the record names the TRAP; the task resumes after it. -/
def execTrap (f : FmtS) (s : State) : Out :=
  onStrand (.trap f) s fun h => takeFault (retire h s) h 22 (f.imm.zeroExtend 64) (rdG s h f.sa)
def execFeatTest (f : FmtS) (s : State) : Out :=
  onStrand (.featTest f) s fun h => retire h (wrG h f.dst (rdG s h f.sa &&& h.k.feature) s)
def execFeatReq (f : FmtS) (s : State) : Out :=
  onStrand (.featReq f) s fun h =>
    let miss := rdG s h f.sa &&& ~~~ h.k.feature
    if miss != 0 then takeFault s h 2 (wordOf (.featReq f)) miss else retire h s
def execRemain (f : FmtS) (s : State) : Out :=
  onStrand (.remain f) s fun h =>
    retire h (setRemain h (min (2 ^ 64 - 1) (((rdG s h f.sa).toNat + f.imm.toNat) * 1024)) s)

/-! ### Invalidation (R94, R301, R317, R318) -/

/-- Side-log entries of a task that are cancelled leave its side log, each logged with REASON UNMAPPED (R94, R334). -/
def cancelTask (s : State) (pid : BitVec 32) (die : DieId) (src : CoreId) (t : Task) (hit : SideEnt → Bool) : State :=
  let out := t.side.filter hit
  if out.isEmpty then s
  else
    let a1 := out.foldl (fun a e => writeLog a pid die (logEntry a die e.tag e.loc.oid t.taskId 1 2 0 src 0)) s
    modTaskId a1 pid t.taskId fun t =>
      { t with side := t.side.filter (fun e => !hit e), discarded := t.discarded ++ out,
               remote := if out.any (fun e => t.remote == .posted e.tag) then .accepted else t.remote }
/-- Side-log entries whose extent is still unmapped are cancelled (R94): discarded, and logged with REASON UNMAPPED, on the cores
and in the images of the partition (log 16). -/
def cancelSide (s : State) (pid : BitVec 32) (p : TKey → Bool) : State :=
  let hit := fun (d : DieId) (e : SideEnt) =>
    let k : TKey := ⟨e.loc.oid, e.loc.facet, e.loc.byte / 2 ^ 21⟩
    p k && !e.sent && !extV (walk s pid d k).ext
  let s1 := s.cores.foldl (fun acc x =>
    match x.2.task with
    | some t => if t.pid = pid then cancelTask acc pid x.1.die x.1 t (hit x.1.die) else acc
    | none => acc) s
  s.slabs.foldl (fun acc b => b.2.images.foldl (fun a im =>
    if im.away && im.pid == pid then im.tasks.foldl (fun a2 t => cancelTask a2 pid b.1.die ⟨b.1.die, 20 * b.1.slab⟩ t (hit b.1.die)) a
    else a) acc) s1
/-- An access that is still under way holds a translation of the partition (R77, R317 step 3). -/
def transHeld (s : State) (pid : BitVec 32) (p : TKey → Bool) : Bool :=
  anyUnacked s fun b => match bodyRes b with | some r => r.key.pid == pid && p r.tkey | none => false
/-- The shared part of OTINV (R317): release, removal, the wait for accesses under a removed translation, status 0. Freed objects
lose their schedules (R287). -/
def otinv (f : FmtS) (p : TKey → Bool) (cancel : TKey → Bool) (s : State) (h : Here) : State :=
  releaseThen s h 3 none fun s1 =>
    let s2 := dropTrans s1 h.t.pid p
    if transHeld s2 h.t.pid p then hold h .remote s2
    else
      let s3 := cancelSide s2 h.t.pid cancel
      let freed := fun (o : BitVec 32) => wState (otWord s3 h.t.pid h.core.die o.toNat 0) == 0
      let s4 := modPart s3 h.t.pid fun q => { q with scheds := q.scheds.filter fun x => !(p ⟨x.oid, 0, 0⟩ && freed x.oid) }
      retire h (wrG h f.dst 0 s4)
def freeObj (s : State) (h : Here) (k : TKey) : Bool := wState (otWord s h.t.pid h.core.die k.oid.toNat 0) == 0
def execOtinvExt (f : FmtS) (s : State) : Out :=
  onStrand (.otinvExt f) s fun h =>
    let p := fun (k : TKey) => k.oid == (rdG s h f.sa).truncate 32 && k.ext == f.imm.toNat
    otinv f p p s h
def execOtinvObj (f : FmtS) (s : State) : Out :=
  onStrand (.otinvObj f) s fun h =>
    let p := fun (k : TKey) => k.oid == (rdG s h f.sa).truncate 32
    otinv f p (fun k => p k && freeObj s h k) s h
def execOtinvAll (f : FmtS) (s : State) : Out :=
  onStrand (.otinvAll f) s fun h => otinv f (fun _ => true) (freeObj s h) s h

/-- The cycle at which steps 1 and 2 of a BTINV had ended: translations made up to then are waited for, those that its own table
commands preceded among them (R301, R318, R342; log 95). -/
def issuedAt (s : State) (h : Here) : Nat :=
  match (strandOf h.t h.x).held with
  | some ⟨.btinv, t⟩ => t
  | _ => s.ck
/-- BTINV (R318): the task's earlier table commands complete, then a release, then no request of the partition is inside a page
translated before (R301). -/
def btinv (hit : AeTrans → Bool) (s : State) (h : Here) : State :=
  let own := fun (e : Entry) => e.taskId == h.t.taskId && e.pid == h.t.pid &&
    (match e.cmd with | .kvmap _ | .kvmapLen _ | .kvunmap _ | .trunc _ => true | _ => false)
  let t0 := issuedAt s h
  if (entriesOn s (CoreId.cluster h.core)).any own then hold h .result s
  else releaseThen s h 3 none fun s1 =>
    if s1.clusters.any fun c => c.2.ae.any fun x => x.pid == h.t.pid && hit x && decide (x.since ≤ t0) then hold h .btinv s1
    else retire h s1
def execBtinvAll (f : FmtS) (s : State) : Out := onStrand (.btinvAll f) s (btinv (fun _ => true) s)
def execBtinvSeq (f : FmtS) (s : State) : Out :=
  onStrand (.btinvSeq f) s fun h => btinv (fun x => x.seq == bitsN (rdG s h f.sa) 0 24) s h

/-! ### IDLE and YIELD (R319, R320) -/

/-- IDLE: every condition that holds at the end of the wait has its bit set. -/
def execIdle (f : FmtS) (s : State) : Out :=
  onStrand (.idle f) s fun h =>
    let (chg, t0) := match (strandOf h.t h.x).held with
      | some ⟨.idle c, t⟩ => (c, t)
      | _ => (false, s.ck)
    let lim := (rdG s h f.sa).toNat
    let bits := (if h.t.evq.isEmpty then 0 else 1) + (if chg then 2 else 0) + (if lim ≠ 0 ∧ t0 + lim ≤ s.ck then 4 else 0)
    if bits = 0 then hold h (.idle false) s else retire h (wrG h f.dst (BitVec.ofNat 64 bits) s)
/-- YIELD: the crew is captured when a ready launch of no lower effective class fits only in its place. -/
def execYield (f : FmtS) (s : State) : Out :=
  onStrand (.yield f) s fun h =>
    let c := CoreId.cluster h.core
    match (clusterAt s c).crews.find? (fun cr => cr.pid == h.t.pid && cr.tids.contains h.t.taskId) with
    | none => retire h (wrG h f.dst 0 s)
    | some cr =>
      let sl := clusterSlab c
      let own := (dieClusters s h.t.pid sl.die).filter fun x => clusterSlab x == sl
      let cls := crewClass s c cr
      let wants := fun (x : Cand) =>
        decide (x.cls ≤ cls) && !own.any (fits s h.t.pid (crewInfo x.l x.crew) (hCrew x.l)) &&
        fits (withoutCrews s c fun y => y == cr) h.t.pid (crewInfo x.l x.crew) (hCrew x.l) c
      let slot := freeSlots s sl != 0
      if !cr.heard && slot && (candidates s sl).any wants then beginCapture (retire h (wrG h f.dst 1 s)) c cr 3
      else retire h (wrG h f.dst 0 s)

/-! ### CFGBANK (R80, R322) -/

def cfgbank (f : FmtS) (m : Mode) (s : State) (h : Here) : State :=
  let b := bitsN (rdG s h f.sa) 0 6
  let sem := bitsN f.imm 0 8
  let sv := f.imm.getLsbD 8
  let c := CoreId.cluster h.core
  if 47 < b then takeFault s h 10 (BitVec.ofNat 64 b)
  else if !(isSup h.t) && !(h.t.crew.scrm ||| h.t.crew.fifom).getLsbD b then takeFault s h 10 (BitVec.ofNat 64 b)
  else if sv && !semAllowed h.t sem then takeFault s h 3 (BitVec.ofNat 64 sem)
  else if (bankAt (clusterAt s c) b).transit.isSome then hold h .transit s
  else retire h (startMode s c b m (if sv then some sem else none))
def execCfgbankCache (f : FmtS) (s : State) : Out := onStrand (.cfgbankCache f) s (cfgbank f .cache s)
def execCfgbankScratch (f : FmtS) (s : State) : Out := onStrand (.cfgbankScratch f) s (cfgbank f .scratch s)
def execCfgbankFifo (f : FmtS) (s : State) : Out := onStrand (.cfgbankFifo f) s (cfgbank f .fifo s)
/-- BANK_MODE_COMPLETE (R80). -/
def execBankModeComplete (cl : ClusterId) (bank : Nat) (s : State) : Out := .next (finishMode s cl bank)

/-! ### RESUME (R324, R152, R300) -/

/-- The final status of a launch takes the first of R152's order that applies. -/
def worse (a b : Nat) : Nat :=
  match ([10, 11, 9, 8, 7] : List Nat).find? (fun x => x == a || x == b) with | some x => x | none => a
def noteStatus (s : State) (pid lseq : BitVec 32) (st : Nat) : State := modLaunch s pid lseq fun l => { l with status := worse l.status st }
/-- Halted entries of a task leave their queues; without `silent`, one that stopped with KVABSENT signals (R278, R300). -/
def discardHalted (s : State) (c : ClusterId) (pid : BitVec 32) (tid : W64) (silent : Bool) : State :=
  (queuesOf c).foldl (fun acc q =>
    let go := fun (acc : State) (e : Entry) =>
      if e.st == .halted && e.pid == pid && e.taskId == tid then
        let a1 := dropMarks acc q e.serial
        let a2 := if e.stop == 18 && !silent then signalEntry a1 e else a1
        let a3 := modTaskId a2 pid tid fun t => { t with pendReg := t.pendReg.filter fun x => x.2 != e.tag }
        let a4 := popQueue a3 q e.serial
        if q.q = .le then modSlab a4 ⟨q.die, q.unit⟩ fun b => { b with fired := b.fired.filter fun x => x.serial != e.serial } else a4
      else acc
    (firedAt acc q).foldl go ((queueAt acc q).foldl go acc)) s
/-- The faulting instruction is passed over; a record without one, and a TRAP, change nothing (R315, R324, R328). -/
def skipStrand (r : FaultRec) (t : Task) : Task :=
  let x : Strand := if r.src = 9 ∨ (r.cls = 12 ∧ t.as.ended) then .xs else .as
  if r.cls = 22 ∨ !(r.src == 8 || r.src == 9) then t
  else
    let t1 := setStrand t x { strandOf t x with pc := (strandOf t x).pc + 8 }
    match x with | .as => { t1 with remote := .idle } | .xs => t1
def clustersOfSlab (sl : SlabId) : List ClusterId := (List.range 5).map fun k => ⟨sl.die, 5 * sl.slab + k⟩
/-- The halted entries of a task whose core lies in a slab. -/
def haltedOf (s : State) (pid : BitVec 32) (sl : SlabId) (tid : W64) : List Entry :=
  ((clustersOfSlab sl).flatMap fun c => (queuesOf c).flatMap (queueAt s)).filter fun e =>
    e.st == .halted && e.pid == pid && e.taskId == tid && coreSlab e.core == sl
/-- Which task RESUME acts on: resident and suspended, in an image, or one that had ended when its entry halted (log 60). -/
inductive RTask
  | susp (c : CoreId) (t : Task) (r : FaultRec)
  | parked (sl : SlabId) (im : Image) (t : Task)
  | ended (c : ClusterId) (lseq : BitVec 32)
  deriving DecidableEq, Repr
def findTask (s : State) (pid : BitVec 32) (sl : SlabId) (tid : W64) : Option RTask :=
  match coreOfTask s pid tid with
  | some c =>
    if coreSlab c != sl then none
    else (match (coreAt s c).task with
      | some t => t.susp.map fun r => .susp c t r
      | none => none)
  | none =>
    match (slabAt s sl).images.findSome? fun im =>
        if im.away && im.held && im.pid == pid then (im.tasks.find? (·.taskId == tid)).map fun t => RTask.parked sl im t else none with
    | some r => some r
    | none => (haltedOf s pid sl tid).head?.map fun e => .ended (CoreId.cluster e.core) e.lseq
def modImage (s : State) (sl : SlabId) (im : Image) (f : Image → Image) : State :=
  modSlab s sl fun b => { b with images := b.images.map fun y => if y = im then f y else y }
/-- The counts of a task's held engine entries restart (R325). -/
def recount (s : State) (c : ClusterId) (pid : BitVec 32) (tid : W64) : State :=
  let mine := issuedBy pid [tid]
  let again := fun (l : List Entry) => l.map fun e => if mine e then { e with since := s.ck, reported := false } else e
  let s1 := (queuesOf c).foldl (fun acc q => if (queueAt acc q).any mine then setQueue acc q (again (queueAt acc q)) else acc) s
  [0, 1].foldl (fun acc u =>
    if (slabAt acc ⟨c.die, u⟩).fired.any mine then modSlab acc ⟨c.die, u⟩ fun b => { b with fired := again b.fired } else acc) s1
/-- The task goes on from where it stands; its counts restart, and what it executes happens after the release of the RESUME, so words of
its cluster's L1 that no task owns go (R84, R108, R309, R324, R325). -/
def goOn (s : State) (c : CoreId) (f : Task → Task) : State :=
  match (coreAt s c).task with
  | none => s
  | some t =>
    let cl := CoreId.cluster c
    let w : Who := { pid := t.pid, die := c.die, slab := coreSlab c, clus := cl.clus, core := none, task := t.taskId, sup := false }
    let s1 := acquireInval (recount s cl t.pid t.taskId) w 3
    modTask s1 c fun t => { f t with susp := none, remAt := s.ck, as := unheld (f t).as, xs := unheld (f t).xs }
/-- A member's fault has received .retry; the crew is eligible once every member's has (R145, R324). -/
def retryParked (s : State) (sl : SlabId) (im : Image) (tid : W64) : State :=
  let out := im.entries.filter fun e => e.taskId == tid && e.st == .halted
  let tags := out.map (·.tag)
  let clear := fun (t : Task) =>
    if t.taskId = tid then { t with susp := none, pendReg := t.pendReg.filter fun x => !tags.contains x.2 } else t
  let sems := out.foldl (fun m e => if e.stop == 18 && e.sv then upd m e.ssem 0 (· + 1) else m) im.sems
  let ts := im.tasks.map clear
  let y : Image := { im with tasks := ts, sems := sems, entries := im.entries.filter (fun e => !out.contains e),
                             held := ts.any fun t => t.susp.isSome }
  let y1 := if y.held then y else { y with resumable := some (s.serial + 1) }
  modImage { s with serial := s.serial + 1 } sl im fun _ => y1
/-- The latest record of a task or of its launch has class RESIDENCY (R152, R324). -/
def lastResid (s : State) (pid lseq : BitVec 32) (r : Option FaultRec) : Bool :=
  (match r with | some x => x.cls == 16 | none => false) ||
  (((partAt s pid).bind fun p => lkp p.launches lseq).map fun l => l.last == 16).getD false
/-- The status that a killed task gives its launch (R152, R324). -/
def killStatus (s : State) (pid lseq : BitVec 32) (r : Option FaultRec) : Nat :=
  if lastResid s pid lseq r then 11 else if r.isSome then 8 else 9
/-- The status that .abort gives the launch (R152, R324). -/
def abortStatus (s : State) (pid lseq : BitVec 32) (r : Option FaultRec) : Nat := if lastResid s pid lseq r then 11 else 9
/-- RESUME .kill of a task of a PARKED crew: the image is kept for the other members and freed with the last one; whether the crew is
eligible is not worked out anew (DESIGN CHOICE, log 104: R324 frees "the image" of a task). -/
def killParked (s : State) (sl : SlabId) (im : Image) (t : Task) : State :=
  let s1 := discardTask s t.pid t.taskId
  let keep := (im.tasks.zipIdx.filter fun x => x.1.taskId != t.taskId).map (·.2)
  let y : Image :=
    { im with tasks := im.tasks.filter (fun x => x.taskId != t.taskId), entries := im.entries.filter (fun e => e.taskId != t.taskId),
              acc := keep.map (fun i => im.acc.getD i []), wanted := keep.map (fun i => im.wanted.getD i false),
              dirtyBlk := keep.map fun i => im.dirtyBlk.getD i [] }
  let s2 := if y.tasks.isEmpty then modSlab s1 sl fun b => { b with images := b.images.filter fun z => z != im }
    else modImage s1 sl im fun _ => y
  modLaunch s2 t.pid t.crew.lseq (modStratum sl.die fun st => { st with left := st.left - 1 })
/-- .abort: every task, queued entry and undispatched crew of the launch ends on every die (R324, R327). A cluster that pre-emption has
reserved for the launch is no longer reserved (DESIGN CHOICE, log 103: R330 names only the placement that it lasts to). -/
def abortLaunch (s : State) (pid lseq : BitVec 32) (status : Nat) : State :=
  let ts := s.cores.filterMap fun x => match x.2.task with
    | some t => if t.pid = pid ∧ t.crew.lseq = lseq then some (x.1, t) else none
    | none => none
  let s0 := s.clusters.foldl (fun acc c => modCluster acc c.1 fun k =>
    { k with
      reserved := if k.reserved = some lseq ∧ holdsSlab s pid (clusterSlab c.1) then none else k.reserved
      crews := k.crews.map fun cr => if cr.pid = pid ∧ cr.info.lseq = lseq then
        { cr with unstarted := [], saved := [], cores := cr.cores.filter fun i => (coreAt s (coreOf c.1 i)).task.isSome } else cr }) s
  let s1 := ts.foldl (fun acc x => killTask (discardHalted acc (CoreId.cluster x.1) pid x.2.taskId true) x.1) s0
  let away := (s.slabs.flatMap fun sb => sb.2.images).filter fun im => im.away && im.pid == pid && im.info.lseq == lseq
  let left := ((s1.clusters.flatMap fun k => k.2.queues.flatMap (·.2)) ++ (s1.slabs.flatMap fun b => b.2.queues.flatMap (·.2) ++ b.2.armed)).filter
    fun e => e.pid == pid && e.lseq == lseq
  let s1' := left.foldl (fun acc e => discardTask (discardHalted acc (CoreId.cluster e.core) pid e.taskId true) pid e.taskId) s1
  let s2 := away.foldl (fun acc im => im.tasks.foldl (fun a t => discardTask a pid t.taskId) acc) s1'
  let s3 := dropImages s2 pid lseq
  let s4 := modLaunch s3 pid lseq fun l =>
    { l with ending := true, status := worse l.status status,
             strata := l.strata.map fun x => (x.1, { x.2 with left := 0, nextCrew := x.2.crews, restartq := [] }) }
  s4.clusters.foldl (fun acc c => reapCrews acc c.1) s4
/-- The entries of a task that stopped with KVABSENT run again as ATTNC (R300). -/
def runAgain (s : State) (cl : ClusterId) (pid : BitVec 32) (tid : W64) : State :=
  let q : QueueId := ⟨cl.die, cl.clus, .ae⟩
  setQueue s q ((queueAt s q).map fun e =>
    if e.st == .halted && e.pid == pid && e.taskId == tid && e.stop == 18 then
      { e with st := .queued, attnc := true, prog := 0, since := s.ck, stop := 0 } else e)
/-- RESUME on one task: the new state and the status (R324). -/
def resumeOne (s : State) (h : Here) (fn : Nat) (feats : W64) (tid : W64) : State × Nat :=
  let pid := h.t.pid
  let sl := coreSlab h.core
  match findTask s pid sl tid with
  | none => (s, 1)
  | some (.susp c t r) =>
    let cl := CoreId.cluster c
    let clean := fun (silent : Bool) => discardHalted s cl pid tid silent
    match fn with
    | 0 => (goOn (clean false) c id, 0)
    | 1 => (goOn (clean false) c (skipStrand r), 0)
    | 2 =>
      if r.cls ≠ 18 then (s, 2)
      else (goOn (discardHalted (runAgain s cl pid tid) cl pid tid true) c id, 0)
    | 3 => (reapCrews (noteStatus (killTask (clean true) c) pid t.crew.lseq (killStatus s pid t.crew.lseq (some r))) cl, 0)
    | 4 =>
      match (clusterAt s cl).crews.find? (fun cr => cr.pid == pid && cr.tids.contains tid) with
      | none => (s, 2)
      | some cr =>
        if freeSlots s sl = 0 then (s, 3)
        else
          let cr1 := { cr with info := { cr.info with feat := cr.info.feat ||| feats } }
          (beginCapture (modCrew s cl pid cr.info fun _ => cr1) cl cr1 4, 0)
    | _ => (abortLaunch s pid t.crew.lseq (abortStatus s pid t.crew.lseq (some r)), 0)
  | some (.parked sl im t) =>
    match fn with
    | 0 => (retryParked s sl im tid, 0)
    | 3 => (noteStatus (killParked s sl im t) pid t.crew.lseq (killStatus s pid t.crew.lseq t.susp), 0)
    | 4 => (modImage s sl im fun y => { y with info := { y.info with feat := y.info.feat ||| feats } }, 0)
    | 5 => (abortLaunch s pid t.crew.lseq (abortStatus s pid t.crew.lseq t.susp), 0)
    | _ => (s, 2)
  | some (.ended cl lseq) =>
    let clean := fun (silent : Bool) => reapCrews (discardHalted s cl pid tid silent) cl
    match fn with
    | 0 | 1 => (clean false, 0)
    | 2 => if (haltedOf s pid sl tid).any (fun e => e.stop == 18) then (reapCrews (discardHalted (runAgain s cl pid tid) cl pid tid true) cl, 0)
      else (s, 2)
    | 3 => (reapCrews (noteStatus (discardTask (discardHalted s cl pid tid true) pid tid) pid lseq (if lastResid s pid lseq none then 11 else 8)) cl, 0)
    | 4 => (s, 2)
    | _ => (abortLaunch s pid lseq (abortStatus s pid lseq none), 0)
/-- The tasks that `.launch` names: suspended by RESIDENCY, in ascending ordinal (R324). -/
def residTasks (s : State) (h : Here) (v : W64) : List W64 :=
  let hit := fun (x : CoreId × Task) =>
    x.2.pid == h.t.pid && bitsN x.2.crew.lseq 0 24 == bitsN v 23 24 && coreSlab x.1 == coreSlab h.core &&
    (match x.2.susp with | some r => r.cls == 16 | none => false)
  ((tasksOn s (v.extractLsb' 47 17)).filter hit).foldl (fun acc x => acc.takeWhile (fun y => decide (y < x.2.taskId)) ++ [x.2.taskId] ++
    acc.dropWhile fun y => decide (y < x.2.taskId)) []
/-- RESUME `.launch` on tasks in order: the state, and whether one of them was acted on. -/
def resumeEach (h : Here) (fn : Nat) (feats : W64) (ts : List W64) (s : State) : State × Bool :=
  ts.foldl (fun acc tid => let r := resumeOne acc.1 h fn feats tid; (r.1, acc.2 || r.2 == 0)) (s, false)
/-- RESUME (R324); its release comes first (R121). -/
def resume (f : FmtS) (fn : Nat) (s : State) (h : Here) : State :=
  releaseThen s h 3 none fun s1 =>
    let v := rdG s1 h f.sa
    let feats : W64 := BitVec.ofNat 64 (bitsN f.imm 0 10)
    if f.imm.getLsbD 23 then
      let ts := residTasks s1 h v
      let out := resumeEach h fn feats (if fn = 5 then ts.take 1 else ts) s1
      retire h (wrG h f.dst (if out.2 then 0 else 1) out.1)
    else
      let (s2, st) := resumeOne s1 h fn feats v
      retire h (wrG h f.dst (BitVec.ofNat 64 st) s2)
def execResumeRetry (f : FmtS) (s : State) : Out := onStrand (.resumeRetry f) s (resume f 0 s)
def execResumeSkip (f : FmtS) (s : State) : Out := onStrand (.resumeSkip f) s (resume f 1 s)
def execResumeCont (f : FmtS) (s : State) : Out := onStrand (.resumeCont f) s (resume f 2 s)
def execResumeKill (f : FmtS) (s : State) : Out := onStrand (.resumeKill f) s (resume f 3 s)
def execResumePark (f : FmtS) (s : State) : Out := onStrand (.resumePark f) s (resume f 4 s)
def execResumeAbort (f : FmtS) (s : State) : Out := onStrand (.resumeAbort f) s (resume f 5 s)

end Sys2Proof.Machine
end

