-- ==== Sys2Proof/Machine/MemEvents.lean ====
section
/-! DEFINITION. Events of the memory system: walks, held accesses, side-log replay, line fills, extent migration and its
window (R75, R90, R92, R93, R98 to R100). -/

namespace Sys2Proof.Machine

/-- A strand of a core with its task, whether or not it is its turn. -/
def hereOf (s : State) (c : CoreId) (x : Strand) : Option Here :=
  (coreAt s c).task.map fun t => { core := c, x := x, k := coreAt s c, t := t }

/-- WALK_COMPLETE (R75): the walk's result fills the shared and the first-level cache. -/
def execWalkComplete (c : CoreId) (oid : BitVec 32) (facet : DieId) (ext : Nat) (s : State) : Out :=
  .next <| match hereOf s c .as with
    | none => s
    | some h => (xlate s (whoOf h) ⟨oid, facet, ext⟩).1

/-- HELD_ACCESS_PROCEED (R92): the held access is tried again; its own checks decide whether it proceeds. -/
def execHeldAccessProceed (c : CoreId) (x : Strand) (s : State) : Out :=
  .next <| match hereOf s c x with
    | none => s
    | some h =>
      match (strandOf h.t x).held with
      | some ⟨.extent, _⟩ | some ⟨.moving, _⟩ | some ⟨.movingAt _, _⟩ | some ⟨.fetch, _⟩ | some ⟨.sidelogLoad, _⟩ => { s with cur := some { core := c, x := x } }
      | _ => s

/-- The entry leaves the side log; a restored task goes on once its log is empty, and a reduction that waits for its acceptance
has it (R93, R117). -/
def sideDone (tag : BitVec 32) (t : Task) : Task :=
  let rest := t.side.filter fun e => e.tag != tag
  { t with side := rest, replay := t.replay && !rest.isEmpty, remote := if t.remote = .posted tag then .accepted else t.remote }
/-- A refused replay is logged and reported by the task's next release of any scope (R93, R127). -/
def replayRefused (s : State) (h : Here) (e : SideEnt) (reason : Nat) : State :=
  modTask (noteRefusal s h.t.pid h.core.die h.core h.t.taskId e.loc.oid e.tag reason true) h.core (sideDone e.tag)
/-- A replay at a home on the issuing die. -/
def replayLocal (s : State) (h : Here) (r : Res) (e : SideEnt) : State :=
  let w := whoOf h
  let l := homeLine s r
  let (_, _, mask) := writeOp 0 0 (r.loc.byte % 256) e.op
  match homeRefuses s r.home r.pa with
  | some why => replayRefused s h e why
  | none =>
    match e.op with
    | .bytes _ | .cap _ =>
      if conflicts w l (mask &&& ~~~ myMask w l) false then replayRefused s h e 0
      else modTask (storeLocal s h r e.op id) h.core (sideDone e.tag)
    | .reduce .. | .release _ =>
      match homeStore s w r e.op e.ord with
      | .ok s1 _ => modTask (dropStale s1 (CoreId.cluster h.core) r.key mask) h.core (sideDone e.tag)
      | .conflict _ => replayRefused s h e 0
      | .refused why => replayRefused s h e why
/-- SIDE_LOG_REPLAY (R93): the oldest entry not yet sent replays once its extent is mapped. An entry for another die stays,
marked sent, until its home has accepted or refused it. -/
def execSideLogReplay (c : CoreId) (s : State) : Out :=
  .next <| match hereOf s c .as with
    | none => s
    | some h =>
      match h.t.side.find? fun e => !e.sent with
      | none => s
      | some e =>
        match locate s (whoOf h) e.loc with
        | (s1, none) => s1
        | (s1, some r) =>
          if r.home.die = c.die then
            if h.t.side.any (·.sent) then s1 else replayLocal s1 h r e
          else
            let f := fun (t : Task) =>
              noteSent r.home.die e.ord { t with side := t.side.map fun x => if x = e then { x with sent := true } else x }
            let s2 := sendPkt s1 c.die r.home.die e.tag (.write h.t.pid c h.t.taskId r e.op e.ord)
            modTask (l1Posted (noFill s2 (CoreId.cluster c) fun q => q.key == r.key) h r e.op) c f

/-! ### Lines at their homes (R90) -/

/-- The partition's hardware at a key's facet die, or at its first die. -/
def hwWho (s : State) (pid : BitVec 32) (facet : DieId) : Who :=
  let d := if (partDies s pid).contains facet then facet else (partDies s pid).headD 0
  { pid := pid, die := d, slab := slabOnDie s pid d, clus := 10, core := none, task := 0, sup := true }
/-- LINE_FILL (R90): a line arrives at its home, decoded. It may evict a line that no open registration holds: the one that the
event names, and one of its own set where that is full. -/
def execLineFill (key : LineKey) (victim : Option LineKey) (s : State) : Out :=
  .next <|
    let w := hwWho s key.pid key.facet
    let e := walk s key.pid w.die ⟨key.oid, key.facet, key.line / 8192⟩
    if (partAt s key.pid).isNone || (lkp s.l2 key).isSome || !extV e.ext || wState e.word0 != 1 || !e.wf then s
    else
      let r := resOf w key.oid key.facet (256 * key.line) e
      if (homeRefuses s r.home r.pa).isSome || badExt s key.pid e r then s
      else
        let s1 := match victim with
          | none => s
          | some k => match lkp s.l2 k with
            | some l => if lineClosed l then evictLine s k l else s
            | none => s
        bring s1 r

/-! ### Migration (R98 to R100) -/

/-- Physical bytes of an extent (R69). -/
def extBytes (rate : Nat) : Nat := if rate = 0 then 2 ^ 21 else 2 ^ 15 * rate
def inRange (a n x : Nat) : Bool := decide (a ≤ x ∧ x < a + n)
/-- Copy n bytes and their tags from one physical place to another. -/
def copyPhys (s : State) (src dst n : Nat) : State :=
  let cells := s.mem.filter fun x => inRange src n x.1
  let tags := s.memTags.filter fun g => inRange (src / 32) (n / 32) g
  let mem := cells.foldl (fun m x => memPut m (x.1 - src + dst) x.2) (s.mem.filter fun x => !inRange dst n x.1)
  let tg := tags.foldl (fun l g => insNat l (g - src / 32 + dst / 32)) (s.memTags.filter fun g => !inRange (dst / 32) (n / 32) g)
  let tagsOf := fun (line : Nat) => BitVec.ofNat 8 ((List.range 8).foldl (fun acc i => if tg.contains (8 * line + i) then acc + 2 ^ i else acc) 0)
  mapL2 { s with mem := mem, memTags := tg } fun k l =>
    if k.oid = 0 ∧ inRange dst n (256 * k.line) then
      { l with data := BitVec.ofNat 2048 (ofBytes (memBytes mem (256 * k.line) 256)), tags := tagsOf k.line }
    else l
/-- Resident lines of oid 0 in a range go to memory, with their tags, and stay. -/
def flushPhys (s : State) (src n : Nat) : State :=
  s.l2.foldl (fun acc kl =>
    if kl.1.oid = 0 ∧ inRange src n (256 * kl.1.line) then
      { acc with mem := memPutAll acc.mem (256 * kl.1.line) (bytesOf 256 kl.2.data.toNat)
                 memTags := setTags acc.memTags (256 * kl.1.line) kl.2.tags }
    else acc) s
/-- A pinning adds to PINS in every copy of the entry, up to 4,095 (R67, R100). -/
def addPin (s : State) (pid oid : BitVec 32) : State :=
  (partDies s pid).foldl (fun acc d =>
    let w0 := otWord acc pid d oid.toNat 0
    physWrite acc (otEntryAddr acc pid d oid.toNat) (bytesOf 8 (setBits w0 32 12 (min 4095 (bitsN w0 32 12 + 1))).toNat)) s
/-- The extent is quiet: its lines' registrations have closed, and no access under its old translation is under way. -/
def quietExt (s : State) (pid : BitVec 32) (k : TKey) : Bool :=
  !(s.l2.any fun kl => kl.1.pid == pid && kl.1.oid == k.oid && kl.1.line / 8192 == k.ext && !lineClosed kl.2) &&
  !transHeld s pid (· == k)
/-- Steps 2 to 4 of R99: write-back, copy, the entry rewritten, every translation and copied home renewed. -/
def moveExtent (s : State) (pid : BitVec 32) (k : TKey) (e : TEntry) (a : Nat) (dest : Nat) : State :=
  let mine := fun (key : LineKey) => key.pid == pid && key.oid == k.oid && key.line / 8192 == k.ext
  let size := extBytes (codingRate (wCoding e.word0))
  let pa := extPA e.ext
  let s1 := (s.l2.filter fun kl => mine kl.1).foldl (fun acc kl => evictLine acc kl.1 kl.2) s
  let s2 := copyPhys (flushPhys s1 pa size) pa dest size
  let e1 := setBits (setBits e.ext 12 52 (dest / 4096)) 5 3 (bitsN e.ext 5 3 + 1)
  let s3 := dropTrans (physWrite s2 a (bytesOf 8 e1.toNat)) pid fun x => x == k
  let home := fun (kl : LineKey × L1Line) => if mine kl.1 then (kl.1, { kl.2 with home := paSlab dest }) else kl
  { s3 with clusters := s3.clusters.map fun c => (c.1, { c.2 with l1 := c.2.l1.map home }) }
/-- EXTENT_MIGRATION (R99, R100): the 64th consecutive writer event from one other die marks the extent moving to `dest` on that
die and slab, or pins it when it has moved four times in the window. A marked extent moves once it is quiet. -/
def execExtentMigration (pid oid : BitVec 32) (ext : Nat) (dest : BitVec 64) (s : State) : Out :=
  .next <| match partAt s pid with
    | none => s
    | some p =>
      let k : TKey := ⟨oid, 0, ext⟩
      let (d, n, sl) := lkpD p.follow k (0, 0, 0)
      let e := walk s pid (p.dies.headD 0) k
      let a := extAddr s pid (p.dies.headD 0) k
      let s0 := setPart s pid { p with follow := del p.follow k }
      let marked := lkp p.moving k
      let tgt := marked.getD ⟨d, sl⟩
      let dies := wHome e.word0 = 2 ∧ ¬ wDist e.word0 ∧ wState e.word0 = 1 ∧ extV e.ext
      if (marked.isNone && decide (n < 64)) || !decide dies then s
      else if marked.isNone && bitsN e.ext 5 3 == 4 then addPin (physWrite s0 a (bytesOf 8 (setBits e.ext 8 1 1).toNat)) pid oid
      else if dest.toNat % 4096 ≠ 0 || paSlab dest.toNat ≠ tgt || !p.slabs.contains tgt then s
      else
        let s1 := setPart s0 pid { p with follow := del p.follow k, moving := ins p.moving k tgt }
        if !quietExt s1 pid k then s1
        else modPart (moveExtent s1 pid k e a dest.toNat) pid fun q => { q with moving := del q.moving k }
/-- MIGRATION_WINDOW (R98): 120,000 ck after the last, a new window starts. -/
def execMigrationWindow (pid : BitVec 32) (s : State) : Out :=
  .next (modPart s pid fun p => if p.windowAt + 120000 ≤ s.ck then { p with windowAt := p.windowAt + 120000, windowed := [] } else p)

end Sys2Proof.Machine
end

