-- ==== Sys2Proof/Machine/Fabric.lean ====
section
/-! DEFINITION. Packets at their destinations (R346 to R352): sequence and authentication, the effect of each type, refusal,
busy return and resend, demands and grants. -/

namespace Sys2Proof.Machine

/-! ### Link counters (R361) -/

/-- STATE of a link that is up and does not compress: 5 on its wrap path (R15, R361). -/
def linkState (s : State) (d : DieId) (k : Nat) : Nat :=
  if decide (k % 2 ≠ coordOf d (k / 2) % 2) && (pkgAt s (pkgOf d)).wrap.getLsbD (k / 2) then 5 else 2
/-- A link that no event has touched is up, or on its wrap path. -/
def linkAt (s : State) (d : DieId) (k : Nat) : LinkSt := lkpD (pkgAt s (pkgOf d)).links (ldie d, k) { state := linkState s d k }
def modLink (s : State) (d : DieId) (k : Nat) (f : LinkSt → LinkSt) : State :=
  modPkg s (pkgOf d) fun p => { p with links := ins p.links (ldie d, k) (f (linkAt s d k)) }

/-! ### Arrival (R348 to R350) -/

/-- The packet was sealed under the present key of its partition: its epoch and its secret, which with the pair give the link key
(R348, R372, R373); firmware traffic under the key that the two ends' sessions export. -/
def authentic (s : State) (src dst : DieId) (p : Packet) : Bool :=
  match bodyPid p.body with
  | none => p.key == 0 && (match exportOf s src dst with | some k => p.secret == k | none => false)
  | some pid => (partAt s pid).isSome && p.key == keyOf s pid && p.secret == secretOf s pid
/-- A packet of type 15, or with a nonzero zero field (R346). -/
def malformed (p : Packet) : Bool := !p.zeros || (match p.body with | .reserved => true | _ => false)
/-- The packet leaves the wire. -/
def takeOff (s : State) (src dst : DieId) (p : Packet) : State :=
  modPair s src dst fun q => { q with flight := q.flight.erase p }
/-- The destination has accepted the packet in order. -/
def accept (s : State) (src dst : DieId) (p : Packet) : State :=
  modPair (takeOff s src dst p) src dst fun q => { q with expect := q.expect + 1 }
/-- Acknowledge a packet to its sender (R349). -/
def sendAck (s : State) (src dst : DieId) (p : Packet) (task : W64) (entry : Option (QueueId × Nat)) : State :=
  launchPkt s dst src p.tag (.ack (bodyPid p.body) (some p.seq) task entry)
def acceptAck (s : State) (src dst : DieId) (p : Packet) (task : W64) (entry : Option (QueueId × Nat)) : State :=
  sendAck (accept s src dst p) src dst p task entry
/-- The destination has this sequence number already. -/
def behind (q : Pair) (n : BitVec 24) : Bool := decide (2 ^ 23 ≤ (n - q.expect).toNat)
/-- The entry that the acknowledgement of a packet answers. -/
def ackEntry (b : Body) : Option (QueueId × Nat) :=
  match b with
  | .ewrite _ _ _ q n | .flag _ _ q n | .semadd _ _ _ q n | .stream _ _ _ _ q n _ => some (q, n)
  | _ => none
/-- Malformed packets on the wire are dropped and counted (R346, R361). -/
def dropMalformed (s : State) (src dst : DieId) : State :=
  let bad := (pairAt s src dst).flight.filter malformed
  if bad.isEmpty then s
  else modLink (modPair s src dst fun q => { q with flight := q.flight.filter fun p => !malformed p }) dst (arrivalPort s src dst) fun l =>
    { l with drop := l.drop + BitVec.ofNat 32 bad.length }
/-- A packet that fails authentication is dropped and counted (R348). -/
def dropForged (s : State) (src dst : DieId) (p : Packet) : State :=
  modLink (takeOff s src dst p) dst (arrivalPort s src dst) fun l => { l with authFail := l.authFail + 1 }
/-- The dies at which a packet's route turns into another ring (R345). -/
def turnDies (src dst : DieId) : List DieId :=
  let x := setCoord src 0 (dx dst)
  let y := setCoord x 1 (dy dst)
  (if x ≠ src ∧ x ≠ dst then [x] else []) ++ (if y ≠ x ∧ y ≠ dst then [y] else [])
/-- A packet that travels under a grant, or whose space was reserved before (R351). -/
def hasRoom (b : Body) : Bool := (granted b && decide (1 < flitsOf b)) || (match b with | .rdata .. | .aresp .. => true | _ => false)
/-- The packet finds the input buffer of its type full, or the transit buffer of a router where it turns (R350). -/
def bufferFull (s : State) (src dst : DieId) (b : Body) : Bool :=
  (!hasRoom b && (dieAt s dst).full.contains (typeOf b)) || (turnDies src dst).any fun d => (dieAt s d).full.contains 16
/-- The refusal of a packet is still on its way to the packet's sender. -/
def refusalKept (s : State) (src dst : DieId) (seq : BitVec 24) : Bool :=
  (pairAt s dst src).kept.any fun k => match k.1.body with | .refuse _ n .. => n == some seq | _ => false
/-- A packet that its destination has already: acknowledged again, or answered by the refusal that is on its way (log 14). -/
def again (s : State) (src dst : DieId) (p : Packet) : State :=
  let s1 := takeOff s src dst p
  if refusalKept s src dst p.seq then s1 else sendAck s1 src dst p 0 (ackEntry p.body)
/-- The packet goes once more around its ring (R350). -/
def circulate (s : State) (src dst : DieId) (p : Packet) : State :=
  modPair (takeOff s src dst p) src dst fun q => { q with flight := q.flight ++ [{ p with circ := true }] }
/-- The first packet of a type on the wire arrives. One that fails authentication is dropped; one that was accepted before is
answered again; one out of order, or with no buffer, circulates once, then goes back busy (R348, R350). -/
def deliver (src dst : DieId) (want : Body → Bool) (f : State → Packet → State) (s0 : State) : State :=
  let s := dropMalformed s0 src dst
  match (pairAt s src dst).flight.find? fun p => want p.body with
  | none => s
  | some p =>
    if !authentic s src dst p then dropForged s src dst p
    else if p.seq ≠ (pairAt s src dst).expect ∨ bufferFull s src dst p.body then
      if p.seq ≠ (pairAt s src dst).expect ∧ behind (pairAt s src dst) p.seq then again s src dst p
      else if p.circ then
        modLink (launchPkt (takeOff s src dst p) dst src p.tag (.busy (bodyPid p.body) p.seq)) dst (arrivalPort s src dst) fun l =>
          { l with returns := l.returns + 1 }
      else circulate s src dst p
    else f s p
/-- A packet without a sequence number of its own arrives: an acknowledgement or a return. With no buffer it goes on circulating: no
BUSY could name it (R350; log 14). -/
def receive (src dst : DieId) (want : Body → Bool) (f : State → Packet → State) (s0 : State) : State :=
  let s := dropMalformed s0 src dst
  match (pairAt s src dst).flight.find? fun p => want p.body with
  | none => s
  | some p =>
    if !authentic s src dst p then dropForged s src dst p
    else if bufferFull s src dst p.body then circulate s src dst p
    else f (takeOff s src dst p) p

/-- Who acts at a home for a core of another die. -/
def remoteWho (pid : BitVec 32) (c : CoreId) (task : W64) : Who :=
  { pid := pid, die := c.die, slab := coreSlab c, clus := c.core / 4, core := none, task := task, sup := false }
/-- A refused access: the answer to its issuer, and for a store or reduction the entry in the log of the refusing die
(R115, R127, R219). -/
def refusePkt (s : State) (src dst : DieId) (p : Packet) (pid : BitVec 32) (c : CoreId) (task : W64) (loc : Where)
    (reason : Nat) (owner : W64) (posted : Bool) : State :=
  let s1 := accept s src dst p
  let s2 := if posted then writeLog s1 pid dst (logEntry s1 dst p.tag loc.oid task 1 reason 0 c 0) else s1
  launchPkt s2 dst src p.tag (.refuse (some pid) (some p.seq) task c reason owner (some loc.byte) posted none 0)
/-- Refuse a packet of an engine entry; the answer stops the entry at a byte, where it has one (R278, R306, R352). -/
def refuseEntry (s : State) (src dst : DieId) (p : Packet) (pid : BitVec 32) (reason : Nat) (owner : W64) (byte : Option Nat) (q : QueueId)
    (serial : Nat) : State :=
  launchPkt (accept s src dst p) dst src p.tag
    (.refuse (some pid) (some p.seq) 0 ⟨src, 0⟩ reason owner byte false (some (q, serial)) 0)

/-- An access of a partition meets a home only while that slab is the partition's: a packet sent again after a resize may name one that
is not (R29, R352). -/
def arrives {α : Type} (s : State) (pid : BitVec 32) (r : Res) (k : HAns α) : HAns α :=
  if holdsSlab s pid r.home then k else .refused 1
/-- The store or reduction of a task that is gone has no effect left to make (R327). -/
def deadStore (s : State) (pid : BitVec 32) (task : W64) (op : WOp) : Bool :=
  (match op with | .bytes _ | .cap _ => true | _ => false) && !(anyTask s fun t => t.pid == pid && t.taskId == task)
/-- WRITE (R126, R127, R347): the store or reduction of a strand, or the data of an engine entry, at the home that its
translation named (R77). The task may have moved to another cluster since (R113, R129). -/
def execWrite (src dst : DieId) (s : State) : Out :=
  .next <| deliver src dst (fun b => match b with | .write .. | .ewrite .. => true | _ => false) (fun s p =>
    match p.body with
    | .write pid c task r op ord =>
      if deadStore s pid task op then acceptAck s src dst p task none
      else (match arrives s pid r (homeStore s (remoteWho pid ((coreOfTask s pid task).getD c) task) r op ord) with
       | .ok s2 _ => acceptAck s2 src dst p task none
       | .conflict o => refusePkt s src dst p pid c task r.loc 0 o true
       | .refused why => refusePkt s src dst p pid c task r.loc why 0 true)
    | .ewrite pid r data q n =>
      (match entryAt s q n with
       | none => acceptAck s src dst p 0 none
       | some e =>
         if !holdsSlab s pid r.home then refuseEntry s src dst p pid 1 0 (some r.loc.byte) q n
         else match entStoreAt (entWho q e) e data.length (ofBytes data) s r with
         | .ok s2 _ => acceptAck s2 src dst p 0 (some (q, n))
         | .hold s2 => s2
         | .fault s2 f => refuseEntry s2 src dst p pid (if f.cls = 13 then 0 else f.d2.toNat) f.d1 (some r.loc.byte) q n)
    | _ => s) s

/-- READ: a load or LDV at its home, answered by RDATA (R114, R215). -/
def execRead (src dst : DieId) (s : State) : Out :=
  .next <| deliver src dst (fun b => match b with | .read .. => true | _ => false) (fun s p =>
    match p.body with
    | .read pid c task r n versioned sync =>
      let w := remoteWho pid c task
      let reply := fun (s2 : State) (d : Line) (tg : BitVec 8) (v : BitVec 48) (o : Bool) =>
        sendPkt (acceptAck s2 src dst p task none) dst src p.tag (.rdata pid c task d tg v o)
      if versioned then
        match arrives s pid r (homeVersioned s w r) with
        | .ok s2 (d, v, o) => reply s2 d 0 v o
        | .conflict o => refusePkt s src dst p pid c task r.loc 0 o false
        | .refused why => refusePkt s src dst p pid c task r.loc why 0 false
      else
        match arrives s pid r (homeLoad s w r n sync) with
        | .ok s2 (d, tg) => reply s2 d tg 0 false
        | .conflict o => refusePkt s src dst p pid c task r.loc 0 o false
        | .refused why => refusePkt s src dst p pid c task r.loc why 0 false
    | _ => s) s

/-- The features that an atomic at a home needs (R128, R172): AMOFX for fadd.bf16 and fmax, VERS for CASV. -/
def atomicFeature (fn : Nat) (ty : BitVec 4) (kind : Nat) : W64 :=
  (if fn = 33 ∨ (fn = 32 ∧ ty ≠ 1) then 2 else 0) + (if kind = 1 then 1 else 0)
/-- ATOMIC: executed at the home and answered by ARESP; a home without the form returns it unsupported (R128, R219). -/
def execAtomic (src dst : DieId) (s : State) : Out :=
  .next <| deliver src dst (fun b => match b with | .atomic .. => true | _ => false) (fun s p =>
    match p.body with
    | .atomic pid c task r fn ty b e kind ord =>
      let reply := fun (s2 : State) (v : W64) (ver : BitVec 48) (ok un : Bool) =>
        sendPkt (acceptAck s2 src dst p task none) dst src p.tag (.aresp pid c task v ver ok un)
      if atomicFeature fn ty kind &&& ~~~ dieFeature s pid dst != 0 then reply s 0 0 false true
      else match arrives s pid r (homeAtomic s (remoteWho pid c task) r fn ty b e kind ord) with
        | .ok s2 (v, ver, ok) => reply s2 v ver ok false
        | .conflict o => refusePkt s src dst p pid c task r.loc 0 o false
        | .refused why => refusePkt s src dst p pid c task r.loc why 0 false
    | _ => s) s

/-- An answer for the access that a task waits for, known by its tag. -/
def answer (s : State) (pid : BitVec 32) (task : W64) (tag : BitVec 32) (f : Res → Bool → Remote) : State :=
  modTaskId s pid task fun t => match t.remote with
    | .sent r n fill => if n = tag then { t with remote := f r fill } else t
    | _ => t
/-- RDATA: the waiting load or LDV has its line. -/
def execRdata (src dst : DieId) (s : State) : Out :=
  .next <| deliver src dst (fun b => match b with | .rdata .. => true | _ => false) (fun s p =>
    match p.body with
    | .rdata pid _ task d tg v o => acceptAck (answer s pid task p.tag fun r fill => .line r fill d tg v o) src dst p 0 none
    | _ => s) s
/-- ARESP: the waiting atomic has its old value, or was unsupported at the home. -/
def execAresp (src dst : DieId) (s : State) : Out :=
  .next <| deliver src dst (fun b => match b with | .aresp .. => true | _ => false) (fun s p =>
    match p.body with
    | .aresp pid _ task v ver ok un =>
      acceptAck (answer s pid task p.tag fun r _ => if un then .unsupported r src else .old r v ver ok) src dst p 0 none
    | _ => s) s

/-! ### Acknowledgement and refusal -/

/-- The kept packet with a sequence number, and the pair without it. -/
def unkeep (s : State) (src dst : DieId) (seq : Option (BitVec 24)) : State × Option Packet :=
  match seq with
  | none => (s, none)
  | some n =>
    (modPair s src dst fun q => { q with kept := q.kept.filter fun k => k.1.seq != n },
      ((pairAt s src dst).kept.find? fun k => k.1.seq == n).map (·.1))
/-- A replayed entry that its home has answered leaves the side log. -/
def sideAcked (tag : BitVec 32) (t : Task) : Task := if t.side.any fun x => x.sent && x.tag == tag then sideDone tag t else t
/-- A task's write to a die is answered: it counts no longer, and the replay that it came from has been (R93, R118). -/
def writeAnswered (die : DieId) (ord : Ordr) (tag : BitVec 32) (t : Task) : Task := sideAcked tag (noteAcked die ord tag t)
/-- ACK: the sender drops the packet, once; the task's store, the replayed side-log entry or the engine entry is answered (R93, R118,
R349). -/
def execAck (src dst : DieId) (s : State) : Out :=
  .next <| receive src dst (fun b => match b with | .ack .. => true | _ => false) (fun s p =>
    match p.body with
    | .ack _ seq _ entry =>
      let (s1, k) := unkeep s dst src seq
      let s2 := match k with
        | some k => (match k.body with
          | .write pid _ task _ _ ord => modTaskId s1 pid task (writeAnswered src ord k.tag)
          | _ => s1)
        | none => s1
      match entry with
      | some (q, n) => if seq.isSome && k.isNone then s1 else entryAck s2 q n
      | none => s2
    | _ => s) s
/-- An entry's packet was refused: CONFLICT with the owner, or REMOTE_REFUSED with its reason (R278). -/
def packetRefused (e : Entry) (reason : Nat) (owner : W64) (byte : Option Nat) : FInfo :=
  let oid := capOid (entCap e 0)
  if reason = 0 then { cls := 13, d0 := BitVec.ofNat 64 (byte.getD 0), d1 := owner, d2 := e.tag.zeroExtend 64, oid := oid }
  else { cls := 14, d0 := e.tag.zeroExtend 64, d1 := 1, d2 := BitVec.ofNat 64 reason, oid := oid, pos := byte.map (BitVec.ofNat 64) }
/-- The copies of a refused store's words leave the cluster's L1, whichever of its tasks owns them: their values are at the home
(R115, R127, R208). -/
def dropPosted (s : State) (c : ClusterId) (key : LineKey) (m : BitVec 64) : State :=
  mapL1 s c fun k x => if k = key then invalWords x (m &&& ~~~ (x.own.foldl (fun a o => a ||| o.dirty) 0)) else x
/-- A task's refused store: the refusal is pending, and the copy of its bytes in the L1 is dropped (R127). -/
def storeRefused (s : State) (die : DieId) (pid : BitVec 32) (c : CoreId) (task : W64) (tag : BitVec 32) (reason : Nat) (r : Res) (op : WOp)
    (ord : Ordr) : State :=
  let m := (writeOp 0 0 (r.loc.byte % 256) op).2.2
  let s1 := dropPosted (mapL1 s (CoreId.cluster c) fun k x => if k = r.key then unown x task m else x) (CoreId.cluster c) r.key m
  modTaskId s1 pid task fun t =>
    let side := t.side.any fun x => x.sent && x.tag == tag
    writeAnswered die ord tag { t with refusals := t.refusals ++ [(tag, reason + (if side then 16 else 0), r.loc.oid)] }
/-- REFUSE: final at its issuer. A load or returning atomic takes its fault when it runs again; a store or reduction is
reported at the next release; an engine entry stops, once (R115, R127, R219, R278). -/
def execRefuse (src dst : DieId) (s : State) : Out :=
  .next <| deliver src dst (fun b => match b with | .refuse .. => true | _ => false) (fun s p =>
    match p.body with
    | .refuse pid seq task _ reason owner byte _ entry _ =>
      let (s1, k) := unkeep (acceptAck s src dst p 0 none) dst src seq
      match entry, k with
      | some (q, n), _ =>
        (match entryAt s1 q n with
         | some e =>
           if e.st == .halted then entryAck s1 q n else engFault (entryAck s1 q n) q e (packetRefused e reason owner byte)
         | none => s1)
      | none, some k =>
        (match k.body with
         | .write pid c task r op ord => storeRefused s1 src pid c task k.tag reason r op ord
         | _ => answer s1 (pid.getD 0) task p.tag fun r _ => .refused r reason owner)
      | none, none => s1
    | _ => s) s

/-! ### Busy and resend (R350, R352) -/

/-- The task or entry behind a kept packet still exists, resident or saved (R352). -/
def taskExists (s : State) (b : Body) : Bool :=
  let has := fun (pid : BitVec 32) (tid : W64) => anyTask s fun t => t.pid == pid && t.taskId == tid
  match b with
  | .write pid _ t .. | .read pid _ t .. | .atomic pid _ t .. | .rdata pid _ t .. | .aresp pid _ t .. => has pid t
  | .flag _ _ q n | .semadd _ _ _ q n | .stream _ _ _ _ q n _ | .forward _ _ _ _ _ _ _ q n _ | .ewrite _ _ _ q n => (entryAt s q n).isSome
  | b => match bodyPid b with | some pid => (partAt s pid).isSome | none => true
/-- A packet may still be sent: under the key that it was sealed with, or for a task or entry that exists (R352). -/
def alive (s : State) (src dst : DieId) (p : Packet) : Bool := authentic s src dst p || taskExists s p.body
/-- Ask for the flits of the first packet that waits; one demand at a time. Packets that may no longer be sent are discarded
(R327, R351, R352). -/
def askFor (s : State) (src dst : DieId) : State :=
  match (pairAt s src dst).waiting.filter (alive s src dst) with
  | [] => modPair s src dst fun q => { q with demand := false, waiting := [] }
  | p :: r => launchPkt (modPair s src dst fun q => { q with demand := true, waiting := p :: r }) src dst 0 (.demand (bodyPid p.body) (flitsOf p.body))
/-- A kept packet as it is sent again: under the present key of its partition (R352). -/
def reseal (s : State) (src dst : DieId) (seq : BitVec 24) (k : Packet) : Packet := sealPkt s src dst seq k.tag k.body
/-- Resend, in SEQ order, every packet from `n` on. Those that the destination has already go as they are; of the others, one whose
key has changed goes under the new key while its task exists, and otherwise leaves the sequence with its task. For a demand that left,
and for the answer to one, the source asks anew. -/
def resend (s : State) (src dst : DieId) (n : BitVec 24) : State :=
  let q := pairAt s src dst
  let back := q.kept.takeWhile fun k => k.1.seq != n
  let rest := q.kept.dropWhile fun k => k.1.seq != n
  let had := (rest.filter fun k => behind q k.1.seq).map fun k => (reseal s src dst k.1.seq k.1, s.ck)
  let new := rest.filter fun k => !behind q k.1.seq
  let first := (new.map (·.1.seq)).headD q.expect
  let live := new.filter fun k => alive s src dst k.1
  let lost := (new.filter fun k => !alive s src dst k.1).map (·.1.body)
  let again : List (Packet × Nat) := live.zipIdx.map fun x => (reseal s src dst (first + BitVec.ofNat 24 x.2) x.1.1, s.ck)
  let old := rest.map (·.1.seq)
  let wire := q.flight.filter fun p => !(sequenced p.body && old.contains p.seq)
  let s1 := setPair s src dst
    { q with kept := back ++ had ++ again, flight := wire ++ had.map (·.1) ++ again.map (·.1), resendAt := none,
             next := if live.length = new.length then q.next else first + BitVec.ofNat 24 live.length }
  let s2 := if lost.any fun b => match b with | .demand .. => true | _ => false then askFor s1 src dst else s1
  if lost.any fun b => match b with | .grant .. => true | _ => false then askFor s2 dst src else s2
/-- The return of a packet: what is sent again begins with the earliest packet returned, at the time of the first return (R350). -/
def noteBusy (n : BitVec 24) (ck : Nat) (q : Pair) : Pair :=
  match q.resendAt with
  | none => { q with resendAt := some (n, ck + 256) }
  | some (m, t) => if (m - n).toNat < 2 ^ 23 then { q with resendAt := some (n, t) } else q
/-- BUSY: the sender resends after 256 ck or on its next grant. -/
def execBusy (src dst : DieId) (s : State) : Out :=
  .next <| receive src dst (fun b => match b with | .busy .. => true | _ => false) (fun s p =>
    match p.body with
    | .busy _ n =>
      modPair s dst src fun q => if q.kept.any fun k => k.1.seq == n then noteBusy n s.ck q else q
    | _ => s) s
/-- BUSY_RESEND: 256 ck after a busy return, or 65,536 ck without an acknowledgement. -/
def execBusyResend (src dst : DieId) (s : State) : Out :=
  .next <|
    let q := pairAt s src dst
    let due := match q.resendAt with | some (n, t) => if t ≤ s.ck then some n else none | none => none
    match due with
    | some n => resend s src dst n
    | none => match q.kept.find? fun k => decide (k.2 + 65536 ≤ s.ck) with
      | some k => resend s src dst k.1.seq
      | none => s

/-! ### Demands and grants (R351) -/

/-- Send waiting packets within a grant; what does not fit waits for the next one, and what may no longer be sent is discarded. -/
def drain (src dst : DieId) : List Packet → Nat → State → State × List Packet
  | [], _, s => (s, [])
  | p :: r, n, s =>
    if !alive s src dst p then drain src dst r n s
    else
    let f := if granted p.body && decide (1 < flitsOf p.body) then flitsOf p.body else 0
    if f ≤ n then drain src dst r (n - f) (launchPkt s src dst p.tag p.body) else (s, p :: r)
/-- DEMAND: the receiver answers with a grant of at most 64 flits. -/
def execDemand (src dst : DieId) (s : State) : Out :=
  .next <| deliver src dst (fun b => match b with | .demand .. => true | _ => false) (fun s p =>
    match p.body with
    | .demand pid n =>
      launchPkt (modPair (acceptAck s src dst p 0 none) src dst fun q => { q with grants := q.grants ++ [(min 64 n, s.ck)] })
        dst src 0 (.grant pid (min 64 n))
    | _ => s) s
/-- GRANT: the source sends what waits, within it; a grant that has expired is asked for again. -/
def execGrant (src dst : DieId) (s : State) : Out :=
  .next <| deliver src dst (fun b => match b with | .grant .. => true | _ => false) (fun s p =>
    let s0 := acceptAck s src dst p 0 none
    let s1 := match (pairAt s0 dst src).resendAt with | some (n, _) => resend s0 dst src n | none => s0
    let q := pairAt s1 dst src
    match q.grants.filter fun g => decide (s.ck < g.2 + 4096) with
    | [] => askFor s1 dst src
    | g :: _ =>
      let (s2, left) := drain dst src q.waiting g.1 (modPair s1 dst src fun q => { q with grants := q.grants.erase g })
      askFor (modPair s2 dst src fun q => { q with waiting := left }) dst src) s
/-- GRANT_EXPIRY: grants from `src` that `dst` has not used 4,096 ck after issue return to the pool. -/
def execGrantExpiry (src dst : DieId) (s : State) : Out :=
  .next <| if (pairAt s dst src).grants.all fun g => decide (s.ck < g.2 + 4096) then s
    else modPair s dst src fun q => { q with grants := q.grants.filter fun g => decide (s.ck < g.2 + 4096) }

/-! ### Flags, chains and streams (R288, R290, R291, R352) -/

/-- The flag or signal that closes a SEND has its effect: the entry completes with it, and the acknowledgement answers its packet alone
(R112, R122, R288; log 62). -/
def flagDone (s : State) (src dst : DieId) (p : Packet) (q : QueueId) (e : Entry) : State :=
  if e.st == .running && e.done && e.acks == 1 then acceptAck (completeEntry s q e) src dst p 0 none
  else acceptAck s src dst p 0 (some (q, e.serial))
/-- FLAG: the flag word is incremented at its home, once the data is there (R352). -/
def execFlag (src dst : DieId) (s : State) : Out :=
  .next <| deliver src dst (fun b => match b with | .flag .. => true | _ => false) (fun s p =>
    match p.body with
    | .flag pid r q n =>
      (match entryAt s q n with
       | none => acceptAck s src dst p 0 none
       | some e =>
         match arrives s pid r (flagAt s (entWho q e) r) with
         | .ok s2 _ => flagDone s2 src dst p q e
         | .conflict o => refuseEntry s src dst p pid 0 o (some r.loc.byte) q n
         | .refused why => refuseEntry s src dst p pid why 0 (some r.loc.byte) q n)
    | _ => s) s
/-- SEMADD: the semaphore of the target cluster; a cluster that is fenced, or no longer the partition's, refuses (R33, R288,
R352). -/
def execSemadd (src dst : DieId) (s : State) : Out :=
  .next <| deliver src dst (fun b => match b with | .semadd .. => true | _ => false) (fun s p =>
    match p.body with
    | .semadd pid c sem q n =>
      let cl : ClusterId := ⟨dst, c⟩
      if !reaches s src dst then refuseEntry s src dst p pid 3 0 none q n
      else if semRefuses s pid cl then refuseEntry s src dst p pid 1 0 none q n
      else
        let s1 := hearSem (addSem s cl sem 1) cl sem
        match entryAt s q n with
        | some e => flagDone s1 src dst p q e
        | none => acceptAck s1 src dst p 0 none
    | _ => s) s
/-- The object byte that a refusal names: D0 of a CONFLICT, else where the entry stopped (R306, R328). -/
def refusedByte (f : FInfo) : Nat := if f.cls = 13 then f.d0.toNat else (f.pos.getD f.d0).toNat
/-- A die of a chain refuses, or the entry stops at it: the answer goes to the issuer and names the die's place in the list, and no later
packet of the entry goes on from there (R290, R352). -/
def refuseChain (s : State) (src dst : DieId) (p : Packet) (q : QueueId) (e : Entry) (f : FInfo) (place : Nat) : State :=
  let s1 := cutChain (acceptAck s src dst p 0 none) q e.serial place
  if dst = q.die then (if e.st == .halted then entryAck s1 q e.serial else engFault (entryAck s1 q e.serial) q e f)
  else launchPkt s1 dst q.die p.tag
    (.refuse (some e.pid) none 0 ⟨q.die, 0⟩ (if f.cls = 13 then 0 else f.d2.toNat) f.d1 (some (refusedByte f)) false (some (q, e.serial))
      ((entryAt s1 q e.serial).bind (·.cut) |>.getD place))
/-- A packet of a chain that a die at this place or before it has refused (R290). -/
def chainCut (e : Entry) (place : Nat) : Bool := match e.cut with | some n => decide (n ≤ place) | none => false
/-- FORWARD: the die writes the data, signals, and sends it on; the last acknowledges to the issuer, and a refusal goes to
the issuer (R290, R352). A die that is no longer the partition's refuses (R29). -/
def execForward (src dst : DieId) (s : State) : Out :=
  .next <| deliver src dst (fun b => match b with | .forward .. => true | _ => false) (fun s p =>
    match p.body with
    | .forward _ oid byte data rest sem clus q n place =>
      (match entryAt s q n with
       | none => acceptAck s src dst p 0 none
       | some e =>
         if chainCut e place then entryAck (acceptAck s src dst p 0 none) q n
         else if !reaches s src dst then refuseChain s src dst p q e (packetRefused e 3 0 (some byte)) place
         else if !dieInPart s e.pid dst then refuseChain s src dst p q e (packetRefused e 1 0 (some byte)) place
         else match forwardAt q e oid byte data sem clus place dst rest s with
           | .ok s1 _ => acceptAck s1 src dst p 0 none
           | .hold s1 => s1
           | .fault s1 f => refuseChain s1 src dst p q e f ((entryAt s1 q n).bind (·.cut) |>.getD place))
    | _ => s) s
/-- STREAM: bytes join the stream of a cluster's port, while the cluster is the partition's and runs (R29, R35, R291). -/
def execStream (src dst : DieId) (s : State) : Out :=
  .next <| deliver src dst (fun b => match b with | .stream .. => true | _ => false) (fun s p =>
    match p.body with
    | .stream pid c port data q n byte =>
      if !reaches s src dst then refuseEntry s src dst p pid 3 0 (some byte) q n
      else if semRefuses s pid ⟨dst, c⟩ then refuseEntry s src dst p pid 1 0 (some byte) q n
      else acceptAck (streamIn s dst c port data) src dst p 0 (some (q, n))
    | _ => s) s
/-- MGMT: firmware's own packet under the die key (R363); it reaches the die's firmware, and no state of R21. -/
def execMgmt (src dst : DieId) (s : State) : Out :=
  .next <| deliver src dst (fun b => match b with | .mgmt .. => true | _ => false) (fun s p => acceptAck s src dst p 0 none) s

end Sys2Proof.Machine
end

