-- ==== Sys2Proof/Machine/PartAct.lean ====
section
/-! DEFINITION. Partition actions and resets (R27 to R35, R323, R358, R372, R373). -/

namespace Sys2Proof.Machine

/-! ### Shapes (R27, R28, R358) -/

/-- Dies of a box in die-list order: z, then y, then x (R28). -/
def boxDies (lo hi : DieId) : List DieId :=
  (List.range (dz hi + 1 - dz lo)).flatMap fun z => (List.range (dy hi + 1 - dy lo)).flatMap fun y =>
    (List.range (dx hi + 1 - dx lo)).map fun x => mkDie (dx lo + x) (dy lo + y) (dz lo + z)
/-- Slab i of a package, in the order of R361. -/
def pkgSlab (pkg : DieId) (i : Nat) : SlabId := ⟨dieOfPkg pkg (i / 2), i % 2⟩
def maskSlabs (pkg : DieId) (m : Nat) : List SlabId := ((List.range 16).filter fun i => m / 2 ^ i % 2 = 1).map (pkgSlab pkg)
structure Shape where
  shape : Nat
  lo : DieId
  hi : DieId
  slabs : List SlabId
  deriving DecidableEq, Repr
/-- The shape that a request names; none when it breaks R27. -/
def shapeOf (pkg lo hi : DieId) (mask : Nat) : Option Shape :=
  if mask ≠ 0 then
    match maskSlabs pkg mask with
    | [x] => some ⟨0, x.die, x.die, [x]⟩
    | _ => none
  else if !(dieExists lo && dieExists hi) || decide (dx hi < dx lo ∨ dy hi < dy lo ∨ dz hi < dz lo) then none
  else
    let slabs := (boxDies lo hi).flatMap fun d => [⟨d, 0⟩, ⟨d, 1⟩]
    if pkgOf lo = pkgOf hi then (if lo = hi then none else some ⟨1, lo, hi, slabs⟩)
    else if lo = pkgOf lo ∧ hi = dieOfPkg (pkgOf hi) 7 then some ⟨2, lo, hi, slabs⟩
    else none
/-- The box leaves a package along an axis whose wrap bit is set (R15). -/
def breaksWrap (s : State) (x : Shape) : Bool :=
  x.shape == 2 && ([0, 1, 2].any fun ax => decide (coordOf x.lo ax + 1 < coordOf x.hi ax) &&
    (boxDies x.lo x.hi).any fun d => (pkgAt s (pkgOf d)).wrap.getLsbD ax)
/-- Slabs of an action still in progress (R35). -/
def inAction (s : State) (sl : SlabId) : Bool :=
  s.parts.any fun p => match p.2.action with | some a => a.slabs.contains sl || a.newSlabs.contains sl || p.2.slabs.contains sl | none => false

/-! ### HOMED (R34) -/

/-- Objects of the table at die-list entry 0 that are not FREE. -/
def objectsOf (s : State) (pid : BitVec 32) : List Nat :=
  let d := (partDies s pid).headD 0
  (List.range (2 ^ bitsN (otBase s pid d) 0 5)).filter fun o => o != 0 && wState (otWord s pid d o 0) != 0
/-- Mapped extent entries of an object, found by the byte that holds V: of a DIST object every die's facet has its own table, of the
facet's size; a malformed one has no facet geometry (R68, R102). -/
def mappedExtents (s : State) (pid : BitVec 32) (o : Nat) : List W64 :=
  let at0 := otWord s pid ((partDies s pid).headD 0) o
  let whole := objBytes s (hwWho s pid 0) (BitVec.ofNat 32 o) (at0 0) (at0 2 ++ at0 1) (at0 5)
  let ok := entryOk s pid ((partDies s pid).headD 0) (at0 0) (at0 2 ++ at0 1) (at0 5) (at0 6) (at0 7)
  let n := cdiv (if wDist (at0 0) then
      (match partAt s pid with
       | some p => if ok then geomSize (facetGeom p (at0 5) (geom (at0 0) (at0 2 ++ at0 1))) else 0
       | none => 0)
    else whole) (2 ^ 21)
  if wTier (at0 0) = 2 then []
  else (if wDist (at0 0) then partDies s pid else (partDies s pid).take 1).flatMap fun d =>
    let base := bitsN (otWord s pid d o 3) 12 52 * 4096
    (s.mem.filter fun x => decide (base ≤ x.1 ∧ x.1 < base + 8 * n ∧ (x.1 - base) % 8 = 1) && x.2.getLsbD 3).map fun x =>
      BitVec.ofNat 64 (ofBytes (memBytes s.mem (x.1 - 1) 8))
/-- A leaving slab is the home of an extent, or a DIST object is LIVE. -/
def homed (s : State) (pid : BitVec 32) (leaving : List SlabId) : Bool :=
  let d := (partDies s pid).headD 0
  let s1 := flushPhys s 0 (2 ^ 64)
  (objectsOf s pid).any fun o =>
    (wDist (otWord s pid d o 0) && wState (otWord s pid d o 0) == 1) ||
    (mappedExtents s1 pid o).any fun e => leaving.contains (paSlab (extPA e))

/-! ### Resets (R30 to R32) -/

def coresOfSlab (sl : SlabId) : List CoreId := (List.range 20).map fun k => ⟨sl.die, 20 * sl.slab + k⟩
def queueInSlab (sl : SlabId) (q : QueueId) : Bool :=
  q.die == sl.die && (if isSlabQ q.q then q.unit == sl.slab else slabOfClus q.unit == sl.slab)
/-- A crew's image keeps the task (R331): it runs on no core of the slab. -/
def savedAway (s : State) (pid : BitVec 32) (task : W64) : Bool :=
  s.slabs.any fun b => b.2.images.any fun im => im.away && im.pid == pid && im.tasks.any fun t => t.taskId == task
/-- A line without the registrations of a slab's cores, those of saved tasks excepted, and without its entries' marks. Words written
back before the reset stay; versions do not change (R31). -/
def dropSlabRecs (s : State) (sl : SlabId) (key : LineKey) (l : HLine) : HLine :=
  let mine := fun (r : Rec) => r.die == sl.die && slabOfClus r.clus == sl.slab && !savedAway s key.pid r.task
  let tasks := (l.recs.filter mine).map (·.task)
  let kept := (l.pend.filter fun p => tasks.contains p.task).foldl (fun h (p : Pend) => publishWords h p.mask p.data p.tags) l
  { kept with recs := l.recs.filter (fun r => !mine r), pend := l.pend.filter (fun p => !tasks.contains p.task),
              marks := l.marks.filter fun m => !queueInSlab sl m.q }
/-- Steps 1 to 4 of R31. -/
def clearCores (s : State) (sl : SlabId) : State :=
  let s1 := mapL2 s (dropSlabRecs s sl)
  { s1 with
    cores := s1.cores.filter fun c => coreSlab c.1 != sl
    clusters := s1.clusters.filter fun c => clusterSlab c.1 != sl
    slabs := s1.slabs.map fun b => if b.1 = sl then (b.1, { b.2 with queues := [], armed := [], fired := [] }) else b }
/-- Start a supervisor where its die is live. -/
def supOn (s : State) (pid : BitVec 32) (sl : SlabId) : State := if (dieAt s sl.die).live then startSup s pid sl else s
/-- Fault-log entries of a slab about units by code and physical index: KIND 2, 3 or 4 (R334). -/
def logUnits (s : State) (sl : SlabId) (kind : Nat) (l : List (Nat × Nat)) : State :=
  l.foldl (fun acc x => writeLog acc (slabAt acc sl).pid sl.die (logEntry acc sl.die 0 0 0 kind 0 x.1 ⟨sl.die, 0⟩ x.2)) s
/-- Physical indices of fenced cores and clusters of a slab. -/
def fencedCores (s : State) (sl : SlabId) : List Nat :=
  ((coresOfSlab sl).filter fun c => (coreAt s c).fenced).map fun c => 4 * physCluster (c.core / 4) + cix c
def fencedClusters (s : State) (sl : SlabId) : List Nat :=
  ((clustersOfSlab sl).filter fun c => (clusterAt s c).fenced).map fun c => physCluster c.clus
/-- Core reset of a slab (R31): launches that had a task there end with RESET; the supervisor starts anew (log 18). -/
def coreReset (s : State) (sl : SlabId) : State :=
  let pid := (slabAt s sl).pid
  let tasks := (coresOfSlab sl).filterMap fun c => (coreAt s c).task
  let crews := (clustersOfSlab sl).flatMap fun c => (clusterAt s c).crews.map (·.info.lseq)
  let lseqs := ((tasks.map (·.crew.lseq)) ++ crews).eraseDups.filter (· != 0)
  let out := (fencedCores s sl).map (fun i => (0, i)) ++ (fencedClusters s sl).map fun i => (1, i)
  let s1 := logUnits (clearCores s sl) sl 4 out
  let s2 := lseqs.foldl (fun acc l => abortLaunch acc pid l 10) s1
  if pid = 0 then s2 else supOn s2 pid sl
/-- A slab's uncore registers after a reset (R144, R308). -/
def freshSlab (ck : Nat) (b : Slab) : Slab :=
  { pid := b.pid, otbase := b.otbase, prio := b.prio, prioNow := b.prio, fence := b.fence,
    buckets := (List.range 3).map (fun k => bitsN b.prio (20 * k + 10) 10), refillAt := ck + 1024 * 2 ^ bitsN b.prio 60 4 }
def inSlabHbm (sl : SlabId) (a : Nat) : Bool := paSlab a == sl && decide (a % 2 ^ 46 < Config.hbmBytes)
/-- The zero-fill and clearing of R32 on one slab, without its core reset. -/
def scrubSlab (s : State) (sl : SlabId) : State :=
  let half := fun (n : Nat) (i : Nat) => decide (i / n = sl.slab)
  let out := (slabAt s sl).fencedSlices.map (fun i => (2, 80 * sl.slab + i)) ++
    (slabAt s sl).fencedChans.map fun c => (3, physChannel sl c)
  let s1 := logUnits (modSlab s sl (freshSlab s.ck)) sl 4 out
  modDie { s1 with
    mem := s1.mem.filter (fun x => !inSlabHbm sl x.1)
    memTags := s1.memTags.filter (fun g => !inSlabHbm sl (32 * g))
    l2 := s1.l2.filter fun kl => kl.2.home != sl } sl.die fun d =>
    { d with barriers := d.barriers.filter (fun x => !half 32 x.1), recs := d.recs.filter (fun x => !half 32 x.1),
             streams := d.streams.filter fun x => !(slabOfClus x.1.1 == sl.slab) }

/-! ### Steps (R33) -/

/-- A packet is for a home or a cluster of the slab, or a chain of its partition writes there. -/
def forSlab (pid : BitVec 32) (sl : SlabId) (b : Body) : Bool :=
  match b with
  | .stream _ c .. | .semadd _ c .. => slabOfClus c == sl.slab
  | .forward p .. => p == pid
  | b => match bodyRes b with | some r => r.home == sl | none => false
/-- The grants of a pair go. A demand that was answered by one of them stands until that answer arrives, and the source then asks anew
(R352; DESIGN CHOICE, log 14: no rule says what a source does whose demand was discarded). -/
def dropDemands (s : State) (src dst : DieId) : State := modPair s src dst fun q => { q with grants := [] }
/-- A slab is fenced; the demands and grants for packets to its homes are discarded (R35, R352). -/
def fenceSlab (s : State) (sl : SlabId) : State :=
  let pid := (slabAt s sl).pid
  let hit := s.net.filter fun x => x.1.2 == sl.die && x.2.waiting.any fun p => forSlab pid sl p.body
  hit.foldl (fun acc x => dropDemands acc x.1.1 x.1.2) (modSlab s sl fun b => { b with fence := true })
/-- KILL: every launch of the partition ends KILLED, and packets of its tasks that the root has not accepted go (R152, R327). -/
def killAll (s : State) (pid : BitVec 32) : State :=
  match partAt s pid with
  | none => s
  | some p =>
    let s1 := setPart s pid { p with subs := p.subs.filter fun x => match x.issuer with | some e => e.lseq == 0 | none => true }
    p.launches.foldl (fun acc x => abortLaunch acc pid x.1 9) s1
/-- The object-table base that firmware gives a die's copy (R70, log 4). -/
def firmwareOtbase (d : DieId) (slabs : List SlabId) : W64 :=
  let sl : SlabId := if slabs.contains ⟨d, 0⟩ then ⟨d, 0⟩ else ⟨d, 1⟩
  BitVec.ofNat 64 (slabBase sl + Config.otAddr + Config.otLog2)
/-- PARTITION_DRAIN_DONE (R33, R35): nothing of the partition's launches is left, so the slabs are fenced; the scrub is the next step. -/
def execPartitionDrainDone (pid : BitVec 32) (s : State) : Out :=
  .next <| match partAt s pid with
    | none => s
    | some p =>
      match p.action with
      | none => s
      | some a =>
        if a.step ≠ 1 || !p.launches.isEmpty then s
        else a.slabs.foldl fenceSlab (setPart s pid { p with action := some { a with step := 2 } })
/-- A slab of no partition; that of a package that has tripped stays fenced (R375). -/
def idleSlab (s : State) (sl : SlabId) : Slab := { fence := (pkgAt s (pkgOf sl.die)).tripped }
/-- Slabs leave a partition or join it, and the supervisors of those that were scrubbed start (R33 step 4, R70, R323). A slab
of a die that its controller fenced shows PID 0 (R371), and no slab of a package that has tripped is unfenced (R375). Only an added
die's table is copied: when the first die of the list leaves, the codec counters are those of the next one's copy (DESIGN CHOICE,
log 88; R63). -/
def reassign (s : State) (pid : BitVec 32) (p : Part) (a : Action) : State :=
  let dies := if a.newShape = 0 then [a.newLo] else boxDies a.newLo a.newHi
  let d0 := p.dies.headD 0
  let free := fun (acc : State) (sl : SlabId) => modSlab acc sl fun _ => idleSlab s sl
  let base := fun (d : DieId) => if p.dies.contains d then otBase s pid d else firmwareOtbase d a.newSlabs
  let s1 := (a.slabs.filter fun sl => !a.newSlabs.contains sl).foldl free s
  let s2 := a.newSlabs.foldl (fun acc sl => modSlab acc sl fun b =>
    { b with pid := if (dieAt s sl.die).live then pid else 0, otbase := base sl.die, fence := (pkgAt s (pkgOf sl.die)).tripped }) s1
  let bytes := 64 * 2 ^ bitsN (otBase s pid d0) 0 5
  let s3 := if p.dies.isEmpty || a.act ≠ 2 then s2 else (dies.filter fun d => !p.dies.contains d).foldl (fun acc d =>
    copyPhys (flushPhys acc (otEntryAddr s pid d0 0) bytes) (otEntryAddr s pid d0 0) (bitsN (base d) 12 52 * 4096) bytes) s2
  let s4 := setPart s3 pid { p with shape := a.newShape, lo := a.newLo, hi := a.newHi, dies := dies, slabs := a.newSlabs, action := none }
  (a.newSlabs.filter fun sl => a.slabs.contains sl).foldl (fun acc sl => supOn acc pid sl) s4
/-- The answer to a request: a completion of its queue pair, or an answer of the management port (R357, R358, R360). -/
def pactDone (s : State) (qp : Option Nat) (pkg : DieId) (ctag : BitVec 32) (status : Nat) : State :=
  match qp with
  | some n => postCq s n (completion 5 status ctag 0 0 0)
  | none => modPkg s pkg fun p => { p with answers := p.answers ++ [.pact status ctag] }
/-- A destroyed partition's queue pairs and regions are free (R355, R373). -/
def freeQps (s : State) (pid : BitVec 32) : State :=
  let q := fun (x : Nat × QPair) => if x.2.pid = pid then (x.1, { x.2 with pid := 0, waiting := [] }) else x
  { s with pkgs := s.pkgs.map fun p =>
      (p.1, { p.2 with qps := p.2.qps.map q, regions := p.2.regions.filter fun r => r.pid != pid }) }
/-- SCRUB_COMPLETE (R32, R33, R372, R373): the slabs are scrubbed and the link keys drawn anew; step 4 begins. -/
def execScrubComplete (pid : BitVec 32) (secret : BitVec 384) (s : State) : Out :=
  .next <| match partAt s pid with
    | none => s
    | some p =>
      match p.action with
      | none => s
      | some a =>
        if a.step ≠ 3 then s
        else
          let s1 := a.slabs.foldl (fun acc sl => scrubSlab (clearCores acc sl) sl) s
          let p0 := { p with secret := secret, epoch := if a.act = 1 then 1 else nextEpoch p.epoch, action := some { a with step := 4 } }
          setPart s1 pid (if a.act = 4 then { p0 with scheds := [], follow := [], windowed := [], moving := [], lostTo := [] } else p0)
/-- The turn in which an action goes on: from the fence to the scrub, or step 4, in which the slabs are reassigned and unfenced and the
request is answered; a destroyed partition is gone (R33, R355, R373; log 1). -/
def partStep (s : State) (pid : BitVec 32) : State :=
  match partAt s pid with
  | none => s
  | some p =>
    match p.action with
    | none => s
    | some a =>
      if a.step = 2 then setPart s pid { p with action := some { a with step := 3 } }
      else if a.step ≠ 4 then s
      else if a.act = 5 then
        let s1 := pactDone s a.qp a.pkg a.ctag 0
        let s2 := a.slabs.foldl (fun acc sl => modSlab acc sl fun _ => idleSlab s sl) s1
        freeQps { s2 with parts := del s2.parts pid } pid
      else pactDone (reassign s pid p a) a.qp a.pkg a.ctag 0

/-! ### Requests (R34, R35, R355, R358) -/

def hAct (h : BitVec 256) : Nat := bitsN h 204 4
def hKill (h : BitVec 256) : Bool := h.getLsbD 203
def hPid (h : BitVec 256) : BitVec 32 := h.extractLsb' 171 32
def hLo (h : BitVec 256) : DieId := h.extractLsb' 154 17
def hHi (h : BitVec 256) : DieId := h.extractLsb' 137 17
def hMask (h : BitVec 256) : Nat := bitsN h 121 16
def hNqp (h : BitVec 256) : Nat := max 1 (bitsN h 115 6)
/-- Queue pairs of a package that belong to no partition. -/
def freePairs (s : State) (pkg : DieId) : List Nat :=
  (List.range 64).filter fun i => (lkpD (pkgAt s pkg).qps i {}).pid == 0
/-- The pair's partition is the one named; the management port speaks for every partition (R358, R360). -/
def mayName (s : State) (qp : Option Nat) (pid : BitVec 32) : Bool :=
  match qp with | some n => (qpAt s n).pid == pid | none => true
/-- A slab of some partition, whether or not its die is live. -/
def slabTaken (s : State) (sl : SlabId) : Bool := (slabAt s sl).pid != 0 || s.parts.any fun p => p.2.slabs.contains sl
/-- The partition of a reset: the one named or, for a management request that names a slab alone, the one that holds it (R32, R360). -/
def resetPid (s : State) (qp : Option Nat) (pkg : DieId) (h : BitVec 256) : BitVec 32 :=
  match qp, maskSlabs pkg (hMask h) with
  | none, sl :: _ =>
    if hPid h = 0 then (match s.parts.find? fun p => p.2.slabs.contains sl with | some p => p.1 | none => 0) else hPid h
  | _, _ => hPid h
/-- Begin an action: launches drain, or are killed. -/
def beginAction (s : State) (pid : BitVec 32) (p : Part) (a : Action) : State :=
  let s1 := setPart s pid { p with action := some a }
  if a.kill then killAll s1 pid else s1
/-- Create (R33, R355): the answer follows when the action ends. -/
def pactCreate (s : State) (qp : Option Nat) (pkg : DieId) (h : BitVec 256) : State :=
  let pid := hPid h
  let no := fun (st : Nat) => pactDone s qp pkg (hTag h) st
  let denied := match qp with | some n => !(qpAt s n).admin | none => false
  if denied || pid == 0 || (partAt s pid).isSome then no 7
  else match shapeOf pkg (hLo h) (hHi h) (hMask h) with
    | none => no 1
    | some x =>
      if breaksWrap s x then no 5
      else if x.slabs.any (inAction s) then no 2
      else if x.slabs.any (slabTaken s) then no 4
      else if (freePairs s pkg).length < hNqp h then no 6
      else
        let own := (freePairs s pkg).take (hNqp h)
        let s1 := modPkg s pkg fun k => { k with qps := own.foldl (fun m i => upd m i {} fun q => { q with pid := pid }) k.qps }
        let p : Part := { shape := x.shape, lo := x.lo, hi := x.hi, dies := [], slabs := [], limit := Config.launchLimit, windowAt := s.ck }
        beginAction s1 pid p { act := 1, step := 1, kill := hKill h, slabs := x.slabs, newSlabs := x.slabs, newShape := x.shape,
                               newLo := x.lo, newHi := x.hi, qp := qp, ctag := hTag h, pkg := pkg }
/-- Resize (R33, R34). -/
def pactResize (s : State) (qp : Option Nat) (pkg : DieId) (h : BitVec 256) : State :=
  let pid := hPid h
  let no := fun (st : Nat) => pactDone s qp pkg (hTag h) st
  if !mayName s qp pid then no 7
  else match partAt s pid, shapeOf pkg (hLo h) (hHi h) (hMask h) with
    | none, _ => no 7
    | _, none => no 1
    | some p, some x =>
      let leave := p.slabs.filter fun sl => !x.slabs.contains sl
      let join := x.slabs.filter fun sl => !p.slabs.contains sl
      if breaksWrap s x then no 5
      else if p.action.isSome || (p.slabs ++ x.slabs).any (inAction s) then no 2
      else if join.any (slabTaken s) then no 4
      else if homed s pid leave then no 3
      else beginAction s pid p { act := 2, step := 1, kill := hKill h, slabs := leave ++ join, newSlabs := x.slabs, newShape := x.shape,
                                 newLo := x.lo, newHi := x.hi, qp := qp, ctag := hTag h, pkg := pkg }
/-- Core reset of the named slabs, at once (R31); with no mask, of every slab of the partition. -/
def pactCoreReset (s : State) (qp : Option Nat) (pkg : DieId) (h : BitVec 256) : State :=
  let pid := resetPid s qp pkg h
  let no := fun (st : Nat) => pactDone s qp pkg (hTag h) st
  if !mayName s qp pid then no 7
  else match partAt s pid with
    | none => no 7
    | some p =>
      let l := if hMask h = 0 then p.slabs else maskSlabs pkg (hMask h)
      if l.any (inAction s) then no 2
      else if l.any fun sl => !p.slabs.contains sl then no 4
      else pactDone (l.foldl coreReset s) qp pkg (hTag h) 0
/-- Uncore reset and destroy, of every slab of the partition (R32). -/
def pactWhole (s : State) (qp : Option Nat) (pkg : DieId) (h : BitVec 256) (act : Nat) : State :=
  let pid := if act = 4 then resetPid s qp pkg h else hPid h
  let no := fun (st : Nat) => pactDone s qp pkg (hTag h) st
  if !mayName s qp pid then no 7
  else match partAt s pid with
    | none => no 7
    | some p =>
      if p.action.isSome then no 2
      else beginAction s pid p { act := act, step := 1, kill := hKill h, slabs := p.slabs, newSlabs := p.slabs, newShape := p.shape,
                                 newLo := p.lo, newHi := p.hi, qp := qp, ctag := hTag h, pkg := pkg }
def pact (s : State) (qp : Option Nat) (pkg : DieId) (h : BitVec 256) : State :=
  match hAct h with
  | 1 => pactCreate s qp pkg h
  | 2 => pactResize s qp pkg h
  | 3 => pactCoreReset s qp pkg h
  | 4 => pactWhole s qp pkg h 4
  | _ => pactWhole s qp pkg h 5

end Sys2Proof.Machine
end

