-- ==== Sys2Proof/Machine/Summary.lean ====
section
/-! DEFINITION. The summary of a RESYNC (R361, R362). -/

namespace Sys2Proof.Machine

/-- A word from fields (value, low bit, width). -/
def packF (n : Nat) (l : List (Nat × Nat × Nat)) : BitVec n := BitVec.ofNat n (l.foldl (fun a x => a + x.1 % 2 ^ x.2.2 * 2 ^ x.2.1) 0)

def pkgSlabs (pkg : DieId) : List SlabId := (List.range 16).map (pkgSlab pkg)
/-- Partitions with a slab in the package, those that a create in progress is making among them (R362). -/
def partsIn (s : State) (pkg : DieId) : List (BitVec 32 × Part) :=
  s.parts.filter fun p => (p.2.slabs ++ (match p.2.action with | some a => a.newSlabs | none => [])).any fun sl => pkgOf sl.die == pkg
/-- Launches whose root die is the given one. -/
def launchesAt (s : State) (d : DieId) : List (BitVec 32 × Launch) :=
  s.parts.flatMap fun p => if p.2.dies.head? = some d then p.2.launches.map fun l => (p.1, l.2) else []

/-! ### Identities (R369) -/

/-- The identity of a die, or with 8 of the controller; one that no turn has set is the part's own (DESIGN CHOICE, log 100: no rule
states a key or a serial). -/
def identAt (k : Pkg) (n : Nat) : Ident := lkpD k.idents n { serial := k.serial, pos := if n < 8 then Config.posOf n else 8, root := k.root }
/-- A certificate chains to a fused root and names its package's serial and its holder's position. -/
def certOk (k : Pkg) (root : BitVec 384) (n : Nat) : Bool :=
  let i := identAt k n
  i.serial == k.serial && i.root == root && i.pos == (if n < 8 then Config.posOf n else 8)
/-- A die and its controller authenticate each other (R369, R371). -/
def dieAuth (k : Pkg) (n : Nat) : Bool := certOk k k.root n && certOk k k.root 8 && !k.boot.dieFail.getLsbD n
/-- A die that has failed its controller's authentication at the last boot is fenced whole (R371). -/
def dieFenced (s : State) (d : DieId) : Bool := (pkgAt s (pkgOf d)).fwstate == 0 && !dieAuth (pkgAt s (pkgOf d)) (ldie d)

/-! ### Entries (R361) -/

def partEntry (s : State) (pkg : DieId) (pid : BitVec 32) (p : Part) : BitVec 256 :=
  let mask := ((pkgSlabs pkg).zipIdx.filter fun x => p.slabs.contains x.1).foldl (fun a x => a + 2 ^ x.2) 0
  let hq := ((pkgAt s pkg).qps.filter fun q => q.2.pid == pid).foldl (fun a q => a + 2 ^ q.1) 0
  packF 256 [(pid.toNat, 224, 32), (p.shape, 216, 8), (p.lo.toNat, 199, 17), (p.hi.toNat, 182, 17), (mask, 166, 16),
    ((match p.action with | some a => a.step | none => 0), 162, 4), (p.out, 141, 21), (p.limit, 120, 21), (hq, 0, 64)]
def slabEntry (s : State) (sl : SlabId) : BitVec 256 :=
  let b := slabAt s sl
  let bits := fun (l : List Nat) => l.foldl (fun a i => a + 2 ^ i) 0
  let fcl := bits ((List.range 5).filter fun k => (clusterAt s ⟨sl.die, 5 * sl.slab + k⟩).fenced)
  let live := (dieAt s sl.die).live || (pkgAt s (pkgOf sl.die)).tripped
  packF 256 [(if live then b.pid.toNat else 0, 224, 32), (b.causeTail.toNat, 196, 28), (b.causeHead.toNat, 168, 28),
    (b.flTail.toNat, 136, 32), (b.flLost.toNat, 104, 32), (b.lode.length, 95, 9), (b.overflow.length, 74, 21), (fcl, 69, 5),
    (bits (b.fencedChans.filter fun c => decide (c < 16)), 48, 16), (b.fencedSlices.length, 40, 8),
    (if live then (if b.pid = 0 then 2 else b.supst) else 2, 32, 8)]
/-- STATE of a launch entry: completing from its first stratum report on (DEDUCED, log 58). -/
def launchState (l : Launch) : Nat :=
  if l.ending then 3 else if l.evaluated && decide (0 < l.reported) then 2 else if l.evaluated then 1 else 0
def launchEntry (pid : BitVec 32) (l : Launch) : BitVec 256 :=
  packF 256 [(l.lseq.toNat, 224, 32), (pk l 960 32, 192, 32), (pid.toNat, 160, 32), (l.reported, 143, 17), (l.dies.length, 126, 17),
    (launchState l, 124, 2), (pkClass l, 122, 2), ((pkPcrit l).toNat, 121, 1), ((pkCevent l).toNat, 120, 1), (pk l 1344 64, 0, 64)]
def qpEntry (s : State) (pkg : DieId) (i : Nat) : BitVec 256 :=
  let q := lkpD (pkgAt s pkg).qps i {}
  packF 256 [(q.pid.toNat, 224, 32), (i, 200, 24), (q.sqHead.toNat, 184, 16), (q.sqTail.toNat, 168, 16), (q.cqTail.toNat, 152, 16),
    ((match q.waiting with | c :: _ => hOp c.hdr | [] => 0), 144, 8)]
/-- A link stays fenced beside a die that its controller has fenced; it is down beside a package that is in reset or recovering, and
trains while one boots (R361, R363, R371, R375). -/
def linkEntry (s : State) (d : DieId) (k : Nat) : BitVec 256 :=
  let l := linkAt s d k
  let off := decide (k % 2 ≠ coordOf d (k / 2) % 2)
  let k2 := dieAt s d
  let far := ringNext s d (k / 2) (k % 2 == 0)
  let either := fun (f : Pkg → Bool) => f (pkgAt s (pkgOf d)) || f (pkgAt s (pkgOf far))
  let st := if dieFenced s d || dieFenced s far then 4
    else if either fun p => p.tripped || (p.fwstate != 0 && !p.booting) then 0
    else if either (·.booting) then 1
    else if k2.fencedPorts.contains k || k2.downLinks.contains k || k2.fencedRouter || !k2.live then 4 else l.state
  packF 256 [(d.toNat, 239, 17), (k, 236, 3), (off.toNat, 235, 1), (st, 232, 3), (l.corr.toNat, 200, 32), (l.drop.toNat, 168, 32),
    (l.authFail.toNat, 136, 32), (l.returns.toNat, 104, 32)]
/-- A port begins or ends to compress: STATE 3 or the state of a link that does not (R353, R361). -/
def setCompress (s : State) (d : DieId) (k : Nat) (on : Bool) : State :=
  modLink s d k fun l => { l with state := if on then 3 else linkState s d k }

/-! ### The summary (R361, R362) -/

/-- What a die captures at one point. -/
def capDie (s : State) (d : DieId) : DieCap :=
  { slabs := [slabEntry s ⟨d, 0⟩, slabEntry s ⟨d, 1⟩], launches := (launchesAt s d).map fun l => launchEntry l.1 l.2,
    links := (List.range 6).map (linkEntry s d) }
/-- A die's entries: those that it has captured since the request, or those of the reply's point. -/
def capOf (s : State) (pkg d : DieId) : DieCap := (lkp (pkgAt s pkg).early d).getD (capDie s d)
/-- The turn in which a RESYNC's request comes, or a die captures its entries for it (log 58). -/
def capture (s : State) (pkg : DieId) (d : Option DieId) : State :=
  modPkg s pkg fun k =>
    match d with
    | none => { k with asked := some s.ck, early := [] }
    | some d => if k.asked.isSome && pkgOf d == pkg && (lkp k.early d).isNone then { k with early := ins k.early d (capDie s d) } else k
/-- The whole summary as 32-byte units, the header first; `sgen` is its number. -/
def summaryOf (s : State) (pkg : DieId) (sgen : BitVec 32) : List (BitVec 256) :=
  let k := pkgAt s pkg
  let ps := partsIn s pkg
  let caps := (List.range 8).map fun n => capOf s pkg (dieOfPkg pkg n)
  let ls := caps.flatMap (·.launches)
  let hdr : BitVec 512 := packF 512 [(k.asked.getD s.ck - k.resetAt, 448, 64), (sgen.toNat, 416, 32), (k.fwver.toNat, 384, 32),
    (k.fwstate, 380, 4), (pkg.toNat, 363, 17), (k.wrap.toNat, 360, 3), (ps.length, 352, 8), (ls.length, 336, 16), (16, 328, 8),
    (64, 320, 8), (48, 312, 8)]
  [hdr.extractLsb' 0 256, hdr.extractLsb' 256 256] ++ ps.map (fun p => partEntry s pkg p.1 p.2) ++ caps.flatMap (·.slabs) ++
    ls ++ (List.range 64).map (qpEntry s pkg) ++ caps.flatMap (·.links)

end Sys2Proof.Machine
end

