-- ==== Sys2Proof/Machine/HostCmd.lean ====
section
/-! DEFINITION. Host commands on their queue pairs and the management port's requests (R354 to R362), and acceptance at the
root (R137). -/

namespace Sys2Proof.Machine

/-! ### Well-formed headers (R356, R358) -/

def cmdOk (h : BitVec 256) : Bool :=
  bitsN h 240 8 == 0 &&
  (match hOp h with
   | 1 => bitsN h 0 208 == 0
   | 2 => bitsN h 0 121 == 0
   | 3 => bitsN h 0 64 == 0 && bitsN h 64 48 % 4096 == 0
   | 4 => bitsN h 0 176 == 0
   | 5 => bitsN h 0 115 == 0 && decide (1 ≤ hAct h ∧ hAct h ≤ 5)
   | 6 => bitsN h 0 176 == 0
   | 7 => bitsN h 0 208 == 0
   | _ => false)
def done (s : State) (n : Nat) (h : BitVec 256) (status value : Nat) : State :=
  postCq s n (completion (hOp h) status (hTag h) value 0 0)

/-! ### Host objects (R96, R356) -/

/-- Word 0 of a host object: LIVE, .z8, LINEAR, TIER HOST. -/
def hostWord0 : W64 := 0x7001200000000000
/-- Write an entry's word in every copy of the table. -/
def putOtWord (s : State) (pid oid : BitVec 32) (k : Nat) (v : W64) : State :=
  (partDies s pid).foldl (fun acc d => physWrite acc (otEntryAddr acc pid d oid.toNat + 8 * k) (bytesOf 8 v.toNat)) s
/-- The lowest oid of the upper half of the table that is FREE in every copy. -/
def freeOid (s : State) (pid : BitVec 32) : Option Nat :=
  let dies := partDies s pid
  let n := 2 ^ bitsN (otBase s pid (dies.headD 0)) 0 5
  ((List.range (n / 2)).map (· + n / 2)).find? fun o => dies.all fun d => wState (otWord s pid d o 0) == 0
/-- REGMR by the Create steps of R70. -/
def regmr (s : State) (n : Nat) (pid : BitVec 32) (h : BitVec 256) : State :=
  match freeOid s pid with
  | none => done s n h 1 0
  | some o =>
    let oid := BitVec.ofNat 32 o
    let len := bitsN h 64 48
    let s1 := (List.range 7).foldl (fun acc k => putOtWord acc pid oid (k + 1) (if k = 0 then BitVec.ofNat 64 len else 0)) s
    let s2 := dropTrans (putOtWord s1 pid oid 0 hostWord0) pid fun k => k.oid == oid
    let r : Region := { pid := pid, oid := oid, rkey := h.extractLsb' 176 32, addr := h.extractLsb' 112 64, len := len }
    done (modPkg s2 (qpPkg n) fun p => { p with regions := p.regions ++ [r] }) n h 0 o
/-- A CPY or CPYL that names the object is queued, running, or saved with its crew. -/
def copyNames (s : State) (pid oid : BitVec 32) : Bool :=
  let copy := fun (e : Entry) => e.pid == pid && e.caps.any (fun c => capOid c == oid) &&
    (match e.cmd with | .cpy _ | .cpySt _ | .cpyl _ | .cpylSt _ | .cpylOo _ => true | _ => false)
  (s.clusters.any fun c => c.2.queues.any fun q => q.2.any copy) || s.slabs.any fun b => b.2.images.any fun im => im.entries.any copy
/-- DEREGMR by the Free step of R70; of an oid that is no registered host object it completes with 0 and no effect (DESIGN CHOICE, log 106:
R356 names no status for it). -/
def deregmr (s : State) (n : Nat) (pid : BitVec 32) (h : BitVec 256) : State :=
  let oid : BitVec 32 := h.extractLsb' 176 32
  let mine := fun (r : Region) => r.pid == pid && r.oid == oid
  if !((pkgAt s (qpPkg n)).regions.any mine) then done s n h 0 0
  else
    let s1 := dropTrans (putOtWord s pid oid 0 0) pid fun k => k.oid == oid
    done (modPkg s1 (qpPkg n) fun p => { p with regions := p.regions.filter fun r => !mine r }) n h 0 0

/-! ### RESYNC (R361) -/

/-- Each RESYNC has its own SGEN; the summary goes to the host object, or to the management session. Its queue pair's entry counts the
RESYNC as acted on, so no command of its own waits there. One refused with 0xFF does not raise SGEN (DESIGN CHOICE, log 108: R361 raises
it "at each RESYNC", and a refused one writes no summary). -/
def resync (s : State) (qp : Option Nat) (pkg : DieId) (h : BitVec 256) : State :=
  let sgen := (pkgAt s pkg).sgen + 1
  let l := summaryOf (match qp with | some n => popCmd s n | none => s) pkg sgen
  let s0 := modPkg s pkg fun p => { p with asked := none, early := [] }
  let s1 := modPkg s0 pkg fun p => { p with sgen := sgen, summary := l }
  match qp with
  | none => modPkg s1 pkg fun p => { p with answers := p.answers ++ [.resync sgen] }
  | some n =>
    match (pkgAt s pkg).regions.find? fun r => r.pid == (qpAt s n).pid && r.oid == h.extractLsb' 176 32 with
    | none => done s0 n h 0xFF 0
    | some r =>
      if r.len < 65536 || r.len < 32 * l.length then done s0 n h 0xFF 0
      else
        done { s1 with hostMem := memPutAll s1.hostMem r.addr.toNat (l.flatMap fun x => bytesOf 32 x.toNat) } n h 0 l.length

/-! ### LAUNCH (R356) -/

/-- KCAP or ACAP of a host packet, tagged by the root when it passes the checks of R356. -/
def rootTag (s : State) (pid : BitVec 32) (b : BitVec 256) : CapReg :=
  let c : CapReg := { tag := true, bits := b }
  let d := (partDies s pid).headD 0
  { c with tag := bitsN b 60 4 == 0 && capOid c != 0 && wState (capObject s pid d c).word0 == 1 &&
                  decide (capBase c + capLen c ≤ objSizeOf s pid d c) }
/-- The head LAUNCH of a queue pair goes to the root once, and waits there (R35, R137, R355). -/
def hostSubmit (s : State) (n : Nat) (pid : BitVec 32) (c : HostCmd) : State :=
  modPart s pid fun p =>
    if p.subs.any fun x => x.qp == some n then p
    else { p with subs := p.subs ++ [{ packet := c.body, kcap := rootTag s pid (c.body.extractLsb' 0 256),
                                       acap := rootTag s pid (c.body.extractLsb' 256 256), qp := some n, ctag := hTag c.hdr }] }

/-! ### FRAME (R337, R340, R356) -/

def frame (s : State) (n : Nat) (pid : BitVec 32) (h : BitVec 256) : State :=
  let (s1, st) := frameAt s pid (h.extractLsb' 191 17) (bitsN h 185 6) (h.extractLsb' 153 32) (h.extractLsb' 121 32)
  done s1 n h st 0

/-! ### Queues (R355) -/

/-- An unknown OP, or a nonzero zero field: status 0xFF, and for a LAUNCH the packet's LTAG (R356, R357). -/
def malformedCmd (s : State) (n : Nat) (c : HostCmd) : State :=
  postCq s n (completion (hOp c.hdr) 0xFF (hTag c.hdr) 0 (if hOp c.hdr = 1 then c.body.extractLsb' 960 32 else 0) 0)
/-- Act on the command at the head; the flag is false while it waits. -/
def actCmd (s : State) (n : Nat) (c : HostCmd) : State × Bool :=
  let h := c.hdr
  let pid := (qpAt s n).pid
  if !cmdOk h then (malformedCmd s n c, true)
  else match hOp h with
    | 1 => (hostSubmit s n pid c, false)
    | 2 => if truncRuns s (h.extractLsb' 191 17) (bitsN h 185 6) then (s, false) else (frame s n pid h, true)
    | 3 => (regmr s n pid h, true)
    | 4 => if copyNames s pid (h.extractLsb' 176 32) then (s, false) else (deregmr s n pid h, true)
    | 5 => (pact s (some n) (qpPkg n) h, true)
    | 6 => (resync s (some n) (qpPkg n) h, true)
    | _ => (done s n h 0 0, true)
/-- Act on the commands of a queue pair in order, up to one that waits. -/
def runQueue (n : Nat) : Nat → State → State
  | 0, s => s
  | k + 1, s =>
    match (qpAt s n).waiting with
    | [] => s
    | c :: _ =>
      let (s1, acted) := actCmd s n c
      if acted then runQueue n k (popCmd s1 n) else s1
def settle (s : State) (n : Nat) : State := runQueue n ((qpAt s n).waiting.length) s
/-- The host port carries nothing while the package is not up (R363, R368, R375). -/
def portUp (s : State) (pkg : DieId) : Bool := (pkgAt s pkg).fwstate == 0 && !(pkgAt s pkg).tripped
/-- A command arrives behind those that wait (R354, R355); one that comes to a queue of 256 is dropped without an answer (DESIGN CHOICE,
log 83). -/
def takeCmd (s : State) (n : Nat) (c : HostCmd) : State :=
  let q := qpAt s n
  if !portUp s (qpPkg n) then s
  else if q.pid = 0 then nakQp s n
  else if q.error then s
  else if 256 ≤ q.waiting.length then s
  else settle (modQp s n fun q => { q with waiting := q.waiting ++ [c], sqTail := q.sqTail + 1 }) n
/-- Between two steps, the queue pairs act on commands whose wait is over (R339, R340, R355, R356). -/
def settleQueues (s : State) : State :=
  s.pkgs.foldl (fun acc p =>
    if p.2.fwstate != 0 || p.2.tripped then acc
    else p.2.qps.foldl (fun a q =>
      if q.2.waiting.isEmpty || q.2.error then a
      else settle a (64 * (dx p.1 / 2 + 24 * (dy p.1 / 2) + 576 * (dz p.1 / 2)) + q.1)) acc) s
/-- A well-formed command of one OP. -/
def hostCmd (s : State) (n op : Nat) (h : BitVec 256) (body : BitVec 2048) : State :=
  if hOp h = op && cmdOk h then takeCmd s n { hdr := h, body := body } else s

def execFrame (qp : Nat) (h : BitVec 256) (s : State) : Out := .next (hostCmd s qp 2 h 0)
def execHostLaunch (qp : Nat) (h : BitVec 256) (packet : BitVec 2048) (s : State) : Out := .next (hostCmd s qp 1 h packet)
def execRegmr (qp : Nat) (h : BitVec 256) (s : State) : Out := .next (hostCmd s qp 3 h 0)
def execDeregmr (qp : Nat) (h : BitVec 256) (s : State) : Out := .next (hostCmd s qp 4 h 0)
def execNop (qp : Nat) (h : BitVec 256) (s : State) : Out := .next (hostCmd s qp 7 h 0)
/-- UNKNOWN_OP (R356): status 0xFF, no effect; a malformed LAUNCH brings its packet behind the header. -/
def execUnknownOp (qp : Nat) (cmd : BitVec 2304) (s : State) : Out :=
  let c : HostCmd := { hdr := cmd.extractLsb' 0 256, body := cmd.extractLsb' 256 2048 }
  .next (if cmdOk c.hdr then s else takeCmd s qp c)

/-- The management port serves a request: inside a secured session, and at FWSTATE 2 none but a delivery (R360, R368). -/
def mgmtOpen (k : Pkg) : Bool := k.session && decide (k.fwstate ≠ 2)
/-- A request of the host's queue pair, or of the management port; partitions are made and changed only once the boot has ended
(R360, R363). A malformed request of the management port is dropped without an answer (DESIGN CHOICE, log 107: R360 names none). -/
def request (s : State) (qp : Option Nat) (pkg : DieId) (op : Nat) (h : BitVec 256) (act : State → State) : State :=
  match qp with
  | some n => hostCmd s n op h 0
  | none => if mgmtOpen (pkgAt s pkg) && cmdOk h && hOp h == op && (op != 5 || (pkgAt s pkg).fwstate == 0) then act s else s
def execResync (qp : Option Nat) (pkg : DieId) (h : BitVec 256) (s : State) : Out :=
  .next (request s qp pkg 6 h fun s => resync s none pkg h)
/-- The PACT events: each acts on a request of its own ACT. -/
def pactEvent (act : Nat) (qp : Option Nat) (pkg : DieId) (h : BitVec 256) (s : State) : State :=
  if hAct h = act then request s qp pkg 5 h fun s => pact s none pkg h else s
def execPactCreate (qp : Option Nat) (pkg : DieId) (h : BitVec 256) (s : State) : Out := .next (pactEvent 1 qp pkg h s)
def execPactResize (qp : Option Nat) (pkg : DieId) (h : BitVec 256) (s : State) : Out := .next (pactEvent 2 qp pkg h s)
def execPactCoreReset (qp : Option Nat) (pkg : DieId) (h : BitVec 256) (s : State) : Out := .next (pactEvent 3 qp pkg h s)
def execPactUncoreReset (qp : Option Nat) (pkg : DieId) (h : BitVec 256) (s : State) : Out := .next (pactEvent 4 qp pkg h s)
def execPactDestroy (qp : Option Nat) (pkg : DieId) (h : BitVec 256) (s : State) : Out := .next (pactEvent 5 qp pkg h s)

/-! ### Queue-pair events (R354, R358, R360) -/

/-- The event's number of a package's queue pair (log 2). -/
def qpOf (pkg : DieId) (i : Nat) : Nat := 64 * (dx pkg / 2 + 24 * (dy pkg / 2) + 576 * (dz pkg / 2)) + i % 64
/-- MARK_ADMIN: the management port marks a pair. -/
def execMarkAdmin (pkg : DieId) (qp : Nat) (s : State) : Out :=
  .next (if mgmtOpen (pkgAt s pkg) then modQp s (qpOf pkg qp) fun q => { q with admin := true } else s)
/-- INVALID_REQUEST: a NAK, and the pair's error state. -/
def execInvalidRequest (pkg : DieId) (qp : Nat) (s : State) : Out :=
  .next (if portUp s pkg then nakQp s (qpOf pkg qp) else s)
/-- CNP: the pair's rate falls, by an amount that no rule states (log 8). -/
def execCnp (pkg : DieId) (qp : Nat) (s : State) : Out :=
  .next (if portUp s pkg then modQp s (qpOf pkg qp) fun q => { q with rate := if q.rate = 0 then 0 else Config.cnpRate q.rate % q.rate } else s)
/-- SECURED_SESSION_OPEN: only with a certificate of the installed chain (R360). -/
def execSecuredSessionOpen (pkg : DieId) (cert : BitVec 384) (s : State) : Out :=
  .next (if Config.certChains cert then modPkg s pkg fun p => { p with session := true } else s)

/-! ### Acceptance at the root (R35, R137) -/

/-- LAUNCH_ACCEPT: the root acts on the first packet that can be acted on. A host packet waits while there is no room or an
action is in progress; a LAUNCH without room receives QFULL. -/
def execLaunchAccept (pid : BitVec 32) (s : State) : Out :=
  .next <| match partAt s pid with
    | none => s
    | some p =>
      let open1 := match p.action with | some a => a.step = 1 && !a.kill | none => true
      let can := fun (x : Sub) => match x.issuer with
        | some e => waitMet s e && open1
        | none => subRoom p x && p.action.isNone
      match p.subs.find? can with
      | none => s
      | some x =>
        let p1 := { p with subs := p.subs.erase x }
        let ltag : BitVec 32 := x.packet.extractLsb' 960 32
        if !subRoom p x then returnStatus (setPart s pid p1) pid x.qp x.ctag x.issuer 6 0 ltag
        else
          let lseq := nextLseq p (p.launches.length + 2) p.next
          let l : Launch := { lseq := lseq, packet := x.packet, kcap := x.kcap, acap := x.acap, qp := x.qp, ctag := x.ctag,
                              issuer := x.issuer, dies := eligible s p x.packet }
          let s1 := setPart s pid { p1 with out := p.out + 1, next := lseq + 1, launches := p.launches ++ [(lseq, l)] }
          match x.qp with | some n => settle (popCmd s1 n) n | none => s1

end Sys2Proof.Machine
end

