-- ==== Sys2Proof/Machine/Boot.lean ====
section
/-! DEFINITION. Boot, firmware, hardware errors, power and cooling (R333, R363 to R376). -/

namespace Sys2Proof.Machine

/-! ### The firmware image (R364, R365) -/

def fwSvn (i : FwImage) : Nat := bitsN i.header 576 32
/-- Every condition of R365 but the SVN floor's and the fuses'. -/
def imageSound (i : FwImage) : Bool :=
  let msg := bytesOf 128 i.header.toNat ++ bytesOf 512 i.keyBlock.toNat
  let len := bitsN i.header 544 32
  bitsN i.header 512 32 == 0x4B520049 && bitsN i.header 0 512 == 0 && decide (len % 4096 = 0 ∧ len ≤ 0x04000000) &&
  i.body.length == len && i.rsaSig.length == 384 && i.slhSig.length == 16224 && bitsN i.keyBlock 3488 608 == 0 && bitsN i.keyBlock 3072 32 == 0x01000100 &&
  Config.sha384 i.body == i.header.extractLsb' 640 384 &&
  Config.rsaVerify (i.keyBlock.extractLsb' 0 3104) msg i.rsaSig && Config.slhVerify (i.keyBlock.extractLsb' 3104 384) msg i.slhSig
def imageOk (k : Pkg) (i : FwImage) : Bool :=
  imageSound i && Config.sha384 (bytesOf 388 (bitsN i.keyBlock 0 3104)) == k.rsaHash &&
  Config.sha384 (bytesOf 48 (bitsN i.keyBlock 3104 384)) == k.slhHash && decide (k.svnFloor ≤ fwSvn i)
/-- A flash copy passes; the shipped image has SVN 0 (log 4). -/
def copyOk (k : Pkg) (c : FwCopy) : Bool :=
  match c with
  | .empty => false
  | .shipped => k.svnFloor == 0
  | .image i => imageOk k i
/-- The running image's version, digest and SVN (R361, R366, R369). -/
def runCopy (c : FwCopy) (k : Pkg) : Pkg :=
  match c with
  | .image i => { k with fwver := i.header.extractLsb' 608 32, digest := i.header.extractLsb' 640 384, svn := i.header.extractLsb' 576 32 }
  | _ => { k with fwver := 0, digest := 0, svn := 0 }
def swapCopies (k : Pkg) : Pkg := { k with active := k.staging, staging := k.active, selector := !k.selector }

/-! ### Package reset (R30, R363, R368, R371) -/

def pkgDies (pkg : DieId) : List DieId := (List.range 8).map (dieOfPkg pkg)
/-- A die's units stop: tasks, clusters, queued entries, resident lines and its links' packets are gone; no supervisor runs. -/
def stopDie (s : State) (d : DieId) : State :=
  let halt := fun (x : SlabId × Slab) =>
    if x.1.die = d then (x.1, { x.2 with queues := [], armed := [], fired := [], supst := 2 }) else x
  { s with
    cores := s.cores.filter (fun c => c.1.die != d), clusters := s.clusters.filter (fun c => c.1.die != d)
    slabs := s.slabs.map halt
    net := s.net.filter fun p => p.1.1 != d && p.1.2 != d
    l2 := s.l2.filter fun kl => kl.2.home.die != d }
/-- A die after its reset: every unit as R363 leaves it, memory zero-filled. -/
def resetDie (s : State) (d : DieId) : State :=
  let s1 := stopDie s d
  { s1 with
    slabs := s1.slabs.filter (fun b => b.1.die != d), dies := s1.dies.filter (fun x => x.1 != d)
    mem := s1.mem.filter (fun x => !(inSlabHbm ⟨d, 0⟩ x.1 || inSlabHbm ⟨d, 1⟩ x.1))
    memTags := s1.memTags.filter fun g => !(inSlabHbm ⟨d, 0⟩ (32 * g) || inSlabHbm ⟨d, 1⟩ (32 * g)) }
/-- A partition with a slab in the package is gone (R363; log 19). -/
def dropPart (s : State) (pid : BitVec 32) : State :=
  let s1 := (partSlabs s pid).foldl (fun acc sl => modSlab (clearCores acc sl) sl fun _ => idleSlab s sl) s
  freeQps { s1 with parts := del s1.parts pid } pid
/-- The live bit of a die (R137, R371). -/
def setLive (s : State) (on : Bool) (d : DieId) : State :=
  if (dieAt s d).live = on then s else modDie s d fun k => { k with live := on }

/-! ### Links (R369 to R371) -/

/-- Both ends of a session report the same running image. -/
def sameImage (a b : Pkg) : Bool := a.digest == b.digest && a.fwver == b.fwver
/-- The link of a die in a logical direction does not come up: a die at one end is not live, the mutual authentication fails, a chain does
not reach the other's fused root, or the measurements differ (R369, R370). -/
def linkFails (s : State) (d : DieId) (k : Nat) : Bool :=
  let n := ringNext s d (k / 2) (k % 2 == 0)
  let a := pkgAt s (pkgOf d)
  let b := pkgAt s (pkgOf n)
  !(dieAt s d).live || !(dieAt s n).live || a.boot.linkFail.getLsbD (6 * ldie d + k) || b.boot.linkFail.getLsbD (6 * ldie n + (k ^^^ 1)) ||
  !certOk a b.root (ldie d) || !certOk b a.root (ldie n) || !sameImage a b
def settleLink (s : State) (d : DieId) (k : Nat) : State :=
  if linkFails s d k = (dieAt s d).downLinks.contains k then s
  else modDie s d fun x =>
    { x with downLinks := if x.downLinks.contains k then x.downLinks.filter (· != k) else x.downLinks ++ [k] }
/-- Every link of a package, at both ends. -/
def relink (s : State) (pkg : DieId) : State :=
  (List.range 48).foldl (fun acc i =>
    let d := dieOfPkg pkg (i / 6)
    let k := i % 6
    settleLink (settleLink acc d k) (ringNext acc d (k / 2) (k % 2 == 0)) (k ^^^ 1)) s

/-- The links that lead from one package to another. -/
def linksTo (s : State) (a b : DieId) : List (DieId × Nat) :=
  (List.range 48).filterMap fun i =>
    let d := dieOfPkg a (i / 6)
    if pkgOf (ringNext s d (i % 6 / 2) (i % 2 == 0)) == b then some (d, i % 6) else none
/-- The controllers of two neighbouring packages hold a session through dies that face each other (R369). -/
def pmcSession (s : State) (a b : DieId) : Bool :=
  let x := pkgAt s a
  let y := pkgAt s b
  certOk x y.root 8 && certOk y x.root 8 &&
  (linksTo s a b).any fun l =>
    !(dieAt s l.1).downLinks.contains l.2 && !x.boot.pmcFail.getLsbD l.2 && !y.boot.pmcFail.getLsbD (l.2 ^^^ 1)

/-- Steps 5 to 7 of R363: the dies that fail the controller's authentication are fenced whole, the links come up or stay down, the
expanders are enumerated, the links' sessions export the key of firmware traffic (log 97). -/
def finishBoot (s : State) (pkg : DieId) : State :=
  let k := pkgAt s pkg
  let up : Pkg := { k with fwstate := 0, booting := false, cxlOff := k.boot.cxlFail, exported := Config.entropy s.free }
  let s1 := setPkg { s with free := s.free + 1 } pkg up
  relink ((List.range 8).foldl (fun acc i => setLive acc (dieAuth k i) (dieOfPkg pkg i)) s1) pkg
/-- Steps 2 to 7 under the ACTIVE copy; a boot whose links train until a later turn stands at step 4 till then, and its dies serve no one
(R363; log 97). -/
def bootDies (s : State) (pkg : DieId) : State :=
  let k := pkgAt s pkg
  let up := runCopy k.active k
  if k.boot.pause then
    relink ((pkgDies pkg).foldl (fun acc d => setLive acc false d) (setPkg s pkg { up with fwstate := 1, booting := true })) pkg
  else finishBoot (setPkg s pkg up) pkg
/-- PACKAGE_RESET up to step 1 of R363: the boot goes on from a sound ACTIVE copy; else the package is recovering, its dies held in
reset, and its next turn verifies the other copy (R368). -/
def packageReset (s : State) (pkg : DieId) (b : BootIn) : State :=
  let k := pkgAt s pkg
  let old := (s.parts.filter fun p => p.2.slabs.any fun sl => pkgOf sl.die == pkg).map (·.1)
  let s1 := (pkgDies pkg).foldl resetDie (old.foldl dropPart s)
  let pairs := k.qps.map fun q => (q.1, { admin := q.2.admin : QPair })
  let k1 : Pkg := { k with
    wrap := b.wrap, qps := pairs, regions := [], links := [], sgen := 0, summary := [], session := false, answers := [], drawn := 0,
    mhz := 1200, ownMhz := 1200, others := [], celsius := 0, tripped := false, frecs := [], resetAt := s.ck, transfer := none, booting := false, asked := none,
    early := [], boot := b }
  if copyOk k k.active then bootDies (setPkg s1 pkg k1) pkg
  else relink ((pkgDies pkg).foldl (fun acc d => setLive acc false d) (setPkg s1 pkg { k1 with fwstate := 1 })) pkg
/-- The turn in which a boot goes on: the links of a package have trained; or a recovering package verifies the copy that was STAGING,
and boots from it or waits for redelivery (R363, R368). -/
def recover (s : State) (pkg : DieId) : State :=
  let k := pkgAt s pkg
  if k.fwstate ≠ 1 then s
  else if k.booting then finishBoot s pkg
  else if copyOk k k.staging then bootDies (setPkg s pkg (swapCopies k)) pkg
  else setPkg s pkg { k with fwstate := 2 }
/-- PACKAGE_RESET (R363, R368 to R371) with the wrap bits of training and the dies that fail the controller; the links and the
expanders fail as the last `setTraining` says (log 97). -/
def execPackageReset (pkg : DieId) (wrap : BitVec 3) (dieFail : BitVec 8) (s : State) : Out :=
  .next (packageReset s pkg { (pkgAt s pkg).boot with wrap := wrap, dieFail := dieFail })
/-- What a package will meet at its next boot beside the wrap bits and its dies' authentication (R359, R369, R370; log 97). -/
def setTraining (s : State) (pkg : DieId) (linkFail : BitVec 48) (cxlFail : BitVec 2) (pmcFail : BitVec 6) (pause : Bool) : State :=
  let b := (pkgAt s pkg).boot
  setPkg s pkg { pkgAt s pkg with boot := { b with linkFail := linkFail, cxlFail := cxlFail, pmcFail := pmcFail, pause := pause } }

/-! ### Deliveries (R365 to R368) -/

/-- The port answers a second delivery BUSY. -/
def answerBusy (k : Pkg) : Pkg := { k with answers := k.answers ++ [.busy] }
/-- The transfer of a delivery begins: STAGING is being written. -/
def beginTransfer (s : State) (pkg : DieId) (img : FwImage) : State :=
  let k := pkgAt s pkg
  if !k.session then s
  else if k.transfer.isSome then setPkg s pkg (answerBusy k)
  else setPkg s pkg { k with transfer := some img, staging := .empty }
/-- FIRMWARE_DELIVERY (R365, R367, R368): STAGING is written and verified; a sound image is committed by the selector. A package
that recovers, or waits for redelivery, then resets itself. While the transfer of another image is in progress the delivery is refused. -/
def execFirmwareDelivery (pkg : DieId) (img : FwImage) (s : State) : Out :=
  .next <|
    let k := pkgAt s pkg
    if !k.session then s
    else if k.transfer.isSome && k.transfer != some img then setPkg s pkg (answerBusy k)
    else
      let k1 := { k with staging := .image img, transfer := none }
      if !imageOk k img then setPkg s pkg k1
      else
        let s1 := setPkg s pkg (swapCopies k1)
        if k.fwstate ≠ 0 ∧ ¬ k.booting then packageReset s1 pkg k.boot else s1
/-- SVN_FLOOR_RAISE (R366). -/
def execSvnFloorRaise (pkg : DieId) (svn : BitVec 32) (s : State) : Out :=
  .next <|
    let k := pkgAt s pkg
    if mgmtOpen k && svn == k.svn && decide (k.svnFloor < svn.toNat ∧ svn.toNat ≤ 63) then
      setPkg s pkg { k with svnFloor := svn.toNat } else s

/-! ### Hardware errors (R333, R334) -/

/-- The logical cluster at a physical index (R24). -/
def logicalCluster (p : Nat) : Option Nat := (List.range 10).find? fun j => physCluster j == p
/-- A task killed by a fence: a HWERROR record with SUSP = 0, its launch FAULTED (R152, R333). The supervisor's record goes to the
package management controller, which restarts it (R323). -/
def hwKill (s : State) (c : CoreId) (unit index : Nat) : State :=
  match (coreAt s c).task with
  | none => s
  | some t =>
    let s1 := killTask s c
    let r : FaultRec :=
      { cls := 21, src := 12, susp := false, clus := c.core / 4, cix := cix c, taskId := t.taskId, ltag := t.crew.ltag,
        lseq := t.crew.lseq, d0 := BitVec.ofNat 64 unit, d1 := BitVec.ofNat 64 index }
    if isSup t then
      modSlab (modPkg s1 (pkgOf c.die) fun p => { p with frecs := p.frecs ++ [r] }) (coreSlab c) fun b => { b with supst := 1 }
    else postRec (noteStatus s1 t.pid t.crew.lseq 8) (coreSlab c) r
/-- Placed crews whose tasks have not started go back to their strata: those that a fenced core was to serve, or all of a fenced
cluster (DEDUCED, log 98: no task of theirs runs, so R327 kills none). -/
def requeueUnstarted (s : State) (c : ClusterId) (hit : CrewRes → Bool) : State :=
  ((clusterAt s c).crews.filter fun cr => !cr.unstarted.isEmpty && hit cr).foldl (fun acc cr => killCrew acc c cr) s
/-- The cluster's SRAM, semaphores and queues are lost. -/
def loseCluster (s : State) (c : ClusterId) : State :=
  let s1 := mapL2 s fun _ l =>
    { l with marks := l.marks.filter fun m => !(m.q.die == c.die && !isSlabQ m.q.q && m.q.unit == c.clus) }
  setCluster s1 c { fenced := true }
def noteFence (s : State) (sl : SlabId) (unit index : Nat) : State := logUnits (logUnits s sl 2 [(unit, index)]) sl 3 [(unit, index)]
/-- The co-resident strata that a cluster's fence leaves unable ever to fit its die are reported (R151). -/
def raiseFenced (s : State) (c : ClusterId) : State :=
  let pid := (slabAt s (clusterSlab c)).pid
  match partAt s pid with
  | none => s
  | some p => p.launches.foldl (fun acc x => raiseCoresid acc pid c.die x.2) s
/-- UNCORRECTABLE_ERROR: the unit is fenced; only its slab's partition is told. Link ports and routers belong to no partition,
so their entries go to the controller's log. -/
def execUncorrectableError (die : DieId) (unit index : Nat) (s : State) : Out :=
  .next <|
    let shared := fun (s : State) => modPkg s (pkgOf die) fun p =>
      { p with log := p.log ++ [logEntry s die 0 0 0 2 0 unit ⟨die, 0⟩ index, logEntry s die 0 0 0 3 0 unit ⟨die, 0⟩ index] }
    match unit with
    | 0 => (match logicalCluster (index / 4) with
      | some j =>
        let c : CoreId := ⟨die, 4 * j + index % 4⟩
        let s1 := requeueUnstarted (modCore s c fun k => { k with fenced := true }) (CoreId.cluster c) fun cr => cr.cores.contains (cix c)
        noteFence (hwKill s1 c 0 index) (coreSlab c) 0 index
      | none => s)
    | 1 => (match logicalCluster index with
      | some j =>
        let c : ClusterId := ⟨die, j⟩
        let s1 := modCluster (requeueUnstarted s c fun _ => true) c fun k => { k with fenced := true }
        let s2 := (List.range 4).foldl (fun acc i => hwKill acc (coreOf c i) 1 index) s1
        noteFence (raiseFenced (loseCluster s2 c) c) (clusterSlab c) 1 index
      | none => s)
    | 2 =>
      if 160 ≤ index then s
      else
        let sl : SlabId := ⟨die, index / 80⟩
        let i := index % 80
        let s1 := modSlab s sl fun b => { b with fencedSlices := if b.fencedSlices.contains i then b.fencedSlices else b.fencedSlices ++ [i] }
        noteFence { s1 with l2 := s1.l2.filter fun kl => !(kl.2.home == sl && l2Slice kl.2.pa == i) } sl 2 index
    | 3 =>
      let add := fun (c : Nat) (b : Slab) => { b with fencedChans := if b.fencedChans.contains c then b.fencedChans else b.fencedChans ++ [c] }
      if 32 < index then s
      else if index = 32 then if !hasExpander s die then s else noteFence (modSlab (modSlab s ⟨die, 0⟩ (add 16)) ⟨die, 1⟩ (add 16)) ⟨die, 0⟩ 3 32
      else
        let sl : SlabId := ⟨die, index / 16⟩
        let c := index % 16 ^^^ chxOf (Config.posOf (ldie die))
        let s1 := modSlab s sl (add c)
        noteFence { s1 with l2 := s1.l2.filter fun kl => !(kl.2.home == sl && channelOf kl.2.pa == c) } sl 3 index
    | 4 => (match (portsOf (Config.posOf (ldie die))).findIdx? (· == index) with
      | some k => shared (modDie s die fun d => { d with fencedPorts := if d.fencedPorts.contains k then d.fencedPorts else d.fencedPorts ++ [k] })
      | none => s)
    | 5 => shared (modDie s die fun d => { d with fencedRouter := true })
    | _ => s
/-- CORRECTED_ERROR: counted in its unit, and for a link in CORR; nothing is posted. -/
def execCorrectedError (die : DieId) (unit index : Nat) (s : State) : Out :=
  .next <|
    let s1 := modDie s die fun d => { d with corrected := upd d.corrected (unit, index) 0 (· + 1) }
    if unit = 4 then
      match (portsOf (Config.posOf (ldie die))).findIdx? (· == index) with
      | some k => modLink s1 die k fun l => { l with corr := l.corr + 1 }
      | none => s1
    else s1

/-! ### Power, clock and cooling (R374 to R376) -/

/-- Two packages hold slabs of one partition. -/
def sharePart (s : State) (a b : DieId) : Bool :=
  let has := fun (p : Part) (k : DieId) => p.slabs.any fun sl => pkgOf sl.die == k
  a != b && s.parts.any fun p => has p.2 a && has p.2 b
/-- The package runs the lowest clock that it or a package it shares a partition with needs; a report counts while they share one. -/
def settleClock (s : State) (pkg : DieId) (k : Pkg) : Pkg :=
  let others := k.others.filter fun x => sharePart s pkg x.1
  { k with others := others, mhz := others.foldl (fun a x => min a x.2) k.ownMhz }
def slower (s : State) (pkg : DieId) (k : Pkg) : Pkg := settleClock s pkg { k with ownMhz := max 600 (k.ownMhz - 50) }
/-- POWER_CAP: an operator's cap from 2,000 W to 4,600 W. -/
def execPowerCap (pkg : DieId) (watts : Nat) (s : State) : Out :=
  .next (if mgmtOpen (pkgAt s pkg) && decide (2000 ≤ watts ∧ watts ≤ 4600) then modPkg s pkg fun k => { k with cap := watts } else s)
/-- POWER_CAP_TICK: above the cap the clock falls by 50 MHz, not below 600; at or below it, it rises by 50 toward 1,200,
unless a junction is above 105 °C (R375; log 20). -/
def execPowerCapTick (pkg : DieId) (drawn : Nat) (s : State) : Out :=
  .next (modPkg s pkg fun k =>
    let k1 := { k with drawn := drawn }
    if k.cap < drawn then slower s pkg k1
    else if 105 < k.celsius then settleClock s pkg k1
    else settleClock s pkg { k1 with ownMhz := min 1200 (k1.ownMhz + 50) })
/-- The packages linked to one through a chain of shared partitions, itself among them (R376). -/
def chainOf (s : State) (pkg : DieId) : List DieId :=
  let pkgs := fun (p : Part) => p.slabs.map fun sl => pkgOf sl.die
  let grow := fun (l : List DieId) => s.parts.foldl (fun a p => if (pkgs p.2).any a.contains then (a ++ pkgs p.2).eraseDups else a) l
  (List.range s.parts.length).foldl (fun l _ => grow l) [pkg]
/-- The clock that a package reports: the lowest that any package of its chain needs (DEDUCED, log 98). -/
def clockFor (s : State) (other : DieId) : Nat :=
  (chainOf s other).foldl (fun a x => min a (pkgAt s x).ownMhz) (pkgAt s other).ownMhz
/-- CLOCK_REPORT from a package with which this one shares a partition: it reports its clock and no other value. Neighbouring packages
report over the session of their controllers (R369). -/
def execClockReport (pkg other : DieId) (mhz : Nat) (s : State) : Out :=
  .next <|
    if sharePart s pkg other && mhz == clockFor s other && ((linksTo s pkg other).isEmpty || pmcSession s pkg other) then
      modPkg s pkg fun k => settleClock s pkg { k with others := ins k.others other mhz }
    else s
/-- THERMAL_TRIP: above 105 °C the clock falls; above 115 °C, or with too little flow, every die is held in reset and every slab
stays fenced until the next package reset. -/
def execThermalTrip (pkg : DieId) (celsius : Nat) (lowFlow : Bool) (s : State) : Out :=
  .next <|
    let s0 := modPkg s pkg fun k => { k with celsius := celsius }
    if 115 < celsius || lowFlow then
      let s1 := (pkgDies pkg).foldl (fun acc d => setLive (stopDie acc d) false d) ((pkgSlabs pkg).foldl clearCores s0)
      let s2 := (pkgSlabs pkg).foldl (fun acc sl => modSlab acc sl fun b => { b with fence := true }) s1
      modPkg s2 pkg fun k => { k with tripped := true, trips := k.trips + 1, fwstate := 0 }
    else if 105 < celsius then modPkg s0 pkg (slower s pkg)
    else s0

/-- What the I3C target answers: power, temperature and the header of the latest summary; before the first one, the header that a
summary would have now, with number 0 (R360; log 97). -/
def i3cRead (s : State) (pkg : DieId) : Nat × Nat × List (BitVec 256) :=
  let k := pkgAt s pkg
  (k.drawn, k.celsius, if k.summary.isEmpty then (summaryOf s pkg 0).take 2 else k.summary.take 2)

end Sys2Proof.Machine
end

