-- ==== Sys2Proof/Machine/Control.lean ====
section
/-! DEFINITION. Control transfer and the hardware loops (R187 to R191). -/

namespace Sys2Proof.Machine

/-- BC (R188). -/
def execBc (f : FmtB) (s : State) : Out :=
  onStrand (.bc f) s fun h =>
    if condHolds f.cond (rdG s h f.sa) (rdG s h f.sb) then jumpTo h (relTarget h f.off) id s else retire h s

/-- The target of J, CALL and RET (R159, R189). -/
def baseTarget (s : State) (h : Here) (f : FmtB) : W64 :=
  (if f.sa = 0 then pcOf h else rdG s h f.sa) + 8 * f.off.signExtend 64
/-- J (R189). -/
def execJ (f : FmtB) (s : State) : Out := onStrand (.j f) s fun h => jumpTo h (baseTarget s h f) id s
/-- CALL (R189): the target is computed first. -/
def execCall (f : FmtB) (s : State) : Out :=
  onStrand (.call f) s fun h => jumpTo h (baseTarget s h f) (wrG h f.dst (pcOf h + 8)) s
/-- RET (R189). -/
def execRet (f : FmtB) (s : State) : Out := onStrand (.ret f) s fun h => jumpTo h (baseTarget s h f) id s

def setLoops (h : Here) (l : List W64) (s : State) : State :=
  modTask s h.core fun t => setStrand t h.x { strandOf t h.x with loops := l }
/-- LOOPB (R190): no frame for a count of 0; a ninth frame is ILLEGAL. -/
def execLoopb (f : FmtB) (s : State) : Out :=
  onStrand (.loopb f) s fun h =>
    let n := rdG s h f.dst
    let l := (strandOf h.t h.x).loops
    if n = 0 then jumpTo h (relTarget h f.off) id s
    else if 8 ≤ l.length then takeFault s h 1 (wordOf (.loopb f))
    else retire h (setLoops h (n :: l) s)
/-- LOOPE (R190, R191): the top frame counts down, whichever LOOPB pushed it. -/
def execLoope (f : FmtB) (s : State) : Out :=
  onStrand (.loope f) s fun h =>
    match (strandOf h.t h.x).loops with
    | [] => takeFault s h 1 (wordOf (.loope f))
    | n :: l =>
      if n - 1 ≠ 0 then jumpTo h (relTarget h f.off) (setLoops h ((n - 1) :: l)) s
      else retire h (setLoops h l s)

end Sys2Proof.Machine
end

