-- ==== Sys2Proof/Machine/Matrix.lean ====
section
/-! DEFINITION. The matrix array, its lease and queue, the accumulator bank, and the tile forms (R148, R259 to R272,
R51 to R56). -/

namespace Sys2Proof.Machine

/-! ### The lease (R148, R261) -/

/-- Post a request unless the core holds the lease or has one posted. -/
def postLease (s : State) (c : CoreId) : State :=
  modCluster s (CoreId.cluster c) fun k =>
    if k.lease.holder = some (cix c) ∨ k.lease.reqs.contains (cix c) then k
    else { k with lease := { k.lease with reqs := k.lease.reqs ++ [cix c] } }
/-- A multiply still stands in the core's queue: commands that have issued drain (R148). -/
def mulQueued (k : Core) : Bool := k.mxq.any fun e => match e with | .mul .. => true | _ => false
/-- The lease of a core ends; its request stays posted while the wanted bit is set, or multiplies that issued before an MXFREE still
wait for the array (R148, R261). -/
def passLease (s : State) (c : CoreId) : State :=
  let s1 := endLease s (CoreId.cluster c) (cix c)
  if (coreAt s c).wanted || mulQueued (coreAt s c) then postLease s1 c else s1
/-- MXLEASE (R261): never waits. -/
def execMxlease (f : FmtT) (s : State) : Out :=
  onStrand (.mxlease f) s fun h => retire h (postLease (modCore s h.core fun k => { k with wanted := true }) h.core)

/-- Append a matrix queue entry, or hold while the four entries are taken (R259). -/
def mxPush (s : State) (h : Here) (e : MxEntry) : State :=
  if 4 ≤ h.k.mxq.length then hold h .matrixFull s
  else retire h (modCore s h.core fun k => { k with mxq := k.mxq ++ [e] })
/-- MXFREE (R261): the wanted bit is cleared as it issues. -/
def execMxfree (f : FmtT) (s : State) : Out :=
  onStrand (.mxfree f) s fun h =>
    if 4 ≤ h.k.mxq.length then hold h .matrixFull s
    else mxPush (modCore s h.core fun k => { k with wanted := false }) h .free

/-! ### Multiply commands at issue (R262, R263) -/

/-- Checks 3 and 4 of R263: inside scratch, each operand in one bank group, the groups different. -/
def groupsOk (a na b nb : Nat) : Bool :=
  decide (a + na ≤ 0xC00000 ∧ b + nb ≤ 0xC00000) && a / 0x300000 == (a + na - 1) / 0x300000 &&
  b / 0x300000 == (b + nb - 1) / 0x300000 && a / 0x300000 != b / 0x300000
/-- An operand that reaches into banks the crew has not declared in SCRM: check 5 of R263. -/
def mxUndeclared (t : Task) (l : List (Nat × Nat)) : Option Nat :=
  (l.find? fun x => !(banksOf x.1 x.2).all fun b => t.crew.scrm.getLsbD b).map (·.1)
/-- MXMUL and MXMULC at issue (R263). D0 of a BANKGROUP of checks 3 and 4, which are checks of both operands, is x(sa) (DESIGN CHOICE,
log 96: R328 says scratch address or bank, and not whose). -/
def mxIssue (f : FmtT) (complex : Bool) (s : State) (h : Here) : State :=
  let a := (rdG s h f.sa).toNat
  let b := (rdG s h f.sb).toNat
  let na := mxOperandBytes f.fa f.imm.toNat
  let nb := mxOperandBytes f.fb f.imm.toNat
  let c := CoreId.cluster h.core
  if !h.k.wanted then takeFault s h 11
  else if a % 256 ≠ 0 then takeFault s h 9 (rdG s h f.sa)
  else if b % 256 ≠ 0 then takeFault s h 9 (rdG s h f.sb)
  else if !groupsOk a na b nb then takeFault s h 10 (rdG s h f.sa)
  else match mxUndeclared h.t [(a, na), (b, nb)] with
  | some x => takeFault s h 10 (BitVec.ofNat 64 x)
  | none => match scrCheck s c h.t.crew.scrm .scratch [a] na, scrCheck s c h.t.crew.scrm .scratch [b] nb with
    | .hold, _ | _, .hold => hold h .transit s
    | .fault cls x, _ | _, .fault cls x => takeFault s h cls (BitVec.ofNat 64 x)
    | .ok, .ok =>
      let old := (closeWins (winOpen s.ck h.t) h.t.windows).reverse.filterMap fun w =>
        match w.dst with | .scr o => some o | _ => none
      mxPush s h (.mul f complex (rdG s h f.sa) (rdG s h f.sb) old)
def execMxmul (f : FmtT) (s : State) : Out := onStrand (.mxmul f) s (mxIssue f false s)
def execMxmulc (f : FmtT) (s : State) : Out := onStrand (.mxmulc f) s (mxIssue f true s)

/-! ### The product (R51 to R56, R262, R264, R265) -/

/-- Operand rows from scratch, as numbers: the old bytes of windows open at issue may still show (R271). -/
def panelRead (s : State) (c : CoreId) (old : List (List (Nat × Byte))) (a n : Nat) : Nat :=
  let now := scrSeen s (CoreId.cluster c) (some c) 0 a n
  if old.isEmpty then ofBytes now
  else ofBytes (now.zipIdx.map fun x => oldByte s.free (a + x.2) x.1 64 old)
/-- Lists of columns from a list of rows. -/
def transposeBy {α : Type} (n : Nat) (g : Nat → α) (rows : List (List Nat)) : List (List α) :=
  rows.foldr (fun r acc => List.zipWith (fun x xs => g x :: xs) r acc) (List.replicate n [])
/-- Elements of a panel by output index, k innermost; n output indices for the k-major formats (R262). -/
def panel (fmt : BitVec 4) (get : Nat → Nat → Nat) (base kk : Nat) : List (List FVal) :=
  if fmt = 6 then
    (List.range 256).map fun i =>
      let row := get (base + kk / 2 * i) (kk / 2)
      let sc := get (base + 128 * kk + kk / 8 * i) (kk / 8)
      (List.range kk).map fun k =>
        match e3m5 (sc / 2 ^ (8 * (k / 8)) % 256) with
        | some g => mulF (e2m1 (row / 2 ^ (4 * k))) g
        | none => .nan
  else
    let w := fmtWidth fmt
    let n := if fmt = 0 then 64 else 256
    let rb := n * w / 8
    transposeBy n (decodeF fmt) ((List.range kk).map fun k =>
      let row := get (base + rb * k) rb
      (List.range n).map fun e => row / 2 ^ (w * e) % 2 ^ w)
/-- Split a list into groups of 16; the last may be shorter (R51). -/
def groups16 {α : Type} (n : Nat) (l : List α) : List (List α) :=
  match n with
  | 0 => []
  | n + 1 => if l.isEmpty then [] else l.take 16 :: groups16 n (l.drop 16)
/-- The FP32 accumulation of one output: exact group sums, each rounded, added in ascending k (R51). -/
def accNarrow (acc : FVal) (terms : List (List FVal)) : FVal :=
  terms.foldl (fun a g => r32 (addF false a (r32 (exactSum g)))) acc
/-- The FP64 accumulation: one rounding for each k (R53, R54). -/
def accWide (acc : FVal) (terms : List FVal) : FVal := terms.foldl (fun a x => r64 (addF false a x)) acc
def ngroups (kk : Nat) : Nat := cdiv kk 16
/-- Even and odd entries of a list of output indices: the real and the imaginary parts of complex operands (R265). -/
def evens {α : Type} (l : List α) : List α := match l with | a :: _ :: r => a :: evens r | l => l
def odds {α : Type} (l : List α) : List α := match l with | _ :: b :: r => b :: odds r | _ => []

/-- The bank by words of 32 or 64 bits (R259): lane n of the whole bank. -/
def accLane (m : AMap Nat AccRow) (w n : Nat) : Nat := lane w (lkpD m (w * n / 8192) 0) (n % (8192 / w))
/-- Products of one output: real operands. -/
def realTerms (a b : List FVal) : List FVal := List.zipWith mulF a b
/-- Products of one complex output: the terms of the real and of the imaginary part for each k (R54). -/
def reTerms (ar ai br bi : List FVal) : List (FVal × FVal) :=
  List.zipWith (fun x y => (mulF x.1 y.1, negF (mulF x.2 y.2))) (ar.zip ai) (br.zip bi)
def imTerms (ar ai br bi : List FVal) : List (FVal × FVal) :=
  List.zipWith (fun x y => (mulF x.1 y.2, mulF x.2 y.1)) (ar.zip ai) (br.zip bi)
def pairsOf (l : List (FVal × FVal)) : List FVal := l.flatMap fun x => [x.1, x.2]
/-- The outputs of row i, by the operand columns (R264, R265): 32-bit or 64-bit words in order. `old n` is output n of the
row before. -/
def mxRow (fmt : BitVec 4) (complex : Bool) (kk : Nat) (a : List FVal × List FVal) (bcols : List (List FVal))
    (old : Nat → Nat) : List Nat :=
  let wide := decide (fmt = 0)
  let c : BitVec 4 := if wide then 0 else 1
  let dec := fun (n : Nat) => decodeF c (old n)
  let out := fun (v : FVal) => roundF c .rne v
  if complex then
    ((evens bcols).zip (odds bcols)).zipIdx.flatMap fun x =>
      let (br, bi) := x.1
      let re := reTerms a.1 a.2 br bi
      let im := imTerms a.1 a.2 br bi
      if wide then
        [out (accWide (dec (2 * x.2)) (re.map fun t => addF false t.1 t.2)),
         out (accWide (dec (2 * x.2 + 1)) (im.map fun t => addF false t.1 t.2))]
      else
        [out (accNarrow (dec (2 * x.2)) ((groups16 (ngroups kk) re).map pairsOf)),
         out (accNarrow (dec (2 * x.2 + 1)) ((groups16 (ngroups kk) im).map pairsOf))]
  else
    bcols.zipIdx.map fun x =>
      let t := realTerms a.1 x.1
      if wide then out (accWide (dec x.2) t) else out (accNarrow (dec x.2) (groups16 (ngroups kk) t))
/-- The bank after a multiply (R264): `.set` clears the output region first. -/
def mxResult (f : FmtT) (complex : Bool) (get : Nat → Nat → Nat) (a b : Nat) (m : AMap Nat AccRow) : AMap Nat AccRow :=
  let kk := f.imm.toNat
  let wide := decide (f.fa = 0)
  let region := if wide then 32 else if complex then 128 else 256
  let m0 := if f.fn = 1 then (List.range region).foldl (fun acc r => ins acc r (0 : AccRow)) m else m
  let pa := panel f.fa get a kk
  let pb := panel f.fb get b kk
  let rows := if complex then (evens pa).zip (odds pa) else pa.map fun x => (x, x)
  let w := if wide then 64 else 32
  let n := if wide then 64 else 256
  let vals := rows.zipIdx.map fun x => mxRow f.fa complex kk x.1 pb fun j => accLane m0 w (n * x.2 + j)
  if wide then
    vals.zipIdx.foldl (fun acc x =>
      let r := x.2 / 2
      let old : AccRow := lkpD acc r 0
      let half : BitVec 4096 := ofLanes 4096 64 x.1
      ins acc r (if x.2 % 2 = 0 then old.extractLsb' 4096 4096 ++ half else half ++ old.extractLsb' 0 4096)) m0
  else vals.zipIdx.foldl (fun acc x => ins acc x.2 (ofLanes 8192 32 x.1)) m0
/-- The blocks that a multiply writes (R266). -/
def mxBlocks (f : FmtT) (complex : Bool) : List Nat :=
  List.range (if f.fa = 0 then 8 else if complex then 32 else 64)
def addAll (l m : List Nat) : List Nat := m.foldl insNat l

/-- MXMUL_ENTRY (R264): the head entry runs once the core holds the lease; it raises no fault. -/
def execMxmulEntry (c : CoreId) (s : State) : Out :=
  .next <|
    let k := coreAt s c
    match k.mxq with
    | .mul f complex a b old :: rest =>
      if (clusterAt s (CoreId.cluster c)).lease.holder = some (cix c) then
        let m := mxResult f complex (panelRead s c old) a.toNat b.toNat k.acc
        setCore { s with free := s.free + 1 } c
          { k with acc := m, dirty := addAll k.dirty (mxBlocks f complex), mxq := .ran :: rest }
      else s
    | _ => s

/-! ### Blocks of the bank (R266 to R268) -/

/-- The block index of a form (R266). -/
def blkIdx (s : State) (h : Here) (f : FmtT) : Nat :=
  (rdG s h f.sa + f.imm.zeroExtend 64).toNat % (if f.fa = 0 then 8 else 64)
/-- Row r of block bi as a tile row (R266). -/
def blkRow (fmt : BitVec 4) (m : AMap Nat AccRow) (bi r : Nat) : VReg :=
  if fmt = 0 then
    ofLanes 1024 64 ((List.range 16).map fun c => accLane m 64 (64 * (32 * (bi / 4) + r) + 16 * (bi % 4) + c))
  else ofLanes 1024 32 ((List.range 32).map fun c => accLane m 32 (256 * (32 * (bi / 8) + r) + 32 * (bi % 8) + c))
def setAccLane (m : AMap Nat AccRow) (w n v : Nat) : AMap Nat AccRow :=
  ins m (w * n / 8192) (setLane w (lkpD m (w * n / 8192) 0) (n % (8192 / w)) v)
def setBlkRow (fmt : BitVec 4) (bi r : Nat) (v : VReg) (m : AMap Nat AccRow) : AMap Nat AccRow :=
  if fmt = 0 then
    (List.range 16).foldl (fun acc c =>
      setAccLane acc 64 (64 * (32 * (bi / 4) + r) + 16 * (bi % 4) + c) (lane 64 v c)) m
  else (List.range 32).foldl (fun acc c =>
      setAccLane acc 32 (256 * (32 * (bi / 8) + r) + 32 * (bi % 8) + c) (lane 32 v c)) m
def setBlk (fmt : BitVec 4) (bi : Nat) (rows : List VReg) (m : AMap Nat AccRow) : AMap Nat AccRow :=
  rows.zipIdx.foldl (fun acc x => setBlkRow fmt bi x.2 x.1 acc) m
/-- The FP32 blocks that block bi of a view covers: an FP64 block of 32 rows covers 16 rows of the bank. -/
def blkCover (fmt : BitVec 4) (bi : Nat) : List Nat :=
  if fmt = 0 then
    ((List.range 32).flatMap fun r =>
      [0, 15].map fun c =>
        let n := 2 * (64 * (32 * (bi / 4) + r) + 16 * (bi % 4) + c)
        8 * (n / 256 / 32) + n % 256 / 32)
  else [bi]

/-- MATRIX_ENTRY_COMPLETE (R259, R261, R267): the head entry's action is complete and it leaves the queue. A multiply
counts toward the 16 commands of its lease (R148). -/
def execMatrixEntryComplete (c : CoreId) (s : State) : Out :=
  .next <|
    let k := coreAt s c
    let cl := CoreId.cluster c
    match k.mxq with
    | [] => s
    | .mul .. :: _ => s
    | .ran :: rest =>
      let s1 := setCore s c { k with mxq := rest }
      let l := (clusterAt s cl).lease
      if l.holder = some (cix c) then
        let s2 := modCluster s1 cl fun x => { x with lease := { x.lease with cmds := x.lease.cmds + 1 } }
        if 16 ≤ l.cmds + 1 then passLease s2 c else s2
      else s1
    | .zero :: rest => setCore s c { k with acc := [], dirty := List.range 64, mxq := rest }
    | .zeroBlk fmt bi :: rest =>
      setCore s c { k with acc := setBlk fmt bi (List.replicate 32 0) k.acc, dirty := addAll k.dirty (blkCover fmt bi), mxq := rest }
    | .wr fmt bi rows :: rest =>
      setCore s c { k with acc := setBlk fmt bi rows k.acc, dirty := addAll k.dirty (blkCover fmt bi), mxq := rest }
    | .free :: rest =>
      let s1 := setCore s c { k with mxq := rest }
      if k.wanted then postLease (endLease s1 cl (cix c)) c else dropLease s1 c

/-- LEASE_GRANT (R148): round robin in core order after the last holder. -/
def execLeaseGrant (cl : ClusterId) (s : State) : Out :=
  .next <|
    let l := (clusterAt s cl).lease
    match l.holder, ([1, 2, 3, 4].map fun i => (l.last + i) % 4).find? (l.reqs.contains ·) with
    | none, some k =>
      modCluster s cl fun x =>
        { x with lease := { holder := some k, cmds := 0, since := s.ck, last := k, reqs := l.reqs.filter (· != k) } }
    | _, _ => s
/-- LEASE_TIMEOUT (R148): 65,536 ck after the grant. -/
def execLeaseTimeout (cl : ClusterId) (s : State) : Out :=
  .next <|
    let l := (clusterAt s cl).lease
    match l.holder with
    | some k => if 65536 ≤ s.ck - l.since then passLease s (coreOf cl k) else s
    | none => s

/-- MXZERO (R267). -/
def execMxzero (f : FmtT) (s : State) : Out := onStrand (.mxzero f) s fun h => mxPush s h .zero
def execMxzeroBlk (f : FmtT) (s : State) : Out :=
  onStrand (.mxzeroBlk f) s fun h => mxPush s h (.zeroBlk f.fa (blkIdx s h f))
/-- A tile register as an instruction reads it, rows in order (R162, R166). -/
def readT (s : State) (h : Here) (n : Nat) : List VReg := (List.range 32).map fun r => sliceRead s h.t n false r (100 + r)
/-- MXWR (R267): the tile is read as the form issues. -/
def execMxwr (f : FmtT) (s : State) : Out :=
  onStrand (.mxwr f) s fun h => mxPush s h (.wr f.fa (blkIdx s h f) (readT s h f.sb.toNat))
/-- MXRD (R268): holds until the matrix queue is empty. -/
def execMxrd (f : FmtT) (s : State) : Out :=
  onStrand (.mxrd f) s fun h =>
    if !h.k.mxq.isEmpty then hold h .mxread s
    else
      let bi := blkIdx s h f
      retire h (putT h f.dst.toNat ((List.range 32).map (blkRow f.fa h.k.acc bi)) f.lat.toNat s)
/-- One element under the two band scales (R52, R268). -/
def bandElem (v ba bb : Nat) : Nat := roundF 1 .rne (mulF (mulF (decodeF 1 v) (decodeF 3 ba)) (decodeF 3 bb))
def execMxrdBand (f : FmtT) (s : State) : Out :=
  onStrand (.mxrdBand f) s fun h =>
    if !h.k.mxq.isEmpty then hold h .mxread s
    else
      let bi := blkIdx s h f
      let band := fun (reg : W64) (i : Nat) => bitsN reg (16 * (i / 64)) 16
      let row := fun (r : Nat) =>
        let v := blkRow 1 h.k.acc bi r
        (ofLanes 1024 32 ((List.range 32).map fun c =>
          bandElem (lane 32 v c) (band (rdG s h f.sb) (32 * (bi / 8) + r)) (band (rdG s h f.sc) (32 * (bi % 8) + c))) : VReg)
      retire h (putT h f.dst.toNat ((List.range 32).map row) f.lat.toNat s)

/-! ### Tiles and scratch (R269, R270) -/

def tileAddr (s : State) (h : Here) (f : FmtT) (r : Nat) : Nat :=
  (rdG s h f.sa + 32 * f.imm.signExtend 64 + BitVec.ofNat 64 r * rdG s h f.sb).toNat
def tileAddrs (s : State) (h : Here) (f : FmtT) : List Nat := (List.range 32).map (tileAddr s h f)
/-- The checks of TLD and TST. D0 of ALIGN is the stride x(sb) where it alone is misaligned, else the first row's address (DESIGN CHOICE,
log 99: R328 says only "address"). -/
def tileAccess (s : State) (h : Here) (f : FmtT) (k : State) : State :=
  if (rdG s h f.sb).toNat % 32 ≠ 0 ∧ tileAddr s h f 0 % 32 = 0 then takeFault s h 9 (rdG s h f.sb)
  else if tileAddr s h f 0 % 32 ≠ 0 then takeFault s h 9 (BitVec.ofNat 64 (tileAddr s h f 0))
  else scrAccess s h 1 h.t.crew.scrm .scratch (tileAddrs s h f) 128 k
def execTld (f : FmtT) (s : State) : Out :=
  onStrand (.tld f) s fun h => tileAccess s h f <|
    let rows := (tileAddrs s h f).map fun a =>
      BitVec.ofNat 1024 (ofBytes (scrSeen s (CoreId.cluster h.core) (some h.core) 0 a 128))
    retire h (putT h f.dst.toNat rows f.lat.toNat s)
def execTst (f : FmtT) (s : State) : Out :=
  onStrand (.tst f) s fun h => tileAccess s h f <|
    if mxOverlap h.k (tileAddrs s h f) 128 then hold h .mxread s
    else
      let bytes := ((tileAddrs s h f).zip (readT s h f.dst.toNat)).flatMap fun x =>
        (List.range 128).map fun i => (x.1 + i, BitVec.ofNat 8 (lane 8 x.2 i))
      retire h (xsScrWrite h bytes f.lat.toNat s)
/-- TSL (R270). -/
def execTsl (f : FmtT) (s : State) : Out :=
  onStrand (.tsl f) s fun h =>
    let di := ((rdG s h f.sb).toNat + bitsN f.imm 10 5) % 32
    let si := ((rdG s h f.sc).toNat + bitsN f.imm 4 5) % 32
    let v := sliceRead s h.t f.sa.toNat (f.imm.getLsbD 9) si 1
    let dcol := f.imm.getLsbD 15
    retire h (modTask s h.core fun t =>
      openWin s.ck (.slice f.dst.toNat dcol di) f.lat.toNat (setTSlice f.dst.toNat dcol di v t))
/-- TTRAN (R270). -/
def execTtran (f : FmtT) (s : State) : Out :=
  onStrand (.ttran f) s fun h =>
    let rows := readT s h f.sa.toNat
    let cols := (List.range 32).map fun c => (ofLanes 1024 32 (rows.map fun r => lane 32 r c) : VReg)
    retire h (putT h f.dst.toNat cols f.lat.toNat s)

/-- RESULT_LANDING (R166): the cycles of a window have passed, so its destination reads as its landed contents. -/
def execResultLanding (c : CoreId) (s : State) : Out :=
  .next (modTask s c fun t =>
    { t with windows := closeWins (fun w => decide (s.ck < w.since + (w.closes - w.issued))) t.windows })

end Sys2Proof.Machine
end

