-- ==== Sys2Proof/Machine/Queue.lean ====
section
/-! DEFINITION. The strand queues (R192 to R195) and END (R196). -/

namespace Sys2Proof.Machine

/-- QPUSH (R193). -/
def execQpush (f : FmtR) (s : State) : Out :=
  onStrand (.qpush f) s fun h =>
    let n := f.fn.toNat
    if 64 ≤ (qList h.t n).length then qWait h (.qpush n) s
    else retire h (modTask s h.core fun t =>
      let t1 := setQList n (qList h.t n ++ [rdG s h f.sa]) t
      match h.x with | .as => t1 | .xs => { t1 with pushed := t1.xissue })
/-- QPOP (R193): the item leaves even when dst is register 0. -/
def execQpop (f : FmtR) (s : State) : Out :=
  onStrand (.qpop f) s fun h =>
    let n := f.fn.toNat
    match qList h.t n with
    | [] => qWait h (.qpop n) s
    | v :: r => retire h (wrG h f.dst v (modTask s h.core (setQList n r)))
/-- QPEEK (R193). -/
def execQpeek (f : FmtR) (s : State) : Out :=
  onStrand (.qpeek f) s fun h =>
    let n := f.fn.toNat
    match qList h.t n with
    | [] => qWait h (.qpop n) s
    | v :: _ => retire h (wrG h f.dst v s)
/-- QCNT (R193, R195). -/
def execQcnt (f : FmtR) (s : State) : Out :=
  onStrand (.qcnt f) s fun h => retire h (wrG h f.dst (BitVec.ofNat 64 (qList h.t f.fn.toNat).length) s)
/-- BQPUSH (R194). -/
def execBqpush (f : FmtR) (s : State) : Out :=
  onStrand (.bqpush f) s fun h =>
    if 32 ≤ h.t.bq.length then qWait h (.qpush 4) s
    else retire h (modTask s h.core fun t => { t with bq := t.bq ++ [rdG s h f.sa != 0] })
/-- BQP (R194): one outcome is consumed whichever way it goes. -/
def execBqp (f : FmtB) (s : State) : Out :=
  onStrand (.bqp f) s fun h =>
    match h.t.bq with
    | [] => qWait h (.qpop 4) s
    | b :: r =>
      let pop := fun (s : State) => modTask s h.core fun t => { t with bq := r }
      if b then jumpTo h (relTarget h f.off) pop s else retire h (pop s)

/-- The strand has ended; the task ends when both have (R147, R196). -/
def endStrand (h : Here) (s : State) : State :=
  let s1 := modTask s h.core fun t => setStrand t h.x { unheld (strandOf t h.x) with ended := true }
  let s2 := { s1 with cur := some { core := h.core, x := otherStrand h.x } }
  if (strandOf h.t (otherStrand h.x)).ended then endTask s2 h.core else checkDeadlock h s2
/-- END (R196, R272): on the AS a release at PARTITION scope; on the XS it waits for the matrix queue, clears the wanted bit
and ends the core's lease. -/
def execEndS (f : FmtR) (s : State) : Out :=
  onStrand (.endS f) s fun h =>
    match h.x with
    | .as => releaseThen s h 3 none (endStrand h)
    | .xs =>
      if !h.k.mxq.isEmpty then hold h .mxread s
      else endStrand h (dropLease (modCore s h.core fun k => { k with wanted := false }) h.core)

end Sys2Proof.Machine
end

