-- ==== Sys2Proof/Machine/Scalar.lean ====
section
/-! DEFINITION. The scalar integer forms (R181 to R186). -/

namespace Sys2Proof.Machine

/-- Signed division and remainder with the corners of R184. -/
def divS (a b : Int) : Int := if b = 0 then -1 else a.tdiv b
def remS (a b : Int) : Int := if b = 0 then a else a - b * a.tdiv b
/-- Unsigned division and remainder with the corners of R184. -/
def divZ (n : Nat) (a b : Int) : Int := if b = 0 then (2 ^ n : Nat) - 1 else a / b
def remZ (a b : Int) : Int := if b = 0 then a else a % b
/-- A bitwise result of two unsigned operands. -/
def bitInt (f : Nat → Nat → Nat) (_ : Nat) (a b : Int) : Int := (f a.toNat b.toNat : Nat)

/-- R181 for the R forms: operands at the width of the type, an exact result, extension by the type. -/
def scalarR (signed : Bool) (op : Nat → Int → Int → Int) (f : FmtR) (s : State) (h : Here) : State :=
  let n := fmtWidth f.ty
  let r := op n (readInt signed n (rdG s h f.sa).toNat) (readInt signed n (rdG s h f.sb).toNat)
  retire h (wrG h f.dst (extend64 (tySigned f.ty) n (wrapN n r)) s)
/-- R181 for the I forms: the immediate is sign-extended to 64 bits before the width is applied. -/
def scalarI (signed : Bool) (op : Nat → Int → Int → Int) (f : FmtI) (s : State) (h : Here) : State :=
  let n := fmtWidth f.ty
  let r := op n (readInt signed n (rdG s h f.sa).toNat) (readInt signed n (f.imm.signExtend 64).toNat)
  retire h (wrG h f.dst (extend64 (tySigned f.ty) n (wrapN n r)) s)
/-- R185: one operand of n bits, a result extended by the type. -/
def scalarX (op : Nat → Nat → Nat) (f : FmtR) (s : State) (h : Here) : State :=
  let n := fmtWidth f.ty
  retire h (wrG h f.dst (extend64 (tySigned f.ty) n (op n ((rdG s h f.sa).toNat % 2 ^ n))) s)

def clzN (n x : Nat) : Nat := n - bitLen x
def ctzN (n x : Nat) : Nat := ((List.range n).find? fun i => decide (x / 2 ^ i % 2 = 1)).getD n
def popN (n x : Nat) : Nat := ((List.range n).filter fun i => decide (x / 2 ^ i % 2 = 1)).length

/-- ADD (R182). -/
def execAdd (f : FmtR) (s : State) : Out :=
  onStrand (.add f) s (scalarR false (fun _ a b => a + b) f s)
/-- ADDI (R182). -/
def execAddi (f : FmtI) (s : State) : Out :=
  onStrand (.addi f) s (scalarI false (fun _ a b => a + b) f s)
/-- SUB (R182). -/
def execSub (f : FmtR) (s : State) : Out :=
  onStrand (.sub f) s (scalarR false (fun _ a b => a - b) f s)
/-- MUL (R182). -/
def execMul (f : FmtR) (s : State) : Out :=
  onStrand (.mul f) s (scalarR false (fun _ a b => a * b) f s)
/-- MULH (R182). -/
def execMulh (f : FmtR) (s : State) : Out :=
  onStrand (.mulh f) s (scalarR true (fun n a b => a * b / (2 ^ n : Nat)) f s)
/-- MULHZ (R182). -/
def execMulhz (f : FmtR) (s : State) : Out :=
  onStrand (.mulhz f) s (scalarR false (fun n a b => a * b / (2 ^ n : Nat)) f s)
/-- DIV (R182). -/
def execDiv (f : FmtR) (s : State) : Out :=
  onStrand (.div f) s (scalarR true (fun _ a b => divS a b) f s)
/-- DIVZ (R182). -/
def execDivz (f : FmtR) (s : State) : Out :=
  onStrand (.divz f) s (scalarR false (fun n a b => divZ n a b) f s)
/-- REM (R182). -/
def execRem (f : FmtR) (s : State) : Out :=
  onStrand (.rem f) s (scalarR true (fun _ a b => remS a b) f s)
/-- REMZ (R182). -/
def execRemz (f : FmtR) (s : State) : Out :=
  onStrand (.remz f) s (scalarR false (fun _ a b => remZ a b) f s)
/-- AND (R182). -/
def execAnd (f : FmtR) (s : State) : Out :=
  onStrand (.and f) s (scalarR false (bitInt (· &&& ·)) f s)
/-- ANDI (R182). -/
def execAndi (f : FmtI) (s : State) : Out :=
  onStrand (.andi f) s (scalarI false (bitInt (· &&& ·)) f s)
/-- OR (R182). -/
def execOr (f : FmtR) (s : State) : Out :=
  onStrand (.or f) s (scalarR false (bitInt (· ||| ·)) f s)
/-- ORI (R182). -/
def execOri (f : FmtI) (s : State) : Out :=
  onStrand (.ori f) s (scalarI false (bitInt (· ||| ·)) f s)
/-- XOR (R182). -/
def execXor (f : FmtR) (s : State) : Out :=
  onStrand (.xor f) s (scalarR false (bitInt (· ^^^ ·)) f s)
/-- XORI (R182). -/
def execXori (f : FmtI) (s : State) : Out :=
  onStrand (.xori f) s (scalarI false (bitInt (· ^^^ ·)) f s)
/-- SHL (R182). -/
def execShl (f : FmtR) (s : State) : Out :=
  onStrand (.shl f) s (scalarR false (fun n a b => a * (2 ^ (b.toNat % n) : Nat)) f s)
/-- SHLI (R182). -/
def execShli (f : FmtI) (s : State) : Out :=
  onStrand (.shli f) s (scalarI false (fun _ a b => a * (2 ^ b.toNat : Nat)) f s)
/-- SHR (R182). -/
def execShr (f : FmtR) (s : State) : Out :=
  onStrand (.shr f) s (scalarR false (fun n a b => a / (2 ^ (b.toNat % n) : Nat)) f s)
/-- SHRI (R182). -/
def execShri (f : FmtI) (s : State) : Out :=
  onStrand (.shri f) s (scalarI false (fun _ a b => a / (2 ^ b.toNat : Nat)) f s)
/-- SRA (R182). -/
def execSra (f : FmtR) (s : State) : Out :=
  onStrand (.sra f) s (scalarR true (fun n a b => a / (2 ^ (wrapN 64 b % n) : Nat)) f s)
/-- SRAI (R182). -/
def execSrai (f : FmtI) (s : State) : Out :=
  onStrand (.srai f) s (scalarI true (fun n a b => a / (2 ^ wrapN n b : Nat)) f s)
/-- MIN (R182). -/
def execMin (f : FmtR) (s : State) : Out :=
  onStrand (.min f) s (scalarR true (fun _ a b => min a b) f s)
/-- MAX (R182). -/
def execMax (f : FmtR) (s : State) : Out :=
  onStrand (.max f) s (scalarR true (fun _ a b => max a b) f s)
/-- MINZ (R182). -/
def execMinz (f : FmtR) (s : State) : Out :=
  onStrand (.minz f) s (scalarR false (fun _ a b => min a b) f s)
/-- MAXZ (R182). -/
def execMaxz (f : FmtR) (s : State) : Out :=
  onStrand (.maxz f) s (scalarR false (fun _ a b => max a b) f s)
/-- SLT (R182). -/
def execSlt (f : FmtR) (s : State) : Out :=
  onStrand (.slt f) s (scalarR true (fun _ a b => if a < b then 1 else 0) f s)
/-- SLTZ (R182). -/
def execSltz (f : FmtR) (s : State) : Out :=
  onStrand (.sltz f) s (scalarR false (fun _ a b => if a < b then 1 else 0) f s)
/-- SEQ (R182). -/
def execSeq (f : FmtR) (s : State) : Out :=
  onStrand (.seq f) s (scalarR false (fun _ a b => if a = b then 1 else 0) f s)
/-- SEL (R182): the full 64 bits of sc decide. -/
def execSel (f : FmtR) (s : State) : Out :=
  onStrand (.sel f) s fun h => scalarR false (fun _ a b => if rdG s h f.sc ≠ 0 then a else b) f s h
/-- CLZ (R185). -/
def execClz (f : FmtR) (s : State) : Out := onStrand (.clz f) s (scalarX clzN f s)
/-- CTZ (R185). -/
def execCtz (f : FmtR) (s : State) : Out := onStrand (.ctz f) s (scalarX ctzN f s)
/-- POPC (R185). -/
def execPopc (f : FmtR) (s : State) : Out := onStrand (.popc f) s (scalarX popN f s)
/-- MOV (R185). -/
def execMov (f : FmtR) (s : State) : Out := onStrand (.mov f) s (scalarX (fun _ x => x) f s)
/-- EXT (R185): a logical shift of all 64 bits of sa by sb<5:0>, then the low n bits. -/
def execExt (f : FmtR) (s : State) : Out :=
  onStrand (.ext f) s fun h =>
    let n := fmtWidth f.ty
    let x := (rdG s h f.sa).toNat / 2 ^ ((rdG s h f.sb).toNat % 64)
    retire h (wrG h f.dst (extend64 (tySigned f.ty) n (x % 2 ^ n)) s)
/-- LI (R186). -/
def execLi (f : FmtI) (s : State) : Out :=
  onStrand (.li f) s fun h =>
    let n := fmtWidth f.ty
    let v := if n = 64 then extend64 (tySigned f.ty) 32 f.imm.toNat else extend64 (tySigned f.ty) n (f.imm.toNat % 2 ^ n)
    retire h (wrG h f.dst v s)
/-- LIH (R186): bits 31:0 keep their value. -/
def execLih (f : FmtI) (s : State) : Out :=
  onStrand (.lih f) s fun h => retire h (wrG h f.dst (f.imm ++ (rdG s h f.dst).truncate 32) s)

end Sys2Proof.Machine
end

