-- ==== Sys2Proof/Machine/Dispatch.lean ====
section
/-! DEFINITION. One arm for every row of the opcode table. -/

namespace Sys2Proof.Machine

def exec (i : Instr) (s : State) : Host.Outcome State Fault Refusal :=
  match i with
  | .add f => Sys2Proof.Machine.execAdd f s
  | .addi f => Sys2Proof.Machine.execAddi f s
  | .sub f => Sys2Proof.Machine.execSub f s
  | .mul f => Sys2Proof.Machine.execMul f s
  | .mulh f => Sys2Proof.Machine.execMulh f s
  | .mulhz f => Sys2Proof.Machine.execMulhz f s
  | .div f => Sys2Proof.Machine.execDiv f s
  | .divz f => Sys2Proof.Machine.execDivz f s
  | .rem f => Sys2Proof.Machine.execRem f s
  | .remz f => Sys2Proof.Machine.execRemz f s
  | .and f => Sys2Proof.Machine.execAnd f s
  | .andi f => Sys2Proof.Machine.execAndi f s
  | .or f => Sys2Proof.Machine.execOr f s
  | .ori f => Sys2Proof.Machine.execOri f s
  | .xor f => Sys2Proof.Machine.execXor f s
  | .xori f => Sys2Proof.Machine.execXori f s
  | .shl f => Sys2Proof.Machine.execShl f s
  | .shli f => Sys2Proof.Machine.execShli f s
  | .shr f => Sys2Proof.Machine.execShr f s
  | .shri f => Sys2Proof.Machine.execShri f s
  | .sra f => Sys2Proof.Machine.execSra f s
  | .srai f => Sys2Proof.Machine.execSrai f s
  | .min f => Sys2Proof.Machine.execMin f s
  | .max f => Sys2Proof.Machine.execMax f s
  | .minz f => Sys2Proof.Machine.execMinz f s
  | .maxz f => Sys2Proof.Machine.execMaxz f s
  | .slt f => Sys2Proof.Machine.execSlt f s
  | .sltz f => Sys2Proof.Machine.execSltz f s
  | .seq f => Sys2Proof.Machine.execSeq f s
  | .sel f => Sys2Proof.Machine.execSel f s
  | .clz f => Sys2Proof.Machine.execClz f s
  | .ctz f => Sys2Proof.Machine.execCtz f s
  | .popc f => Sys2Proof.Machine.execPopc f s
  | .mov f => Sys2Proof.Machine.execMov f s
  | .ext f => Sys2Proof.Machine.execExt f s
  | .li f => Sys2Proof.Machine.execLi f s
  | .lih f => Sys2Proof.Machine.execLih f s
  | .bc f => Sys2Proof.Machine.execBc f s
  | .j f => Sys2Proof.Machine.execJ f s
  | .call f => Sys2Proof.Machine.execCall f s
  | .ret f => Sys2Proof.Machine.execRet f s
  | .loopb f => Sys2Proof.Machine.execLoopb f s
  | .loope f => Sys2Proof.Machine.execLoope f s
  | .bqp f => Sys2Proof.Machine.execBqp f s
  | .endS f => Sys2Proof.Machine.execEndS f s
  | .qpush f => Sys2Proof.Machine.execQpush f s
  | .qpop f => Sys2Proof.Machine.execQpop f s
  | .qpeek f => Sys2Proof.Machine.execQpeek f s
  | .qcnt f => Sys2Proof.Machine.execQcnt f s
  | .bqpush f => Sys2Proof.Machine.execBqpush f s
  | .vpopq f => Sys2Proof.Machine.execVpopq f s
  | .vpushq f => Sys2Proof.Machine.execVpushq f s
  | .cld f => Sys2Proof.Machine.execCld f s
  | .cst f => Sys2Proof.Machine.execCst f s
  | .cnarrow f => Sys2Proof.Machine.execCnarrow f s
  | .crights f => Sys2Proof.Machine.execCrights f s
  | .coff f => Sys2Proof.Machine.execCoff f s
  | .cget f => Sys2Proof.Machine.execCget f s
  | .clgen f => Sys2Proof.Machine.execClgen f s
  | .ld f => Sys2Proof.Machine.execLd f s
  | .st f => Sys2Proof.Machine.execSt f s
  | .ldt f => Sys2Proof.Machine.execLdt f s
  | .stt f => Sys2Proof.Machine.execStt f s
  | .pfL1 f => Sys2Proof.Machine.execPfL1 f s
  | .pfL2 f => Sys2Proof.Machine.execPfL2 f s
  | .cboClean f => Sys2Proof.Machine.execCboClean f s
  | .cboInval f => Sys2Proof.Machine.execCboInval f s
  | .cboFlush f => Sys2Proof.Machine.execCboFlush f s
  | .otqAttr f => Sys2Proof.Machine.execOtqAttr f s
  | .otqCnt f => Sys2Proof.Machine.execOtqCnt f s
  | .otqDims f => Sys2Proof.Machine.execOtqDims f s
  | .otqLayout f => Sys2Proof.Machine.execOtqLayout f s
  | .otqPlanes f => Sys2Proof.Machine.execOtqPlanes f s
  | .otqExt f => Sys2Proof.Machine.execOtqExt f s
  | .ldv f => Sys2Proof.Machine.execLdv f s
  | .vals f => Sys2Proof.Machine.execVals f s
  | .amo f => Sys2Proof.Machine.execAmo f s
  | .amoReduce f => Sys2Proof.Machine.execAmoReduce f s
  | .amofFadd f => Sys2Proof.Machine.execAmofFadd f s
  | .amofFmax f => Sys2Proof.Machine.execAmofFmax f s
  | .cas f => Sys2Proof.Machine.execCas f s
  | .casv f => Sys2Proof.Machine.execCasv f s
  | .fence f => Sys2Proof.Machine.execFence f s
  | .acq f => Sys2Proof.Machine.execAcq f s
  | .rel f => Sys2Proof.Machine.execRel f s
  | .swait f => Sys2Proof.Machine.execSwait f s
  | .swaitTake f => Sys2Proof.Machine.execSwaitTake f s
  | .ssig f => Sys2Proof.Machine.execSsig f s
  | .sadd f => Sys2Proof.Machine.execSadd f s
  | .bara f => Sys2Proof.Machine.execBara f s
  | .barw f => Sys2Proof.Machine.execBarw f s
  | .evpop f => Sys2Proof.Machine.execEvpop f s
  | .evpopPoll f => Sys2Proof.Machine.execEvpopPoll f s
  | .vadd f => Sys2Proof.Machine.execVadd f s
  | .vsub f => Sys2Proof.Machine.execVsub f s
  | .vmul f => Sys2Proof.Machine.execVmul f s
  | .vfma f => Sys2Proof.Machine.execVfma f s
  | .vfms f => Sys2Proof.Machine.execVfms f s
  | .vnfma f => Sys2Proof.Machine.execVnfma f s
  | .vmin f => Sys2Proof.Machine.execVmin f s
  | .vmax f => Sys2Proof.Machine.execVmax f s
  | .vabs f => Sys2Proof.Machine.execVabs f s
  | .vneg f => Sys2Proof.Machine.execVneg f s
  | .vrcp f => Sys2Proof.Machine.execVrcp f s
  | .vrsq f => Sys2Proof.Machine.execVrsq f s
  | .vsqrt f => Sys2Proof.Machine.execVsqrt f s
  | .vexp2 f => Sys2Proof.Machine.execVexp2 f s
  | .vlog2 f => Sys2Proof.Machine.execVlog2 f s
  | .vtanh f => Sys2Proof.Machine.execVtanh f s
  | .vsin f => Sys2Proof.Machine.execVsin f s
  | .vcos f => Sys2Proof.Machine.execVcos f s
  | .vcvt f => Sys2Proof.Machine.execVcvt f s
  | .vscale f => Sys2Proof.Machine.execVscale f s
  | .vscaleVec f => Sys2Proof.Machine.execVscaleVec f s
  | .vseed f => Sys2Proof.Machine.execVseed f s
  | .vcmp f => Sys2Proof.Machine.execVcmp f s
  | .vsel f => Sys2Proof.Machine.execVsel f s
  | .vand f => Sys2Proof.Machine.execVand f s
  | .vor f => Sys2Proof.Machine.execVor f s
  | .vxor f => Sys2Proof.Machine.execVxor f s
  | .vnot f => Sys2Proof.Machine.execVnot f s
  | .vshl f => Sys2Proof.Machine.execVshl f s
  | .vshr f => Sys2Proof.Machine.execVshr f s
  | .vsra f => Sys2Proof.Machine.execVsra f s
  | .viadd f => Sys2Proof.Machine.execViadd f s
  | .visub f => Sys2Proof.Machine.execVisub f s
  | .vimul f => Sys2Proof.Machine.execVimul f s
  | .vimin f => Sys2Proof.Machine.execVimin f s
  | .vimax f => Sys2Proof.Machine.execVimax f s
  | .vred f => Sys2Proof.Machine.execVred f s
  | .vperm f => Sys2Proof.Machine.execVperm f s
  | .vbcast f => Sys2Proof.Machine.execVbcast f s
  | .vbcastLane f => Sys2Proof.Machine.execVbcastLane f s
  | .vins f => Sys2Proof.Machine.execVins f s
  | .vext f => Sys2Proof.Machine.execVext f s
  | .vmov f => Sys2Proof.Machine.execVmov f s
  | .vmovP f => Sys2Proof.Machine.execVmovP f s
  | .vmovV f => Sys2Proof.Machine.execVmovV f s
  | .vlds f => Sys2Proof.Machine.execVlds f s
  | .vldsFifo f => Sys2Proof.Machine.execVldsFifo f s
  | .vsts f => Sys2Proof.Machine.execVsts f s
  | .vstsFifo f => Sys2Proof.Machine.execVstsFifo f s
  | .vldsx f => Sys2Proof.Machine.execVldsx f s
  | .vsmax f => Sys2Proof.Machine.execVsmax f s
  | .vmerge f => Sys2Proof.Machine.execVmerge f s
  | .vquant f => Sys2Proof.Machine.execVquant f s
  | .vdeq f => Sys2Proof.Machine.execVdeq f s
  | .mxlease f => Sys2Proof.Machine.execMxlease f s
  | .mxfree f => Sys2Proof.Machine.execMxfree f s
  | .mxmul f => Sys2Proof.Machine.execMxmul f s
  | .mxmulc f => Sys2Proof.Machine.execMxmulc f s
  | .mxzero f => Sys2Proof.Machine.execMxzero f s
  | .mxzeroBlk f => Sys2Proof.Machine.execMxzeroBlk f s
  | .mxrd f => Sys2Proof.Machine.execMxrd f s
  | .mxrdBand f => Sys2Proof.Machine.execMxrdBand f s
  | .mxwr f => Sys2Proof.Machine.execMxwr f s
  | .tld f => Sys2Proof.Machine.execTld f s
  | .tst f => Sys2Proof.Machine.execTst f s
  | .tsl f => Sys2Proof.Machine.execTsl f s
  | .ttran f => Sys2Proof.Machine.execTtran f s
  | .cpy f => Sys2Proof.Machine.execCpy f s
  | .cpySt f => Sys2Proof.Machine.execCpySt f s
  | .cpyl f => Sys2Proof.Machine.execCpyl f s
  | .cpylSt f => Sys2Proof.Machine.execCpylSt f s
  | .cpylOo f => Sys2Proof.Machine.execCpylOo f s
  | .gath f => Sys2Proof.Machine.execGath f s
  | .scat f => Sys2Proof.Machine.execScat f s
  | .halo f => Sys2Proof.Machine.execHalo f s
  | .reshd f => Sys2Proof.Machine.execReshd f s
  | .reshdInst f => Sys2Proof.Machine.execReshdInst f s
  | .send f => Sys2Proof.Machine.execSend f s
  | .sendt f => Sys2Proof.Machine.execSendt f s
  | .mcast f => Sys2Proof.Machine.execMcast f s
  | .recvadd f => Sys2Proof.Machine.execRecvadd f s
  | .attn f => Sys2Proof.Machine.execAttn f s
  | .attnc f => Sys2Proof.Machine.execAttnc f s
  | .kvmap f => Sys2Proof.Machine.execKvmap f s
  | .kvmapLen f => Sys2Proof.Machine.execKvmapLen f s
  | .kvunmap f => Sys2Proof.Machine.execKvunmap f s
  | .cursRd f => Sys2Proof.Machine.execCursRd f s
  | .cursPlay f => Sys2Proof.Machine.execCursPlay f s
  | .cursGen f => Sys2Proof.Machine.execCursGen f s
  | .cursInit f => Sys2Proof.Machine.execCursInit f s
  | .cursFree f => Sys2Proof.Machine.execCursFree f s
  | .cursRdc f => Sys2Proof.Machine.execCursRdc f s
  | .trunc f => Sys2Proof.Machine.execTrunc f s
  | .commit f => Sys2Proof.Machine.execCommit f s
  | .commitSnap f => Sys2Proof.Machine.execCommitSnap f s
  | .sinpop f => Sys2Proof.Machine.execSinpop f s
  | .launch f => Sys2Proof.Machine.execLaunch f s
  | .csrrSysFlstat f => Sys2Proof.Machine.execCsrrSysFlstat f s
  | .csrr f => Sys2Proof.Machine.execCsrr f s
  | .csrwSysCause f => Sys2Proof.Machine.execCsrwSysCause f s
  | .csrwSysPrio f => Sys2Proof.Machine.execCsrwSysPrio f s
  | .csrwSysSave f => Sys2Proof.Machine.execCsrwSysSave f s
  | .csrwSysFq f => Sys2Proof.Machine.execCsrwSysFq f s
  | .csrwSysFlog f => Sys2Proof.Machine.execCsrwSysFlog f s
  | .csrw f => Sys2Proof.Machine.execCsrw f s
  | .trap f => Sys2Proof.Machine.execTrap f s
  | .resumeRetry f => Sys2Proof.Machine.execResumeRetry f s
  | .resumeSkip f => Sys2Proof.Machine.execResumeSkip f s
  | .resumeCont f => Sys2Proof.Machine.execResumeCont f s
  | .resumeKill f => Sys2Proof.Machine.execResumeKill f s
  | .resumePark f => Sys2Proof.Machine.execResumePark f s
  | .resumeAbort f => Sys2Proof.Machine.execResumeAbort f s
  | .featTest f => Sys2Proof.Machine.execFeatTest f s
  | .featReq f => Sys2Proof.Machine.execFeatReq f s
  | .otinvExt f => Sys2Proof.Machine.execOtinvExt f s
  | .otinvObj f => Sys2Proof.Machine.execOtinvObj f s
  | .otinvAll f => Sys2Proof.Machine.execOtinvAll f s
  | .btinvAll f => Sys2Proof.Machine.execBtinvAll f s
  | .btinvSeq f => Sys2Proof.Machine.execBtinvSeq f s
  | .idle f => Sys2Proof.Machine.execIdle f s
  | .yield f => Sys2Proof.Machine.execYield f s
  | .remain f => Sys2Proof.Machine.execRemain f s
  | .cfgbankCache f => Sys2Proof.Machine.execCfgbankCache f s
  | .cfgbankScratch f => Sys2Proof.Machine.execCfgbankScratch f s
  | .cfgbankFifo f => Sys2Proof.Machine.execCfgbankFifo f s
  | .mxmulEntry a => Sys2Proof.Machine.execMxmulEntry a s
  | .leaseGrant a => Sys2Proof.Machine.execLeaseGrant a s
  | .leaseTimeout a => Sys2Proof.Machine.execLeaseTimeout a s
  | .bankModeComplete a b => Sys2Proof.Machine.execBankModeComplete a b s
  | .engineEntryStart a => Sys2Proof.Machine.execEngineEntryStart a s
  | .engineEntryComplete a => Sys2Proof.Machine.execEngineEntryComplete a s
  | .haloFaceArrival a b => Sys2Proof.Machine.execHaloFaceArrival a b s
  | .reshdRendezvous a b => Sys2Proof.Machine.execReshdRendezvous a b s
  | .reshdInstRendezvous a b => Sys2Proof.Machine.execReshdInstRendezvous a b s
  | .sendtFire a => Sys2Proof.Machine.execSendtFire a s
  | .attnPage a => Sys2Proof.Machine.execAttnPage a s
  | .tiermiss a => Sys2Proof.Machine.execTiermiss a s
  | .frame a b => Sys2Proof.Machine.execFrame a b s
  | .hostLaunch a b c => Sys2Proof.Machine.execHostLaunch a b c s
  | .launchAccept a => Sys2Proof.Machine.execLaunchAccept a s
  | .launchEvaluate a b c => Sys2Proof.Machine.execLaunchEvaluate a b c s
  | .dependenceReport a b c => Sys2Proof.Machine.execDependenceReport a b c s
  | .crewPlace a => Sys2Proof.Machine.execCrewPlace a s
  | .taskStart a b c => Sys2Proof.Machine.execTaskStart a b c s
  | .stratumEnd a b c => Sys2Proof.Machine.execStratumEnd a b c s
  | .launchComplete a b => Sys2Proof.Machine.execLaunchComplete a b s
  | .tokenRefill a => Sys2Proof.Machine.execTokenRefill a s
  | .skipBlock a b => Sys2Proof.Machine.execSkipBlock a b s
  | .residency a b c => Sys2Proof.Machine.execResidency a b c s
  | .preempt a b => Sys2Proof.Machine.execPreempt a b s
  | .drainWindowExpiry a b c => Sys2Proof.Machine.execDrainWindowExpiry a b c s
  | .checkpoint a b c => Sys2Proof.Machine.execCheckpoint a b c s
  | .crewRestore a => Sys2Proof.Machine.execCrewRestore a s
  | .watchdog a b => Sys2Proof.Machine.execWatchdog a b s
  | .watchdogEngine a => Sys2Proof.Machine.execWatchdogEngine a s
  | .faultRecordPost a => Sys2Proof.Machine.execFaultRecordPost a s
  | .supervisorRestart a => Sys2Proof.Machine.execSupervisorRestart a s
  | .walkComplete a b c d => Sys2Proof.Machine.execWalkComplete a b c d s
  | .heldAccessProceed a b => Sys2Proof.Machine.execHeldAccessProceed a b s
  | .sideLogReplay a => Sys2Proof.Machine.execSideLogReplay a s
  | .lineFill a b => Sys2Proof.Machine.execLineFill a b s
  | .extentMigration a b c d => Sys2Proof.Machine.execExtentMigration a b c d s
  | .migrationWindow a => Sys2Proof.Machine.execMigrationWindow a s
  | .write a b => Sys2Proof.Machine.execWrite a b s
  | .read a b => Sys2Proof.Machine.execRead a b s
  | .rdata a b => Sys2Proof.Machine.execRdata a b s
  | .atomic a b => Sys2Proof.Machine.execAtomic a b s
  | .aresp a b => Sys2Proof.Machine.execAresp a b s
  | .ack a b => Sys2Proof.Machine.execAck a b s
  | .refuse a b => Sys2Proof.Machine.execRefuse a b s
  | .busy a b => Sys2Proof.Machine.execBusy a b s
  | .busyResend a b => Sys2Proof.Machine.execBusyResend a b s
  | .demand a b => Sys2Proof.Machine.execDemand a b s
  | .grant a b => Sys2Proof.Machine.execGrant a b s
  | .grantExpiry a b => Sys2Proof.Machine.execGrantExpiry a b s
  | .flag a b => Sys2Proof.Machine.execFlag a b s
  | .semadd a b => Sys2Proof.Machine.execSemadd a b s
  | .forward a b => Sys2Proof.Machine.execForward a b s
  | .stream a b => Sys2Proof.Machine.execStream a b s
  | .mgmt a b => Sys2Proof.Machine.execMgmt a b s
  | .regmr a b => Sys2Proof.Machine.execRegmr a b s
  | .deregmr a b => Sys2Proof.Machine.execDeregmr a b s
  | .resync a b c => Sys2Proof.Machine.execResync a b c s
  | .nop a b => Sys2Proof.Machine.execNop a b s
  | .pactCreate a b c => Sys2Proof.Machine.execPactCreate a b c s
  | .pactResize a b c => Sys2Proof.Machine.execPactResize a b c s
  | .pactCoreReset a b c => Sys2Proof.Machine.execPactCoreReset a b c s
  | .pactUncoreReset a b c => Sys2Proof.Machine.execPactUncoreReset a b c s
  | .pactDestroy a b c => Sys2Proof.Machine.execPactDestroy a b c s
  | .partitionDrainDone a => Sys2Proof.Machine.execPartitionDrainDone a s
  | .scrubComplete a b => Sys2Proof.Machine.execScrubComplete a b s
  | .markAdmin a b => Sys2Proof.Machine.execMarkAdmin a b s
  | .firmwareDelivery a b => Sys2Proof.Machine.execFirmwareDelivery a b s
  | .svnFloorRaise a b => Sys2Proof.Machine.execSvnFloorRaise a b s
  | .packageReset a b c => Sys2Proof.Machine.execPackageReset a b c s
  | .uncorrectableError a b c => Sys2Proof.Machine.execUncorrectableError a b c s
  | .powerCap a b => Sys2Proof.Machine.execPowerCap a b s
  | .powerCapTick a b => Sys2Proof.Machine.execPowerCapTick a b s
  | .clockReport a b c => Sys2Proof.Machine.execClockReport a b c s
  | .thermalTrip a b c => Sys2Proof.Machine.execThermalTrip a b c s
  | .matrixEntryComplete a => Sys2Proof.Machine.execMatrixEntryComplete a s
  | .resultLanding a => Sys2Proof.Machine.execResultLanding a s
  | .correctedError a b c => Sys2Proof.Machine.execCorrectedError a b c s
  | .cnp a b => Sys2Proof.Machine.execCnp a b s
  | .invalidRequest a b => Sys2Proof.Machine.execInvalidRequest a b s
  | .unknownOp a b => Sys2Proof.Machine.execUnknownOp a b s
  | .securedSessionOpen a b => Sys2Proof.Machine.execSecuredSessionOpen a b s

end Sys2Proof.Machine
end

