-- ==== Sys2Proof/Machine/Fetch.lean ====
section
/-! DEFINITION. Fetching the word of the executing strand through its kernel capability (R131, R155), the decode checks
of a word that names no form (R172, R173), and the turns of the agenda (log 1). -/

namespace Sys2Proof.Machine

/-- A fetch gives an instruction to run, or the state in which the strand has not executed one. -/
inductive Fetched
  | run (i : Instr) (s : State)
  | stop (s : State)
  deriving DecidableEq, Repr

/-- The majors of R169 that only the XS executes, where the function names no form. -/
def xsMajor (m : Nat) : Bool := decide (0x60 ≤ m ∧ m ≤ 0xAA)
/-- The majors of R169 that both strands execute. -/
def eitherMajor (m : Nat) : Bool := decide (m ≤ 0x2F ∨ (0xE0 ≤ m ∧ m ≤ 0xE2) ∨ m = 0xE4)
/-- The SYS.FEATURE bits of a major whose function names no form: check 5 comes before the function is refused (R173). -/
def majorBits (w : W64) : W64 :=
  let m := bitsN w 56 8
  if 0x60 ≤ m ∧ m ≤ 0x8F then fmtBits (FmtV.ofWord w)
  else if 0xA0 ≤ m ∧ m ≤ 0xAA then tBits (FmtT.ofWord w)
  else if m = 0x4A then bit 1
  else if m = 0xB5 then bit 7
  else if (0xBA ≤ m ∧ m ≤ 0xBD) ∨ m = 0xE6 then bit 6
  else if 0xBE ≤ m ∧ m ≤ 0xC1 then bit 5
  else 0
/-- A word that names no form takes ILLEGAL or FEATURE by the first check of R173 that fails. -/
def badWord (s : State) (h : Here) (w : W64) : State :=
  let m := bitsN w 56 8
  if 0xF0 ≤ m then
    let k := m - 0xF0
    if h.k.feature.getLsbD (48 + k) && !h.k.feature.getLsbD (32 + k) then takeFault s h 2 w (bit (32 + k))
    else takeFault s h 1 w
  else if !majorAssigned m then takeFault s h 1 w
  else
    let strand := eitherMajor m || (xsMajor m == (h.x == .xs))
    let lack := majorBits w &&& ~~~ h.k.feature
    if strand && lack != 0 then takeFault s h 2 w lack else takeFault s h 1 w

/-- The access of a fetch: eight bytes at the program counter inside the kernel capability (R131). -/
def fetchCheck (s : State) (h : Here) : State × Chk :=
  checkAcc s (whoOf h) 0 h.t.kcap { rights := rEXEC, n := 8, align := 8, again := (strandOf h.t h.x).fetchPast } (capBase h.t.kcap + (pcOf h).toNat : Nat)
/-- The published word at a translated place. Records of stores to it do not stop a fetch: the word is the old one or the
new one (R155, log 21). -/
def fetchWord (s : State) (r : Res) : W64 := BitVec.ofNat 64 (lineGet (homeLine s r).data (r.loc.byte % 256) 8)
/-- A fetch goes through no capability register, so the register that R328 puts into D1 of CAPBOUND and CAPRIGHTS and D0 of
CAPTAG is a free value (log 59). -/
def fetchDetail (s : State) (f : FInfo) : FInfo :=
  if f.cls = 3 ∨ f.cls = 4 then { f with d1 := Config.freeBits s.free 900 }
  else if f.cls = 5 then { f with d0 := Config.freeBits s.free 900 } else f
/-- A checked fetch goes on with the instruction of its word. -/
def fetchOf (h : Here) (c : State × Chk) : Fetched :=
  match c.2 with
  | .fault f => .stop (faultOf { c.1 with free := c.1.free + 1 } h (fetchDetail c.1 f))
  | .moving => .stop (hold h .fetch c.1)
  | .unmapped r => .stop (hold h .extent (postExtent c.1 (whoOf h) r))
  | .ok r =>
    match refusesFrom c.1 h.core.die r.home r.pa with
    | some n => .stop (refusedFault c.1 h n 0 r)
    | none =>
      match decodeRaw (fetchWord c.1 r) with
      | some i => .run i c.1
      | none => .stop (badWord c.1 h (fetchWord c.1 r))
/-- Fetch at the executing strand. A core without a task, a suspended task, a crew under capture and an ended strand
execute nothing (R196, R326, R331). -/
def fetch (s : State) : Fetched :=
  match here s with
  | none => .stop s
  | some h =>
    if h.t.susp.isSome || capturing s (CoreId.cluster h.core) h.t.pid h.t.taskId then .stop s
    else if (strandOf h.t h.x).ended then .stop { s with cur := some { core := h.core, x := otherStrand h.x } }
    else fetchOf h (fetchCheck s h)

/-! ### A place for one instruction (log 3) -/

/-- The partition of one slab of die 0 that `withFetchWord` installs (R27, R28). -/
def firstSlab : SlabId := ⟨0, 0⟩
def firstPart : Part := { shape := 0, lo := 0, hi := 0, dies := [0], slabs := [firstSlab], limit := Config.launchLimit }
/-- The strand that may execute the word: the XS for a form of the XS alone, else the AS (R169). -/
def strandFor (w : W64) : Strand :=
  match decodeRaw w with
  | some i => if strandOk i .as then .as else .xs
  | none => .as
/-- The supervisor of slab 0 of die 0 stands at its firmware entry, on a core with nothing cached and no unit fenced. -/
def installSup (s : State) : State :=
  let c := supCore firstSlab
  let s1 := modCore { s with parts := ins s.parts Config.firstPid firstPart } c fun k =>
    { k with task := some (supTask Config.firstPid firstSlab s.ck), ecache := [] }
  let s2 := modSlab s1 firstSlab fun b =>
    { b with pid := Config.firstPid, supst := 0, shcache := [], fencedSlices := [], fencedChans := [], fence := false }
  modCluster (modDie s2 0 fun d => { d with live := true }) (CoreId.cluster c) fun k => { k with crews := [] }
/-- The word stands at the firmware entry and its strand is next. -/
def placeWord (s : State) (w : W64) : State :=
  physWrite { installSup s with agenda := [], cur := some { core := supCore firstSlab, x := strandFor w } }
    (slabBase firstSlab + Config.supEntry) (bytesOfWord w)

/-- One cycle has passed (log 1). -/
def tick (s : State) : State := { s with ck := s.ck + 1 }
/-- The strand that stands in `cur`, or no strand, stands on a die that exists (R2). -/
def curExists (s : State) : Bool := match s.cur with | some c => dieExists c.core.die | none => true

end Sys2Proof.Machine
end

