-- ==== Sys2Proof/Machine/Turn.lean ====
section
/-! DEFINITION. The turn of a strand, the fault of both strands of a core in one cycle (R326), and what the units that act on their
own note between two steps (R150, R152, R355; log 1). -/

namespace Sys2Proof.Machine

/-- The strand in `cur` fetches and executes one instruction. -/
def runStrand (s : State) : Host.Outcome State Fault Refusal :=
  match fetch s with
  | .stop s1 => .next s1
  | .run i s1 => exec i s1
/-- The fault that suspends the task of the core in `cur` by the strand with source code `src`, if the strand's turn takes one. -/
def faultOfTurn (s t : State) (c : CoreId) (src : Nat) : Bool :=
  match (coreAt s c).task, (coreAt t c).task with
  | some a, some b => a.susp.isNone && (match b.susp with | some r => r.src == src && r.cls != 12 | none => false)
  | _, _ => false
/-- The XS of the core would take a fault at its next instruction too. -/
def xsFaults (s : State) (c : CoreId) : Bool :=
  match runStrand { s with cur := some { core := c, x := .xs } } with
  | .next t => faultOfTurn s t c 9
  | _ => false
def markLast (l : List FaultRec) : List FaultRec :=
  l.zipIdx.map fun x => if x.2 + 1 = l.length then { x.1 with more := true } else x.1
/-- The record of the task's fault says that the other strand also faulted. -/
def setMore (s : State) (c : CoreId) : State :=
  match (coreAt s c).task with
  | none => s
  | some t =>
    let s1 := modTask s c fun x => { x with susp := x.susp.map fun r => { r with more := true } }
    if isSup t then modPkg s1 (pkgOf c.die) fun p => { p with frecs := markLast p.frecs }
    else modSlab s1 (coreSlab c) fun b => { b with pending := markLast b.pending }
/-- After the turn `s` to `t` of the strand in `cur`: when the AS has faulted and the XS would fault as well, both may have done so
in one cycle; the AS's record then has MORE = 1 and the XS's instruction has not executed (R326; log 90). -/
def bothFault (s t : State) : State :=
  match s.cur with
  | some ⟨c, .as⟩ => if faultOfTurn s t c 8 && xsFaults s c && Config.freePick s.free 950 then setMore t c else t
  | _ => t
/-- A buffer of a die fills or empties (R350). -/
def setBuffer (s : State) (d : DieId) (ty : Nat) (on : Bool) : State :=
  modDie s d fun x => { x with full := (x.full.filter (· != ty)) ++ (if on then [ty] else []) }
/-- Between two steps: the barrier units and schedulers note their conditions, and queue pairs act on commands whose wait is
over. -/
def settled (s : State) : State := settleQueues (between s)

end Sys2Proof.Machine
end

