-- ==== Sys2Proof/Machine/Step.lean ====
section
/-! DEFINITION. One step: the next turn of the agenda or, with none listed, the next instruction of the current strand
(R146, R155; log 1). -/

namespace Sys2Proof.Machine

/-- The current strand fetches and executes, and one cycle passes. -/
def stepStrand (s : State) : Host.Outcome State Fault Refusal :=
  if !curExists s then .fault .noSuchDie
  else match runStrand s with
    | .next t => .next (settled (tick (bothFault s t)))
    | .fault r => .fault r
    | .refused r => .refused r

/-- An event of the table takes its turn; an instruction form is no event and is dropped. -/
def stepEvent (e : Instr) (s : State) : Host.Outcome State Fault Refusal :=
  if (encode e).isSome then .next s
  else match exec e s with
    | .next t => .next (settled t)
    | .fault r => .fault r
    | .refused r => .refused r

def step (s : State) : Host.Outcome State Fault Refusal :=
  match s.agenda with
  | [] => stepStrand s
  | .event e :: r => stepEvent e { s with agenda := r }
  | .strand c x :: r => stepStrand { s with agenda := r, cur := some { core := c, x := x } }
  | .elapse n :: r => .next (settled { s with agenda := r, ck := s.ck + n })
  | .buffer d ty on :: r => .next (settled (setBuffer { s with agenda := r } d ty on))
  | .compress d k on :: r => .next (settled (setCompress { s with agenda := r } d k on))
  | .boot pkg :: r => .next (settled (recover { s with agenda := r } pkg))
  | .transfer pkg img :: r => .next (settled (beginTransfer { s with agenda := r } pkg img))
  | .training pkg lf cf pf w :: r => .next (settled (setTraining { s with agenda := r } pkg lf cf pf w))
  | .partStep pid :: r => .next (settled (partStep { s with agenda := r } pid))
  | .capture pkg d :: r => .next (settled (capture { s with agenda := r } pkg d))

/-- The word stands where the next step fetches (log 3): every instruction is one word of eight bytes. -/
def State.withFetchWord (s : State) (_nbits w : Nat) : State := placeWord s (BitVec.ofNat 64 w)

end Sys2Proof.Machine
end

