-- ==== Sys2Proof/Safety.lean ====
section
/-! DEFINITION. The terms in which claims about the machine are stated. -/

namespace Sys2Proof.Machine

/-- The conditions on the state alone under which a form has its own effect on the executing strand: a resident task that is
neither suspended nor under capture (R326, R331), the decode checks 4 to 7 of R173, no register that waits for an engine
result (R276), no restored side log still to replay (R93). -/
def Ready (i : Instr) (s : State) (h : Here) : Prop :=
  here s = some h ∧ h.t.susp = none ∧ capturing s (CoreId.cluster h.core) h.t.pid h.t.taskId = false ∧
  strandOk i h.x = true ∧ featuresOf i &&& ~~~ h.k.feature = 0 ∧ fieldsOk i = true ∧
  (supOnly i = true → isSup h.t = true) ∧ interlocked h i = false ∧ (h.t.replay = true → h.t.side = [])

/-- Everything of the machine but the task of one core and the counter of free values is the same. -/
def OnlyTask (s t : State) (c : CoreId) : Prop :=
  t.ck = s.ck ∧ t.mem = s.mem ∧ t.memTags = s.memTags ∧ t.hostMem = s.hostMem ∧ t.l2 = s.l2 ∧ t.clusters = s.clusters ∧
  t.slabs = s.slabs ∧ t.dies = s.dies ∧ t.parts = s.parts ∧ t.pkgs = s.pkgs ∧ t.net = s.net ∧ t.agenda = s.agenda ∧
  t.serial = s.serial ∧ (∀ d, d ≠ c → coreAt t d = coreAt s d) ∧
  coreAt t c = { coreAt s c with task := (coreAt t c).task }

/-- Every byte of physical memory reads as before. -/
def MemSame (s t : State) : Prop := ∀ a, physByte t a = physByte s a

/-- The instruction has its effect and its strand goes on at `pc`: the state after differs from the state before only in the
executing task, which is `tk` with that strand advanced. -/
def Retires (s t : State) (h : Here) (pc : W64) (tk : Task) : Prop :=
  OnlyTask s t h.core ∧ t.cur = s.cur ∧ MemSame s t ∧ (coreAt t h.core).task = some (advance h.x pc tk)

/-- The executing strand holds at its instruction: nothing else of the machine changes and the other strand is next. -/
def Holds (s t : State) (h : Here) (why : HoldWhy) : Prop :=
  OnlyTask s t h.core ∧ MemSame s t ∧ t.free = s.free ∧ t.cur = some { core := h.core, x := otherStrand h.x } ∧
  ∃ n, (coreAt t h.core).task = some (setStrand h.t h.x { notePast why (strandOf h.t h.x) with held := some ⟨why, n⟩ })

/-- Memory is in canonical form, the part's and the hosts'. -/
def MemoryOk (s : State) : Prop := Memory.wf s.mem = true ∧ Memory.wf s.hostMem = true

end Sys2Proof.Machine
end

