-- ==== Sys2Proof/Certificates/Slice0/Obligations.lean ====
section
/-! DEFINITION. The obligations: statements for the provers, with the terms they share. -/

open Sys2Proof Sys2Proof.Machine

namespace Sys2Proof.Claims

/-- The instruction executes, retires at `pc` and leaves the executing task as `tk` with that strand advanced. -/
def Goes (i : Instr) (s : State) (h : Here) (pc : W64) (tk : Task) : Prop :=
  ∃ t, exec i s = .next t ∧ Retires s t h pc tk

/-- The instruction takes a precise fault (R326): class and detail words D0 to D2, object. -/
def Faults (i : Instr) (s : State) (h : Here) (cls : Nat) (d0 : W64 := 0) (d1 : W64 := 0) (d2 : W64 := 0)
    (oid : BitVec 32 := 0) : Prop :=
  exec i s = .next (takeFault s h cls d0 d1 d2 oid)

/-- The state in which the strand of this step executes: the current strand, or the one that the agenda lists. -/
def turnOf (s : State) : Option State :=
  match s.agenda with
  | [] => some s
  | .strand c x :: r => some { s with agenda := r, cur := some { core := c, x := x } }
  | _ => none

/-- The strand `h` fetches the word `w`, and the machine is then `s1` (R131, R155): it may issue, its kernel capability
admits the eight bytes at its program counter, and rings reach their home, which serves them. -/
def Fetches (s : State) (h : Here) (s1 : State) (w : W64) : Prop :=
  curExists s = true ∧ here s = some h ∧ h.t.susp = none ∧
  capturing s (CoreId.cluster h.core) h.t.pid h.t.taskId = false ∧ (strandOf h.t h.x).ended = false ∧
  ∃ r, fetchCheck s h = (s1, .ok r) ∧ refusesFrom s1 h.core.die r.home r.pa = none ∧ w = fetchWord s1 r

end Sys2Proof.Claims

open Sys2Proof.Claims in
/-- A strand's step is exec of the decoded instruction (R131, R155, R173); that a strand step takes one cycle and that an agenda
lists the turns is the model's choice (log 1), as is what `bothFault` adds when both strands of a core fault (R326, log 90);
`settled` is what units that act on their own note between two steps (R150, R355). -/
def Obligations.StepRunsDecodedInstruction : Prop :=
  ∀ (s s0 s1 t : State) (h : Here) (w : W64) (i : Instr), turnOf s = some s0 → Fetches s0 h s1 w → decode w = .ok i →
    exec i s1 = .next t →
    step s = .next (settled (tick (bothFault s0 t))) ∧
    (h.x = .xs ∨ (∀ tk, (coreAt t h.core).task = some tk → tk.susp = none) → bothFault s0 t = t)

open Sys2Proof.Claims in
/-- R173: checks 1 to 3 on a fetched word, then checks 4 to 7 and privilege (R171, R308) on a form; the first that fails decides
the fault, with the details of R328. -/
def Obligations.DecodeChecks : Prop :=
  (∀ (s s0 s1 : State) (h : Here) (w : W64), turnOf s = some s0 → Fetches s0 h s1 w →
    let m := bitsN w 56 8
    let faults := fun (cls : Nat) (lack : W64) => step s = .next (settled (tick (bothFault s0 (takeFault s1 h cls w lack))))
    (m < 0xF0 → majorAssigned m = false → faults 1 0) ∧
    (0xF0 ≤ m → (h.k.feature.getLsbD (48 + (m - 0xF0)) = false → faults 1 0) ∧
      (h.k.feature.getLsbD (48 + (m - 0xF0)) = true → h.k.feature.getLsbD (32 + (m - 0xF0)) = false →
        faults 2 (bit (32 + (m - 0xF0)))))) ∧
  (∀ (i : Instr) (w : W64) (s : State) (h : Here), encode i = some w → here s = some h → h.t.susp = none →
    capturing s (CoreId.cluster h.core) h.t.pid h.t.taskId = false →
    let lack := featuresOf i &&& ~~~ h.k.feature
    (strandOk i h.x = false → Faults i s h 1 w) ∧
    (strandOk i h.x = true → lack ≠ 0 → Faults i s h 2 w lack) ∧
    (strandOk i h.x = true → lack = 0 → fieldsOk i = false ∨ (supOnly i = true ∧ isSup h.t = false) → Faults i s h 1 w))

open Sys2Proof.Claims in
/-- Words that the spec works out (R162, R173, R313) and what they stand for. -/
def Obligations.DecodesWrittenWords : Prop :=
  decode 0x000C414000B00000 = .ok (.add ⟨3, 4, 5, 0, 0, 0xB, 0⟩) ∧
  decode 0x6008384021100085 = .ok (.vadd ⟨2, 3, 0x21, 0, 4, 1, 1, 0, 0, 0x085⟩) ∧
  decode 0xE100500800000000 = .ok (.csrw ⟨0, 5, 8, 0, 0, 0, 0⟩) ∧
  decode 0xE200400000000021 = .ok (.trap ⟨0, 4, 0, 0, 0, 0, 0x21⟩) ∧
  decode 0xE308900002000000 = .ok (.resumeCont ⟨2, 9, 0, 0, 0, 2, 0⟩) ∧
  decode 0xE400500001000000 = .ok (.featReq ⟨0, 5, 0, 0, 0, 1, 0⟩) ∧
  decode 0xE50C700001000000 = .ok (.otinvObj ⟨3, 7, 0, 0, 0, 1, 0⟩) ∧
  decode 0xE600600001000000 = .ok (.btinvSeq ⟨0, 6, 0, 0, 0, 1, 0⟩) ∧
  decode 0xE710800000000000 = .ok (.idle ⟨4, 8, 0, 0, 0, 0, 0⟩) ∧
  decode 0xE80C000000000000 = .ok (.yield ⟨3, 0, 0, 0, 0, 0, 0⟩) ∧
  decode 0xE900000000000028 = .ok (.remain ⟨0, 0, 0, 0, 0, 0, 40⟩) ∧
  decode 0xEA00A00000000109 = .ok (.cfgbankCache ⟨0, 10, 0, 0, 0, 0, 0x109⟩) ∧
  decode 0x000C414100B00000 = .error .badField ∧ decode 0 = .error .badField ∧
  decode 0xD000000000000000 = .error .unassignedMajor ∧ decode 0xF200000000000000 = .error .undefinedExtension ∧
  decode 0x600420C010100000 = .error .badField

open Sys2Proof.Claims in
/-- No bit of an encoding is dropped: from an instruction to its eight little-endian bytes and back (R3, R155, R157 to R165,
R169). -/
def Obligations.EncodedBytesDecodeBack : Prop :=
  ∀ (i : Instr) (w : W64) (rest : List Byte), i.WellFormed → encode i = some w →
    decodeBytes (bytesOfWord w ++ rest) = .ok (i, rest)

open Sys2Proof.Claims in
/-- The other direction: a decoded word is the encoding of a well-formed instruction (R155, R156, R169, R173). -/
def Obligations.DecodedWordsEncodeBack : Prop :=
  ∀ (w : W64) (i : Instr), decode w = .ok i → i.WellFormed ∧ encode i = some w

open Sys2Proof.Claims in
/-- No instruction or event stops a run: the faults of the spec are next states (R129, R173, R326). -/
def Obligations.EveryRowAnswers : Prop := ∀ (i : Instr) (s : State), ∃ t, exec i s = .next t

open Sys2Proof.Claims in
/-- The memory of the part and of the hosts keeps its canonical form in every step (the model's form, log 5). -/
def Obligations.MemoryFormKept : Prop := ∀ (s t : State), MemoryOk s → step s = .next t → MemoryOk t

open Sys2Proof.Claims in
/-- State.reset holds the values that R172, R308, R361 and R363 give. R363 zero-fills HBM; that the expander's bytes read 0 too is the
model's choice (log 5). -/
def Obligations.ResetLeaves : Prop :=
  MemoryOk State.reset ∧ (∀ a, physByte State.reset a = 0) ∧ (∀ p, partAt State.reset p = none) ∧
  (∀ c, (coreAt State.reset c).task = none ∧ (coreAt State.reset c).feature = 0x3FF) ∧
  (∀ sl, (slabAt State.reset sl).drain = 20000 ∧ (slabAt State.reset sl).wdog = 0x4000 ∧ (slabAt State.reset sl).fq = 0 ∧
    (slabAt State.reset sl).flog = 0 ∧ (slabAt State.reset sl).flTail = 0 ∧ (slabAt State.reset sl).flLost = 0 ∧
    (slabAt State.reset sl).save = 0) ∧
  (∀ c n, semAt State.reset c n = 0) ∧ (∀ p, (pkgAt State.reset p).fwstate = 0)

open Sys2Proof.Claims in
/-- TAKING A FAULT (R326, R329): the instruction has no effect but the suspension and the record. -/
def Obligations.FaultEntry : Prop :=
  ∀ (s : State) (h : Here) (cls : Nat) (d0 d1 d2 : W64) (oid : BitVec 32), here s = some h →
    let t := takeFault s h cls d0 d1 d2 oid
    let r : FaultRec := { cls := cls, src := if h.x = .as then 8 else 9, susp := true, clus := h.core.core / 4,
                          cix := h.core.core % 4, oid := oid, taskId := h.t.taskId, ltag := h.t.crew.ltag,
                          lseq := h.t.crew.lseq, pc := pcOf h, d0 := d0, d1 := d1, d2 := d2 }
    let tk : Task := { h.t with susp := some r, windows := [], as := unheld h.t.as, xs := unheld h.t.xs,
                                remBase := remainOf s h.t, remAt := s.ck }
    (coreAt t h.core).task = some tk ∧ (∀ c, c ≠ h.core → coreAt t c = coreAt s c) ∧ MemSame s t ∧ t.l2 = s.l2 ∧
    t.clusters = s.clusters ∧ t.dies = s.dies ∧ t.parts = s.parts ∧ t.net = s.net ∧
    (∀ sl, sl ≠ coreSlab h.core → slabAt t sl = slabAt s sl) ∧
    (isSup h.t = false → t.pkgs = s.pkgs ∧
      slabAt t (coreSlab h.core) = { slabAt s (coreSlab h.core) with pending := (slabAt s (coreSlab h.core)).pending ++ [r] }) ∧
    (isSup h.t = true → (pkgAt t (pkgOf h.core.die)).frecs = (pkgAt s (pkgOf h.core.die)).frecs ++ [r] ∧
      slabAt t (coreSlab h.core) = { slabAt s (coreSlab h.core) with supst := 1 })

open Sys2Proof.Claims in
/-- The strands of a suspended task, and of a crew that is being captured, issue nothing (R326, R331). -/
def Obligations.SuspendedStrandsIssueNothing : Prop :=
  ∀ (i : Instr) (w : W64) (s : State) (h : Here), encode i = some w → here s = some h →
    h.t.susp.isSome = true ∨ capturing s (CoreId.cluster h.core) h.t.pid h.t.taskId = true → exec i s = .next s

namespace Sys2Proof.Claims

/-- The width of an integer type code (R36). -/
def tyN (ty : BitVec 4) : Nat :=
  match ty.toNat with | 8 => 8 | 9 => 16 | 10 => 32 | 11 => 64 | 12 => 8 | 13 => 16 | 14 => 32 | _ => 64
/-- The low n bits of a register, read signed and unsigned (R181). -/
def sInt (ty : BitVec 4) (v : W64) : Int := (v.truncate (tyN ty)).toInt
def uInt (ty : BitVec 4) (v : W64) : Int := (v.truncate (tyN ty)).toNat
/-- The n-bit result extended to 64 bits: signed for type codes 8 to 11 (R181). -/
def outW (ty : BitVec 4) (r : Int) : W64 :=
  if ty.toNat < 12 then (BitVec.ofInt (tyN ty) r).signExtend 64 else (BitVec.ofInt (tyN ty) r).setWidth 64
/-- Results of the forms with register operands (R182, R183, R184), from the 64 bits of Reg(sa), Reg(sb) and Reg(sc). -/
def twoOp (i : Instr) (a b c : W64) : Option (FmtR × Int) :=
  match i with
  | .add f => some (f, uInt f.ty a + uInt f.ty b)
  | .sub f => some (f, uInt f.ty a - uInt f.ty b)
  | .mul f => some (f, uInt f.ty a * uInt f.ty b)
  | .mulh f => some (f, sInt f.ty a * sInt f.ty b / 2 ^ tyN f.ty)
  | .mulhz f => some (f, uInt f.ty a * uInt f.ty b / 2 ^ tyN f.ty)
  | .div f => some (f, if sInt f.ty b = 0 then -1 else (sInt f.ty a).tdiv (sInt f.ty b))
  | .divz f => some (f, if uInt f.ty b = 0 then 2 ^ tyN f.ty - 1 else uInt f.ty a / uInt f.ty b)
  | .rem f => some (f, if sInt f.ty b = 0 then sInt f.ty a else (sInt f.ty a).tmod (sInt f.ty b))
  | .remz f => some (f, if uInt f.ty b = 0 then uInt f.ty a else uInt f.ty a % uInt f.ty b)
  | .and f => some (f, (a &&& b).toNat)
  | .or f => some (f, (a ||| b).toNat)
  | .xor f => some (f, (a ^^^ b).toNat)
  | .shl f => some (f, uInt f.ty a * 2 ^ (b.toNat % tyN f.ty))
  | .shr f => some (f, uInt f.ty a / 2 ^ (b.toNat % tyN f.ty))
  | .sra f => some (f, sInt f.ty a / 2 ^ (b.toNat % tyN f.ty))
  | .min f => some (f, min (sInt f.ty a) (sInt f.ty b))
  | .max f => some (f, max (sInt f.ty a) (sInt f.ty b))
  | .minz f => some (f, min (uInt f.ty a) (uInt f.ty b))
  | .maxz f => some (f, max (uInt f.ty a) (uInt f.ty b))
  | .slt f => some (f, if sInt f.ty a < sInt f.ty b then 1 else 0)
  | .sltz f => some (f, if uInt f.ty a < uInt f.ty b then 1 else 0)
  | .seq f => some (f, if uInt f.ty a = uInt f.ty b then 1 else 0)
  | .sel f => some (f, if c ≠ 0 then a.toNat else b.toNat)
  | _ => none
/-- Results of the forms with one register and an immediate (R182, R183), from the 64 bits of Reg(sa). -/
def immOp (i : Instr) (a : W64) : Option (FmtI × Int) :=
  match i with
  | .addi f => some (f, uInt f.ty a + f.imm.toInt)
  | .andi f => some (f, (a &&& f.imm.signExtend 64).toNat)
  | .ori f => some (f, (a ||| f.imm.signExtend 64).toNat)
  | .xori f => some (f, (a ^^^ f.imm.signExtend 64).toNat)
  | .shli f => some (f, uInt f.ty a * 2 ^ f.imm.toNat)
  | .shri f => some (f, uInt f.ty a / 2 ^ f.imm.toNat)
  | .srai f => some (f, sInt f.ty a / 2 ^ f.imm.toNat)
  | _ => none

end Sys2Proof.Claims

open Sys2Proof.Claims in
/-- R181, R182, R183 and R184 for the register forms; a write to register 0 is discarded (R156). -/
def Obligations.TwoOperandResults : Prop :=
  ∀ (i : Instr) (s : State) (h : Here) (f : FmtR) (r : Int),
    twoOp i (rdG s h f.sa) (rdG s h f.sb) (rdG s h f.sc) = some (f, r) → Ready i s h →
    Goes i s h (pcOf h + 8) (wrReg h.x f.dst.toNat (outW f.ty r) h.t)

open Sys2Proof.Claims in
/-- R181 to R183 for the immediate forms. -/
def Obligations.ImmediateResults : Prop :=
  ∀ (i : Instr) (s : State) (h : Here) (f : FmtI) (r : Int), immOp i (rdG s h f.sa) = some (f, r) → Ready i s h →
    Goes i s h (pcOf h + 8) (wrReg h.x f.dst.toNat (outW f.ty r) h.t)

open Sys2Proof.Claims in
/-- R185 and R186. -/
def Obligations.OneOperandResults : Prop :=
  ∀ (s : State) (h : Here) (f : FmtR) (g : FmtI),
    let n := tyN f.ty
    let x := (rdG s h f.sa).toNat % 2 ^ n
    let put := fun (v : Int) => wrReg h.x f.dst.toNat (outW f.ty v) h.t
    (Ready (.clz f) s h → (x = 0 → Goes (.clz f) s h (pcOf h + 8) (put n)) ∧
      ∀ k : Nat, k < n → 2 ^ (n - 1 - k) ≤ x → x < 2 ^ (n - k) → Goes (.clz f) s h (pcOf h + 8) (put k)) ∧
    (Ready (.ctz f) s h → (x = 0 → Goes (.ctz f) s h (pcOf h + 8) (put n)) ∧
      ∀ k : Nat, k < n → x % 2 ^ (k + 1) = 2 ^ k → Goes (.ctz f) s h (pcOf h + 8) (put k)) ∧
    (Ready (.popc f) s h → Goes (.popc f) s h (pcOf h + 8) (put ((List.range n).countP fun i => x.testBit i))) ∧
    (Ready (.mov f) s h → Goes (.mov f) s h (pcOf h + 8) (put x)) ∧
    (Ready (.ext f) s h → Goes (.ext f) s h (pcOf h + 8) (put (rdG s h f.sa >>> ((rdG s h f.sb).toNat % 64)).toNat)) ∧
    (Ready (.li g) s h → Goes (.li g) s h (pcOf h + 8) (wrReg h.x g.dst.toNat
      (if g.ty.toNat < 12 then outW g.ty g.imm.toInt else outW g.ty g.imm.toNat) h.t)) ∧
    (Ready (.lih g) s h → Goes (.lih g) s h (pcOf h + 8)
      (wrReg h.x g.dst.toNat (g.imm ++ (rdG s h g.dst).truncate 32) h.t))

open Sys2Proof.Claims in
/-- R156: a0 and x0 read 0, and a write to them leaves the whole state as it was. -/
def Obligations.RegisterZero : Prop :=
  ∀ (s : State) (h : Here) (v : W64), here s = some h → rdG s h 0 = 0 ∧
    let t := wrG h 0 v s
    OnlyTask s t h.core ∧ t.cur = s.cur ∧ t.free = s.free ∧ ∀ c, coreAt t c = coreAt s c

namespace Sys2Proof.Claims

/-- BC's conditions over the 64 bits of its registers (R159). -/
def taken (cond : BitVec 4) (a b : W64) : Prop :=
  match cond.toNat with
  | 0 => a = b | 1 => a ≠ b | 2 => a.toInt < b.toInt | 3 => b.toInt ≤ a.toInt | 4 => a.toNat < b.toNat | _ => b.toNat ≤ a.toNat
/-- A control transfer (R155): to an aligned target, with the task as `tk`; a misaligned one takes ALIGN. -/
def Transfers (i : Instr) (s : State) (h : Here) (tgt : W64) (tk : Task) : Prop :=
  (tgt.toNat % 8 = 0 → Goes i s h tgt tk) ∧ (tgt.toNat % 8 ≠ 0 → Faults i s h 9 tgt)
def withLoops (h : Here) (l : List W64) : Task := setStrand h.t h.x { strandOf h.t h.x with loops := l }

end Sys2Proof.Claims

open Sys2Proof.Claims in
/-- R188 and R189, with the alignment of R155. -/
def Obligations.BranchAndJump : Prop :=
  ∀ (s : State) (h : Here) (f : FmtB),
    let off : W64 := 8 * f.off.signExtend 64
    let tgt := (if f.sa = 0 then pcOf h else rdG s h f.sa) + off
    (Ready (.bc f) s h → f.dst = 0 ∧ (taken f.cond (rdG s h f.sa) (rdG s h f.sb) → Transfers (.bc f) s h (pcOf h + off) h.t) ∧
      (¬ taken f.cond (rdG s h f.sa) (rdG s h f.sb) → Goes (.bc f) s h (pcOf h + 8) h.t)) ∧
    (Ready (.j f) s h → f.dst = 0 ∧ Transfers (.j f) s h tgt h.t) ∧
    (Ready (.call f) s h → Transfers (.call f) s h tgt (wrReg h.x f.dst.toNat (pcOf h + 8) h.t)) ∧
    (Ready (.ret f) s h → f.dst = 0 ∧ f.sa ≠ 0 ∧ Transfers (.ret f) s h tgt h.t)

open Sys2Proof.Claims in
/-- R190, with the alignment of a transfer's target (R155). -/
def Obligations.HardwareLoops : Prop :=
  ∀ (s : State) (h : Here) (f : FmtB),
    let tgt := pcOf h + 8 * f.off.signExtend 64
    let n := rdG s h f.dst
    let l := (strandOf h.t h.x).loops
    (Ready (.loopb f) s h →
      (n = 0 → Transfers (.loopb f) s h tgt h.t) ∧
      (n ≠ 0 → l.length < 8 → Goes (.loopb f) s h (pcOf h + 8) (withLoops h (n :: l))) ∧
      (n ≠ 0 → 8 ≤ l.length → Faults (.loopb f) s h 1 (f.toWord 0x24))) ∧
    (Ready (.loope f) s h →
      (l = [] → Faults (.loope f) s h 1 (f.toWord 0x25)) ∧
      (∀ r l', l = r :: l' →
        (r = 1 → Goes (.loope f) s h (pcOf h + 8) (withLoops h l')) ∧
        (r ≠ 1 → Transfers (.loope f) s h tgt (withLoops h ((r - 1) :: l'))))) ∧
    (fieldsOk (.loopb f) = true → f.sa = 0 ∧ f.sb = 0 ∧ f.cond = 0) ∧
    (fieldsOk (.loope f) = true → f.dst = 0 ∧ f.sa = 0 ∧ f.sb = 0 ∧ f.cond = 0)

namespace Sys2Proof.Claims

/-- The queue q(n) of a task, and the task with it set (R192). -/
def qOf (t : Task) (n : BitVec 8) : List W64 := match n.toNat with | 0 => t.q0 | 1 => t.q1 | 2 => t.q2 | _ => t.q3
def withQ (t : Task) (n : BitVec 8) (l : List W64) : Task :=
  match n.toNat with | 0 => { t with q0 := l } | 1 => { t with q1 := l } | 2 => { t with q2 := l } | _ => { t with q3 := l }
/-- The XS notes the issue of its last push, which orders its scratch writes (R123). -/
def notePush (x : Strand) (t : Task) : Task := match x with | .as => t | .xs => { t with pushed := t.xissue }
/-- The instruction waits on a queue (R146): it has not executed, and QDEADLOCK is raised when neither strand can go on. -/
def Waits (i : Instr) (s : State) (h : Here) (why : HoldWhy) : Prop :=
  ∃ t, exec i s = .next (checkDeadlock h t) ∧ Holds s t h why

end Sys2Proof.Claims

open Sys2Proof.Claims in
/-- R193, R194 and the waits of R146 and R195. -/
def Obligations.QueueForms : Prop :=
  ∀ (s : State) (h : Here) (f : FmtR) (g : FmtB),
    let q := qOf h.t f.fn
    let n := f.fn.toNat
    let next := pcOf h + 8
    (Ready (.qpush f) s h →
      (q.length < 64 → Goes (.qpush f) s h next (notePush h.x (withQ h.t f.fn (q ++ [rdG s h f.sa])))) ∧
      (64 ≤ q.length → Waits (.qpush f) s h (.qpush n))) ∧
    (Ready (.qpop f) s h →
      (∀ v r, q = v :: r → Goes (.qpop f) s h next (wrReg h.x f.dst.toNat v (withQ h.t f.fn r))) ∧
      (q = [] → Waits (.qpop f) s h (.qpop n))) ∧
    (Ready (.qpeek f) s h →
      (∀ v r, q = v :: r → Goes (.qpeek f) s h next (wrReg h.x f.dst.toNat v h.t)) ∧
      (q = [] → Waits (.qpeek f) s h (.qpop n))) ∧
    (Ready (.qcnt f) s h → Goes (.qcnt f) s h next (wrReg h.x f.dst.toNat (BitVec.ofNat 64 q.length) h.t)) ∧
    (Ready (.bqpush f) s h →
      (h.t.bq.length < 32 → Goes (.bqpush f) s h next { h.t with bq := h.t.bq ++ [decide (rdG s h f.sa ≠ 0)] }) ∧
      (32 ≤ h.t.bq.length → Waits (.bqpush f) s h (.qpush 4))) ∧
    (Ready (.bqp g) s h →
      (∀ r, h.t.bq = true :: r → Transfers (.bqp g) s h (pcOf h + 8 * g.off.signExtend 64) { h.t with bq := r }) ∧
      (∀ r, h.t.bq = false :: r → Goes (.bqp g) s h next { h.t with bq := r }) ∧
      (h.t.bq = [] → Waits (.bqp g) s h (.qpop 4)))

namespace Sys2Proof.Claims

/-- A release of the task at a scope has nothing to wait for, nothing to report, and no write-back that meets another party's
open words (R93, R94, R110, R114, R118, R127). -/
def ReleaseFree (s : State) (h : Here) (scope : Nat) : Prop :=
  h.t.side = [] ∧ h.t.discarded = [] ∧ h.t.refusals = [] ∧ (∀ x ∈ h.t.unacked, x.2 = 0) ∧ (∀ x ∈ h.t.unackedOrd, x.2 = 0) ∧
  (2 ≤ scope → releaseClash s (whoOf h) (covers scope (whoOf h)) = none)
/-- No earlier ordered write of the task is still on its way (R110). -/
def InOrder (h : Here) : Prop := ordWait h.t none = false

end Sys2Proof.Claims

open Sys2Proof.Claims in
/-- R196 with R147 and R272: END when its release, or the matrix queue, lets it go at once; the task ends with its second strand,
and until then the other strand goes on. -/
def Obligations.StrandEnd : Prop :=
  ∀ (s : State) (h : Here) (f : FmtR), Ready (.endS f) s h →
    let o := otherStrand h.x
    let ended : Task := setStrand h.t h.x { unheld (strandOf h.t h.x) with ended := true }
    (h.x = .as → ReleaseFree s h 3 → exec (.endS f) s = .next (endStrand h (publishAll s (whoOf h) 3))) ∧
    (h.x = .as → ∀ s1, releaseSteps s h 3 none = .done s1 → InOrder h → exec (.endS f) s = .next (endStrand h s1)) ∧
    (h.x = .xs → h.k.mxq = [] → exec (.endS f) s =
      .next (endStrand h (dropLease (modCore s h.core fun k => { k with wanted := false }) h.core))) ∧
    (h.x = .xs → h.k.mxq ≠ [] → ∃ t, exec (.endS f) s = .next t ∧ Holds s t h .mxread) ∧
    (∀ s1, (coreAt s1 h.core).task = some h.t →
      ((strandOf h.t o).ended = true → (coreAt (endStrand h s1) h.core).task = none) ∧
      ((strandOf h.t o).ended = false → queueBlocked h.t o = false →
        (coreAt (endStrand h s1) h.core).task = some ended ∧ (endStrand h s1).cur = some { core := h.core, x := o }))

namespace Sys2Proof.Claims

/-- A capability register's fields (R71). -/
def capField (k : CapReg) (lo n : Nat) : Nat := (k.bits.extractLsb' lo n).toNat
def withC (h : Here) (n : BitVec 6) (k : CapReg) : Task := { h.t with c := ins h.t.c n.toNat k }

end Sys2Proof.Claims

open Sys2Proof.Claims in
/-- R199 to R203; for CLGEN `s1` is the state after the entry has been read through the extent cache (R75). The details of CNARROW's
CAPBOUND (D0 the offset operand) and of CLGEN's EXTENT (zeros) are the model's choice (log 79). -/
def Obligations.CapabilityForms : Prop :=
  ∀ (s : State) (h : Here) (f : FmtR),
    let c := rdC h.t f.sa
    let b := rdG s h f.sb
    let next := pcOf h + 8
    (Ready (.cnarrow f) s h → c.tag = true → capField c 59 1 = 0 →
      (b.toNat + (rdG s h f.sc).toNat ≤ capField c 128 64 → ∃ k, Goes (.cnarrow f) s h next (withC h f.dst k) ∧ k.tag = true ∧
        capField k 0 64 = capField c 0 64 ∧ capField k 64 64 = (capField c 64 64 + b.toNat) % 2 ^ 64 ∧
        capField k 128 64 = (rdG s h f.sc).toNat ∧ capField k 192 64 = 0) ∧
      (capField c 128 64 < b.toNat + (rdG s h f.sc).toNat →
        Faults (.cnarrow f) s h 3 b (f.sa.zeroExtend 64) 0 (capOid c))) ∧
    (Ready (.crights f) s h → c.tag = true → (isSup h.t = true ∨ capField c 59 1 = 0) →
      ∃ k, Goes (.crights f) s h next (withC h f.dst k) ∧ k.tag = true ∧ capField k 0 48 = capField c 0 48 ∧
        capField k 48 11 = (capField c 48 11 &&& b.toNat % 2 ^ 11) ∧ capField k 59 1 = bitsN b 11 1 ∧
        capField k 64 192 = capField c 64 192) ∧
    (Ready (.coff f) s h → c.tag = true → capField c 59 1 = 0 ∨ b = 0 →
      ∃ k, Goes (.coff f) s h next (withC h f.dst k) ∧ k.tag = true ∧ capField k 0 192 = capField c 0 192 ∧
        capField k 192 64 = (capField c 192 64 + b.toNat) % 2 ^ 64) ∧
    (Ready (.cget f) s h → Goes (.cget f) s h next (wrReg h.x f.dst.toNat (BitVec.ofNat 64 (match b.toNat with
      | 0 => capField c 0 32 | 1 => capField c 32 16 | 2 => capField c 48 16 | 3 => capField c 64 64 | 4 => capField c 128 64
      | 5 => capField c 192 64 | 6 => (if c.tag then 1 else 0) | 7 => capField c 64 64 + capField c 192 64 | _ => 0)) h.t)) ∧
    (∀ s1 e, Ready (.clgen f) s h → c.tag = true → capField c 59 1 = 0 → capField c 58 1 = 1 → (capOid c ≠ 0 ∨ isSup h.t = true) →
      xlate s (whoOf h) ⟨capOid c, 0, 0⟩ = (s1, e) →
      (wState e.word0 = 1 → ∃ k, exec (.clgen f) s = .next (retire h (wrC h f.dst k s1)) ∧ k.tag = true ∧
        capField k 0 32 = capField c 0 32 ∧ capField k 32 16 = bitsN e.word0 16 16 ∧ capField k 48 208 = capField c 48 208) ∧
      (wState e.word0 = 2 → exec (.clgen f) s = .next (hold h .moving s1)) ∧
      (wState e.word0 = 0 ∨ wState e.word0 = 3 → exec (.clgen f) s = .next (takeFault s1 h 8 0 0 0 (capOid c))))

open Sys2Proof.Claims in
/-- The checks of R198 with the details of R328. -/
def Obligations.CapabilityFaults : Prop :=
  ∀ (s : State) (h : Here) (f : FmtR),
    let c := rdC h.t f.sa
    let reg : W64 := f.sa.zeroExtend 64
    (c.tag = false → (Ready (.cnarrow f) s h → Faults (.cnarrow f) s h 5 reg 0 0 (capOid c)) ∧
      (Ready (.crights f) s h → Faults (.crights f) s h 5 reg 0 0 (capOid c)) ∧
      (Ready (.coff f) s h → Faults (.coff f) s h 5 reg 0 0 (capOid c)) ∧
      (Ready (.clgen f) s h → Faults (.clgen f) s h 5 reg 0 0 (capOid c))) ∧
    (c.tag = true → capField c 59 1 = 1 → (Ready (.cnarrow f) s h → Faults (.cnarrow f) s h 4 0 reg 0 (capOid c)) ∧
      (Ready (.crights f) s h → isSup h.t = false → Faults (.crights f) s h 4 0 reg 0 (capOid c)) ∧
      (Ready (.coff f) s h → rdG s h f.sb ≠ 0 → Faults (.coff f) s h 4 0 reg 0 (capOid c))) ∧
    (c.tag = true → capField c 59 1 = 0 → bitsN c.bits 58 1 = 0 → Ready (.clgen f) s h →
      Faults (.clgen f) s h 4 1024 reg 0 (capOid c))

namespace Sys2Proof.Claims

/-- The bytes at `off` of a line, extended by the type: signed for type codes 8 to 11 (R181, R210). -/
def loaded (ty : BitVec 4) (d : Line) (off : Nat) : W64 :=
  let v := d.extractLsb' (8 * off) (fmtWidth ty)
  if 8 ≤ ty.toNat ∧ ty.toNat ≤ 11 then v.signExtend 64 else v.setWidth 64
/-- The L1 line of the executing cluster holds every byte: in a valid word, or as a byte of a store on its way to another die (R79, R210). -/
def l1Hit (s : State) (h : Here) (r : Res) (n : Nat) (l : L1Line) : Prop :=
  l1Find (clusterAt s (CoreId.cluster h.core)) r.key = some l ∧
  ∀ i < n, l.valid.getLsbD ((r.loc.byte % 256 + i) / 4) = true ∨ l.bytes.getLsbD (r.loc.byte % 256 + i) = true
def l1Misses (s : State) (h : Here) (r : Res) (n : Nat) (ordered : Bool) : Prop :=
  ∀ l, l1Find (clusterAt s (CoreId.cluster h.core)) r.key = some l → l1Serves h.t.taskId l (r.loc.byte % 256) n ordered = false
/-- The state after an L1 hit, and after a miss that its home answered: the line becomes the most recently used. -/
def hitState (s : State) (h : Here) (r : Res) (l : L1Line) : State :=
  modCluster s (CoreId.cluster h.core) fun k => l1Put k r.key l
def fillState (s : State) (h : Here) (r : Res) (d : Line) (tg : BitVec 8) : State :=
  l1Fill s (CoreId.cluster h.core) r d tg
/-- The strand waits for no answer from another die, and no side-log entry of the task covers the bytes (R93, R115). -/
def clearOf (h : Here) (r : Res) (n : Nat) : Prop := h.t.remote = .idle ∧ sideOverlap h.t r.loc n = false
/-- The form has the items of the tile queues that it moves (R212). -/
def QueueReady (i : Instr) (t : Task) : Prop :=
  match i with
  | .ldt _ => t.vq.length ≤ 14
  | .stt _ => 2 ≤ t.wq.length
  | .cst f => (rdC t f.dst).tag = true ∧ hasRights (rdC t f.dst) 64 = true
  | _ => True
/-- The check that each access form makes (R74, R206, R207). -/
def checksOf (s : State) (h : Here) (f : FmtM) : List (Instr × (State × Chk)) :=
  let n := fmtWidth f.ty / 8
  let m := fun (rights : Nat) (ver : Bool) => mCheck s h f { rights := rights, n := n, align := n, ver := ver }
  let line := fun (rights : Nat) => tCheck s h f { rights := rights, n := 256, align := 256, fmt := some f.ty }
  [(.ld f, m 1 false), (.st f, m 2 false), (.cld f, mCheck s h f { rights := 129, n := 32, align := 32 }),
   (.cst f, mCheck s h f { rights := 258, n := 32, align := 32 }), (.ldt f, line 1), (.stt f, line 2), (.ldv f, m 9 true),
   (.acq f, m 1 false), (.rel f, m 2 false), (.amo f, m 7 false), (.amoReduce f, m 7 false), (.amofFadd f, m 7 false),
   (.amofFmax f, m 7 false), (.cas f, m 7 false), (.casv f, m 15 true)]
/-- The state once the answer of another die has been taken. -/
def answered (s : State) (h : Here) : State := modTask s h.core fun t => { t with remote := .idle }
/-- The precise fault of an access that its home refuses: CONFLICT with the owner, HWERROR with the fenced unit, else REFUSED with the
reason (R115, R328, R333). -/
def RefusedAs (i : Instr) (s u : State) (h : Here) (r : Res) (why : Nat) (owner : W64) : Prop :=
  (why = 0 → exec i s = .next (takeFault u h 13 (BitVec.ofNat 64 r.loc.byte) owner 0 r.loc.oid)) ∧
  (why = 3 → exec i s = .next (takeFault u h 21 (BitVec.ofNat 64 (fencedUnit u h.core.die r).1)
    (BitVec.ofNat 64 (fencedUnit u h.core.die r).2) 0 r.loc.oid)) ∧
  (why ≠ 0 → why ≠ 3 → exec i s = .next (takeFault u h 14 0 1 (BitVec.ofNat 64 why) r.loc.oid))
/-- A home on another die is asked: the packet goes under a number of its own, and the strand holds until the answer is there (R115). -/
def AsksHome (i : Instr) (s u : State) (h : Here) (r : Res) (b : Body) : Prop :=
  exec i s = .next (hold h .remote (modTask (sendPkt { u with serial := u.serial + 1 } h.core.die r.home.die (BitVec.ofNat 32 u.serial) b)
    h.core fun t => { t with remote := .sent r (BitVec.ofNat 32 u.serial) true }))
/-- The bytes that a load form reads. -/
def loadBytes (i : Instr) (f : FmtM) : Nat := match i with | .cld _ => 32 | .ldt _ => 256 | _ => fmtWidth f.ty / 8
/-- A load of a home on another die (R77, R115, R116, R210, R211, R215): it sends a READ and holds; the answer, under what the L1 still
holds, is used at the next execution and fills the L1 unless an acquire or a write came between; a refusal is its fault. -/
def RemoteLoads : Prop :=
  (∀ (s s1 : State) (h : Here) (f : FmtM) (i : Instr) (r : Res), i ∈ [.ld f, .cld f, .ldt f, .acq f, .ldv f] →
    (i, (s1, Chk.ok r)) ∈ checksOf s h f → Ready i s h → QueueReady i h.t → clearOf h r (loadBytes i f) → r.home.die ≠ h.core.die →
    (i = .cld f → wCapstore r.word0 = true ∧ wCoding r.word0 = 0) → (i = .acq f → ordWait h.t (some r.home.die) = false) →
    (i ≠ .ldv f → l1Misses s1 h r (loadBytes i f) (decide (i = .acq f))) →
    AsksHome i s s1 h r (.read h.t.pid h.core h.t.taskId r (loadBytes i f) (decide (i = .ldv f)) (decide (i = .acq f)))) ∧
  (∀ (s : State) (h : Here) (f : FmtM) (i : Instr), i ∈ [.ld f, .cld f, .ldt f, .acq f, .ldv f] → Ready i s h → QueueReady i h.t →
    (∀ r tag fill, h.t.remote = .sent r tag fill → exec i s = .next (hold h .remote s)) ∧
    (∀ r why o, h.t.remote = .refused r why o → RefusedAs i s (answered s h) h r why o) ∧
    (∀ r fill d0 tg0 v o d tg, h.t.remote = .line r fill d0 tg0 v o →
      let c := CoreId.cluster h.core
      let off := r.loc.byte % 256
      overL1 s c r.key h.t.taskId (decide (i = .acq f)) (d0, tg0) = (d, tg) →
      let u := if fill = true then l1Fill (answered s h) c r d tg else answered s h
      (i = .ld f → exec i s = .next (retire h (wrG h f.dst (loaded f.ty d off) u))) ∧
      (i = .cld f → exec i s = .next (retire h
        (wrC h f.dst { tag := tg.getLsbD (off / 32), bits := d.extractLsb' (8 * off) 256 } u))) ∧
      (i = .ldt f → exec i s = .next (retire h (modTask u h.core fun t =>
        { t with vq := t.vq ++ [(d.extractLsb' 0 1024, f.ty), (d.extractLsb' 1024 1024, f.ty)] }))) ∧
      (i = .acq f → exec i s = .next (retire h
        (wrG h f.dst (loaded f.ty d off) (acquireInval (answered s h) (whoOf h) f.scope.toNat)))) ∧
      (i = .ldv f → exec i s = .next (retire h (wrG h (f.dst + 1) (BitVec.ofNat 64 (v.toNat + if o then 2 ^ 63 else 0))
        (wrG h f.dst (loaded f.ty d0 off) (answered s h)))))))
/-- A store or reduction whose home is on another die retires at once: its packet goes under the task's next tag, no read on its way fills
the line over it, and the task counts it until it is acknowledged (R115, R116, R118, R126, R127). -/
def PostsHome (i : Instr) (s u : State) (h : Here) (r : Res) (op : WOp) (ord : Ordr) (k : State → State) : Prop :=
  exec i s = .next (k (l1Posted (modTask (noFill (sendPkt u h.core.die r.home.die h.t.stag (.write h.t.pid h.core h.t.taskId r op ord))
    (CoreId.cluster h.core) fun q => q.key == r.key) h.core fun t =>
      { t with stag := nextTag t.stag, unacked := upd t.unacked r.home.die 0 (· + 1)
               unackedOrd := if ord.kind = 0 then t.unackedOrd else upd t.unackedOrd r.home.die 0 (· + 1) }) h r op))
/-- The L1's line after a store to another die: the stored bytes, owned, in words that become valid when whole; of a reduction its words
become invalid (R83, R208, R210). -/
def PostedInL1 : Prop :=
  ∀ (s : State) (h : Here) (r : Res) (x : L1Line),
    let c := CoreId.cluster h.core
    let off := r.loc.byte % 256
    l1Find (clusterAt s c) r.key = some x →
    (∀ b : List Byte, 0 < b.length → off + b.length ≤ 256 →
      ∃ y, l1Find (clusterAt (l1Posted s h r (.bytes b)) c) r.key = some y ∧ y.data = lineSet x.data off b.length (ofBytes b) ∧
        (∃ o ∈ y.own, o.task = h.t.taskId ∧ wordsTouched off b.length &&& ~~~ o.mask = 0) ∧
        (b.length % 4 = 0 → y.valid = x.valid ||| wordsTouched off b.length) ∧
        (b.length % 4 ≠ 0 → y.valid = x.valid ∧ y.bytes = x.bytes ||| (byteMask off b.length &&& ~~~ wordBytes x.valid))) ∧
    (∀ fn w v, ∃ y, l1Find (clusterAt (l1Posted s h r (.reduce fn w v)) c) r.key = some y ∧
      y.valid = x.valid &&& ~~~ wordsTouched off (w / 8) ∧ y.data = x.data)
/-- The line is resident at its place, or its set there has a free way: no other line leaves for it (R21, R82, R90, log 70). -/
def HasRoom (s : State) (r : Res) : Prop :=
  match lkp s.l2 r.key with | some l => samePlace r l = true | none => (l2Mates s r.home r.pa).length < 16

end Sys2Proof.Claims

open Sys2Proof.Claims in
/-- R210 (LD), R204 (CLD), R212 (LDT), R211 (ACQ) and R215 (LDV) on an own-die home or an L1 hit, `s1` being the state after the
translation; and on a home of another die (R77, R115, R116). The number under which a READ's answer is known (log 14), and the unit that HWERROR names where no
ring reaches the home (log 73), are the model's choice; that an ordered load waits for the task's earlier ordered writes its reading (log 74). -/
def Obligations.LocalLoads : Prop :=
  RemoteLoads ∧
  ∀ (s s1 : State) (h : Here) (f : FmtM) (r : Res),
    let n := fmtWidth f.ty / 8
    let off := r.loc.byte % 256
    let w := whoOf h
    (Ready (.ld f) s h → mCheck s h f { rights := 1, n := n, align := n } = (s1, .ok r) → clearOf h r n →
      (∀ l, l1Hit s1 h r n l → exec (.ld f) s = .next (retire h (wrG h f.dst (loaded f.ty l.data off) (hitState s1 h r l)))) ∧
      (∀ s2 p d tg, l1Misses s1 h r n false → r.home.die = h.core.die → homeLoad s1 w r n false = .ok s2 p →
        overL1 s1 (CoreId.cluster h.core) r.key h.t.taskId false p = (d, tg) →
        exec (.ld f) s = .next (retire h (wrG h f.dst (loaded f.ty d off) (fillState s2 h r d tg))))) ∧
    (Ready (.cld f) s h → mCheck s h f { rights := 129, n := 32, align := 32 } = (s1, .ok r) → wCapstore r.word0 = true →
      wCoding r.word0 = 0 → clearOf h r 32 →
      (∀ l, l1Hit s1 h r 32 l → exec (.cld f) s = .next (retire h (wrC h f.dst
        { tag := l.tags.getLsbD (off / 32), bits := l.data.extractLsb' (8 * off) 256 } (hitState s1 h r l)))) ∧
      (∀ s2 p d tg, l1Misses s1 h r 32 false → r.home.die = h.core.die → homeLoad s1 w r 32 false = .ok s2 p →
        overL1 s1 (CoreId.cluster h.core) r.key h.t.taskId false p = (d, tg) →
        exec (.cld f) s = .next (retire h (wrC h f.dst
          { tag := tg.getLsbD (off / 32), bits := d.extractLsb' (8 * off) 256 } (fillState s2 h r d tg))))) ∧
    (Ready (.ldt f) s h → h.t.vq.length ≤ 14 →
      tCheck s h f { rights := 1, n := 256, align := 256, fmt := some f.ty } = (s1, .ok r) → clearOf h r 256 →
      let push := fun (d : Line) (x : State) => modTask x h.core fun t =>
        { t with vq := t.vq ++ [(d.extractLsb' 0 1024, f.ty), (d.extractLsb' 1024 1024, f.ty)] }
      (∀ l, l1Hit s1 h r 256 l → exec (.ldt f) s = .next (retire h (push l.data (hitState s1 h r l)))) ∧
      (∀ s2 p d tg, l1Misses s1 h r 256 false → r.home.die = h.core.die → homeLoad s1 w r 256 false = .ok s2 p →
        overL1 s1 (CoreId.cluster h.core) r.key h.t.taskId false p = (d, tg) →
        exec (.ldt f) s = .next (retire h (push d (fillState s2 h r d tg))))) ∧
    (Ready (.acq f) s h → mCheck s h f { rights := 1, n := n, align := n } = (s1, .ok r) → clearOf h r n →
      ordWait h.t (some r.home.die) = false →
      (∀ l o, l1Hit s1 h r n l → l.own.find? (·.task == h.t.taskId) = some o →
        wordsTouched (r.loc.byte % 256) n &&& ~~~ o.mask = 0 →
        exec (.acq f) s = .next (retire h (wrG h f.dst (loaded f.ty l.data off) (acquireInval (hitState s1 h r l) w f.scope.toNat)))) ∧
      (∀ s2 p d tg, l1Misses s1 h r n true → r.home.die = h.core.die → homeLoad s1 w r n true = .ok s2 p →
        overL1 s1 (CoreId.cluster h.core) r.key h.t.taskId true p = (d, tg) →
        exec (.acq f) s = .next (retire h (wrG h f.dst (loaded f.ty d off) (acquireInval s2 w f.scope.toNat))))) ∧
    (Ready (.ldv f) s h → mCheck s h f { rights := 9, n := n, align := n, ver := true } = (s1, .ok r) → clearOf h r n →
      r.home.die = h.core.die → homeRefuses s1 r.home r.pa = none →
      let l := homeLine (bring s1 r) r
      exec (.ldv f) s = .next (retire h (wrG h (f.dst + 1)
        (BitVec.ofNat 64 (l.ver.toNat + if lineOpen w l then 2 ^ 63 else 0))
        (wrG h f.dst (loaded f.ty l.data off) (touchExtent (bring s1 r) w r)))))

open Sys2Proof.Claims in
/-- R210, R212, R204 and R211: stores to a home on the issuing die, and to one on another die, with what they leave in the L1. That a REL
drops the cluster's stale words of the line (log 54), and waits for the task's earlier ordered writes (log 74), is the model's reading. -/
def Obligations.LocalStores : Prop :=
  PostedInL1 ∧
  (∀ (s s1 : State) (h : Here) (f : FmtM) (i : Instr) (r : Res), (i, (s1, Chk.ok r)) ∈ checksOf s h f → Ready i s h → QueueReady i h.t →
    h.t.side = [] → r.home.die ≠ h.core.die →
    let b := bytesOf (fmtWidth f.ty / 8) (rdG s h f.dst).toNat
    (i = .st f → PostsHome i s s1 h r (.bytes b) {} (retire h)) ∧
    (i = .cst f → wCapstore r.word0 = true → wCoding r.word0 = 0 → PostsHome i s s1 h r (.cap (rdC h.t f.dst)) {} (retire h)) ∧
    (∀ x y rest, i = .stt f → h.t.wq = x :: y :: rest →
      PostsHome i s s1 h r (.bytes (bytesOf 128 x.toNat ++ bytesOf 128 y.toNat)) {}
        (fun t => retire h (modTask t h.core fun t => { t with wq := rest }))) ∧
    (∀ s2, i = .rel f → releaseSteps s1 h f.scope.toNat (some r.home.die) = .done s2 → ordWait h.t (some r.home.die) = false →
      PostsHome i s s2 h r (.release b) { kind := 2, scope := f.scope } (retire h))) ∧
  ∀ (s s1 : State) (h : Here) (f : FmtM) (r : Res),
    let n := fmtWidth f.ty / 8
    let w := whoOf h
    let c := CoreId.cluster h.core
    -- the state after the bytes of `op` are in the L1, or held beside the record
    let inL1 := fun (op : WOp) (k : State → State) (i : Instr) =>
      (cacheBanks (clusterAt s1 c) ≠ [] ∨ l1Find (clusterAt s1 c) r.key ≠ none → homeRefuses s1 r.home r.pa = none →
        let l := homeLine s1 r
        let mask := (writeOp 0 0 (r.loc.byte % 256) op).2.2
        -- the words that the task does not own yet are registered; a store that registers none is no event of R99
        let new := mask &&& ~~~ myMask w l
        conflicts w l new false = false →
        let s2 := l1Fill (noteStore (putLine (bring s1 r) r.key (register w l mask false)) w r new) c r (viewFor w l) (tagsFor w l)
        ∀ x, l1Find (clusterAt s2 c) r.key = some x →
          let y := writeOp x.data x.tags (r.loc.byte % 256) op
          exec i s = .next (k (modCluster s2 c fun kk =>
            l1Put kk r.key (ownWords h.t.taskId mask mask { x with data := y.1, tags := y.2.1 })))) ∧
      (cacheBanks (clusterAt s1 c) = [] → l1Find (clusterAt s1 c) r.key = none →
        ∀ s2, homeStore s1 w r op {} = .ok s2 () → exec i s = .next (k s2))
    h.t.side = [] → r.home.die = h.core.die →
    (Ready (.st f) s h → mCheck s h f { rights := 2, n := n, align := n } = (s1, .ok r) →
      inL1 (.bytes (bytesOf n (rdG s h f.dst).toNat)) (retire h) (.st f)) ∧
    (Ready (.cst f) s h → (rdC h.t f.dst).tag = true → hasRights (rdC h.t f.dst) 64 = true →
      mCheck s h f { rights := 258, n := 32, align := 32 } = (s1, .ok r) → wCapstore r.word0 = true → wCoding r.word0 = 0 →
      inL1 (.cap (rdC h.t f.dst)) (retire h) (.cst f)) ∧
    (Ready (.stt f) s h → ∀ x y rest, h.t.wq = x :: y :: rest →
      tCheck s h f { rights := 2, n := 256, align := 256, fmt := some f.ty } = (s1, .ok r) →
      inL1 (.bytes (bytesOf 128 x.toNat ++ bytesOf 128 y.toNat))
        (fun s2 => retire h (modTask s2 h.core fun t => { t with wq := rest })) (.stt f)) ∧
    (Ready (.rel f) s h → mCheck s h f { rights := 2, n := n, align := n } = (s1, .ok r) →
      ∀ s2 s3, releaseSteps s1 h f.scope.toNat (some r.home.die) = .done s2 → ordWait h.t (some r.home.die) = false →
        homeStore s2 w r (.release (bytesOf n (rdG s h f.dst).toNat)) { kind := 2, scope := f.scope } = .ok s3 () →
        exec (.rel f) s = .next (retire h (dropStale s3 c r.key (wordsTouched (r.loc.byte % 256) n))))

namespace Sys2Proof.Claims

/-- The first of checks 6 to 11 of R74 that fails on a translated byte, with its details (R328); with none, the place of the byte, mapped
or not. -/
def LaterChecks (s : State) (w : Who) (c : CapReg) (ask : Ask) (facet : DieId) (a objByte : Nat) (localOk : Bool) (e : TEntry) : Prop :=
  let k := checkObj s w c ask facet a objByte localOk e
  let r := resOf w (capOid c) facet a e
  let byte : W64 := BitVec.ofNat 64 objByte
  let bad := fun (cls : Nat) (d0 : W64) (d1 d2 : Nat) =>
    k = .fault { cls := cls, d0 := d0, d1 := BitVec.ofNat 64 d1, d2 := BitVec.ofNat 64 d2, oid := capOid c, pos := some byte }
  let live := wState e.word0 = 1 ∧ wHome e.word0 ≠ 3 ∧ wTier e.word0 ≠ 3 ∧ (wTier e.word0 = 2 → ask.host = true)
  let formed := live ∧ e.wf = true ∧ (∀ m, ask.fmt = some m → m = wFmt e.word0)
  let laid := formed ∧ (wDist e.word0 = true → capLgen c = wLgen e.word0)
  let versioned := laid ∧ (ask.ver = true → wVer e.word0 = true)
  let placed := versioned ∧ localOk = true
  let held := placed ∧ badExt s w.pid e r = false ∧ (extTier e.ext = 2 → ask.host = true)
  (wState e.word0 = 2 → k = .moving) ∧
  (wState e.word0 ≠ 2 → ¬ live → bad 8 byte (a / 2 ^ 21) facet.toNat) ∧
  (live → ¬ formed → bad 6 (e.word0 &&& 0xFFFFFFFFFFFF0000) 0 0) ∧
  (formed → ¬ laid → bad 7 (BitVec.ofNat 64 (capLgen c)) (wLgen e.word0) 0) ∧
  (laid → ¬ versioned → bad 17 byte 0 0) ∧
  (versioned → localOk = false → bad 9 byte 0 0) ∧
  (placed → ¬ held → bad 8 byte (a / 2 ^ 21) facet.toNat) ∧
  (held → extMoving s w.pid r.tkey = true → k = .unmapped { r with moving := true }) ∧
  (held → extMoving s w.pid r.tkey = false → k = if extV e.ext then .ok r else .unmapped r)
/-- Checks 1 to 3 of R74: the capability admits an access with these rights. -/
def Admits (w : Who) (c : CapReg) (rights : Nat) : Prop :=
  c.tag = true ∧ c.bits.getLsbD 59 = false ∧ (capOid c ≠ 0 ∨ w.sup = true) ∧ bitsN c.bits 48 12 &&& rights = rights
/-- A check whose capability does not admit the access answers CAPTAG or CAPRIGHTS and translates nothing. -/
def Refuses (s : State) (w : Who) (reg : Nat) (c : CapReg) (rights : Nat) (k : State × Chk) : Prop :=
  (c.tag = false → k = (s, .fault { cls := 5, d0 := BitVec.ofNat 64 reg, oid := capOid c })) ∧
  (c.tag = true → ¬ Admits w c rights →
    k = (s, .fault { cls := 4, d0 := BitVec.ofNat 64 rights, d1 := BitVec.ofNat 64 reg, oid := capOid c }))
/-- R74 for a byte-addressed access; `again` marks one that has waited for a MOVING object, which goes on from check 7. -/
def ByteChecks (s : State) (w : Who) (reg : Nat) (c : CapReg) (ask : Ask) (a : Int) : Prop :=
  let k := checkAcc s w reg c ask a
  (ask.again = false → Refuses s w reg c ask.rights k) ∧
  (∀ s1 e0 s2 e, ask.again = true ∨ Admits w c ask.rights → ask.facet = false → xlate s w ⟨capOid c, 0, a.toNat / 2 ^ 21⟩ = (s1, e0) →
    let facet := dieOfFacet w e0.word0
    (if facet = 0 then (s1, e0) else xlate s1 w ⟨capOid c, facet, a.toNat / 2 ^ 21⟩) = (s2, e) →
    let inside := (capBase c : Int) ≤ a ∧ a + ask.n ≤ capBase c + capLen c ∧
      (e.wf = true → capBase c + capLen c ≤ objBytes s w (capOid c) e.word0 e.dims e.layout)
    (ask.again = false → ¬ inside →
      k = (s2, .fault { cls := 3, d0 := BitVec.ofInt 64 a, d1 := BitVec.ofNat 64 reg, oid := capOid c })) ∧
    (ask.again = false → inside → a.toNat % ask.align ≠ 0 → k = (s2, .fault { cls := 9, d0 := BitVec.ofInt 64 a, oid := capOid c })) ∧
    (ask.again = true ∨ (inside ∧ a.toNat % ask.align = 0) →
      k = (s2, checkObj s2 w c ask facet a.toNat a.toNat true e) ∧ LaterChecks s2 w c ask facet a.toNat a.toNat true e))
/-- R74 and R207 for a tile line: as 256 aligned bytes of an object that is not distributed, else at the global coordinates `co`, whose
line stands at its owner die's local coordinates (R102, R103). -/
def TileChecks (s : State) (w : Who) (reg : Nat) (c : CapReg) (ask : Ask) (a : Int) (co : Nat × Nat × Nat × Nat) (disp : Int) : Prop :=
  let k := checkTile s w reg c ask a co disp
  (ask.again = false → Refuses s w reg c ask.rights k) ∧
  (∀ s1 e0, ask.again = true ∨ Admits w c ask.rights → xlate s w ⟨capOid c, 0, a.toNat / 2 ^ 21⟩ = (s1, e0) →
    (wDist e0.word0 = false → k = checkAcc s1 w reg c { ask with n := 256, align := 256 } a) ∧
    (wDist e0.word0 = true → ∀ p, partAt s w.pid = some p →
      let g := geom e0.word0 e0.dims
      let b : Int := capBase c + capOff c + 256 * (lineNo g co.1 (co.2.1 / 8) co.2.2.1 co.2.2.2 : Nat)
      let inside := (capBase c : Int) ≤ b ∧ b + 256 ≤ capBase c + capLen c ∧ (e0.wf = true →
        capBase c + capLen c ≤ geomSize g ∧ co.1 < g.1 ∧ co.2.1 < g.2.1 ∧ co.2.2.1 < g.2.2.1 ∧ co.2.2.2 < g.2.2.2)
      (ask.again = false → ¬ inside →
        k = (s1, .fault { cls := 3, d0 := BitVec.ofInt 64 b, d1 := BitVec.ofNat 64 reg, oid := capOid c })) ∧
      (ask.again = false → inside → b % 256 ≠ 0 ∨ disp ≠ 0 →
        k = (s1, .fault { cls := 9, d0 := BitVec.ofInt 64 b, oid := capOid c })) ∧
      (ask.again = true ∨ (inside ∧ b % 256 = 0 ∧ disp = 0) →
        let ol := tileOwner p e0.layout g co.1 co.2.1 co.2.2.1 co.2.2.2
        let ln := lineNo (facetGeom p e0.layout g) ol.2.1 (ol.2.2.1 / 8) ol.2.2.2.1 ol.2.2.2.2
        ∀ s2 e, xlate s1 w ⟨capOid c, ol.1, ln / 8192⟩ = (s2, e) →
          k = (s2, checkObj s2 w c ask ol.1 (256 * ln) b.toNat (decide (ol.2.2.1 % 8 = 0)) e) ∧
          LaterChecks s2 w c ask ol.1 (256 * ln) b.toNat (decide (ol.2.2.1 % 8 = 0)) e)))
/-- A store that waits in the side log behind its missing extent (R92, R93), its tag the task's next; with 64 entries there it holds. -/
def SideLogged (i : Instr) (s s1 : State) (h : Here) (l : Where) (op : WOp) (ord : Ordr) (k : State → State) : Prop :=
  (h.t.side.length < 64 → exec i s = .next (k (modTask s1 h.core fun t =>
    { t with side := t.side ++ [{ loc := l, op := op, tag := t.stag, ord := ord }], stag := nextTag t.stag }))) ∧
  (64 ≤ h.t.side.length → exec i s = .next (hold h .sideLog s1))

end Sys2Proof.Claims

open Sys2Proof.Claims in
/-- R74 with the details of R328, for LD, ST, CLD, CST, LDT, STT, LDV, ACQ, REL and the atomics: checks 1 to 5 of LD and ST word for word,
then all checks of a byte-addressed and of a tile-line access in their order, and what each form makes of the answer: the fault, the hold
on a MOVING object, the hold or the side log on an unmapped extent (R92, R93), and what CLD and CST ask of the object (R204). A malformed
entry gives no object size (log 72). -/
def Obligations.AccessChecks : Prop :=
  (∀ (s : State) (h : Here) (f : FmtM) (i : Instr) (right : Nat),
    (i = .ld f ∧ right = 1) ∨ (i = .st f ∧ right = 2) → Ready i s h → h.t.remote = .idle → heldMoving h = false →
    let c := rdC h.t f.sa
    let a := mAddr s h f
    let n := fmtWidth f.ty / 8
    let reg : W64 := f.sa.zeroExtend 64
    let sealed' := c.bits.getLsbD 59
    (c.tag = false → Faults i s h 5 reg 0 0 (capOid c)) ∧
    (c.tag = true → sealed' = true ∨ (capOid c = 0 ∧ isSup h.t = false) ∨ bitsN c.bits 48 12 &&& right ≠ right →
      Faults i s h 4 (BitVec.ofNat 64 right) reg 0 (capOid c)) ∧
    (c.tag = true → sealed' = false → (capOid c ≠ 0 ∨ isSup h.t = true) → bitsN c.bits 48 12 &&& right = right →
      ∀ s1 e, xlate s (whoOf h) ⟨capOid c, 0, a.toNat / 2 ^ 21⟩ = (s1, e) → wDist e.word0 = false → e.wf = true →
        let inside := (capBase c : Int) ≤ a ∧ a + n ≤ capBase c + capLen c ∧
          capBase c + capLen c ≤ objBytes s (whoOf h) (capOid c) e.word0 e.dims e.layout
        (¬ inside → exec i s = .next (takeFault s1 h 3 (BitVec.ofInt 64 a) reg 0 (capOid c))) ∧
        (inside → a.toNat % n ≠ 0 → exec i s = .next (takeFault s1 h 9 (BitVec.ofInt 64 a) 0 0 (capOid c))))) ∧
  (∀ (s : State) (w : Who) (reg : Nat) (c : CapReg) (ask : Ask) (a : Int) (co : Nat × Nat × Nat × Nat) (disp : Int),
    ByteChecks s w reg c ask a ∧ TileChecks s w reg c ask a co disp) ∧
  (∀ (s s1 : State) (h : Here) (f : FmtM) (i : Instr) (k : Chk), (i, (s1, k)) ∈ checksOf s h f → Ready i s h → h.t.remote = .idle →
    QueueReady i h.t →
    (∀ fi, k = .fault fi → exec i s = .next (takeFault s1 h fi.cls fi.d0 fi.d1 fi.d2 fi.oid)) ∧
    (k = .moving → exec i s = .next (hold h .moving s1)) ∧
    (∀ r, k = .ok r ∨ k = .unmapped r → i = .cld f ∨ i = .cst f →
      (wCapstore r.word0 = false → exec i s = .next (takeFault s1 h 5 (f.sa.zeroExtend 64) 0 0 (capOid (rdC h.t f.sa)))) ∧
      (wCapstore r.word0 = true → wCoding r.word0 ≠ 0 →
        exec i s = .next (takeFault s1 h 6 (r.word0 &&& 0xFFFFFFFFFFFF0000) 0 0 (capOid (rdC h.t f.sa))))) ∧
    (∀ r, k = .unmapped r → (i = .cld f ∨ i = .cst f → wCapstore r.word0 = true ∧ wCoding r.word0 = 0) →
      let s2 := postExtent s1 (whoOf h) r
      let b := bytesOf (fmtWidth f.ty / 8) (rdG s h f.dst).toNat
      (i = .ld f ∨ i = .cld f ∨ i = .ldt f ∨ i = .ldv f ∨ i = .acq f ∨ i = .amo f ∨ i = .amofFadd f ∨ i = .amofFmax f ∨ i = .cas f ∨
        i = .casv f → exec i s = .next (hold h .extent s2)) ∧
      (i = .st f → SideLogged i s s2 h r.loc (.bytes b) {} (retire h)) ∧
      (i = .cst f → SideLogged i s s2 h r.loc (.cap (rdC h.t f.dst)) {} (retire h)) ∧
      (∀ x y rest, i = .stt f → h.t.wq = x :: y :: rest →
        SideLogged i s s2 h r.loc (.bytes (bytesOf 128 x.toNat ++ bytesOf 128 y.toNat)) {}
          (fun t => retire h (modTask t h.core fun t => { t with wq := rest }))) ∧
      -- a reduction, kind relaxed; REL, whose release steps come first, logs its write after them
      (i = .amoReduce f → f.ord = 0 →
        SideLogged i s s2 h r.loc (.reduce (f.fn.toNat - 16) (8 * (fmtWidth f.ty / 8)) (rdG s h f.dst)) { scope := f.scope } (retire h)) ∧
      (∀ s3, i = .rel f → releaseSteps s1 h f.scope.toNat none = .done s3 → ordWait h.t none = false →
        SideLogged i s (postExtent s3 (whoOf h) r) h r.loc (.release b) { kind := 2, scope := f.scope } (retire h))) ∧
    -- R93: a load behind an overlapping store of the side log, and a store behind any
    (∀ r, k = .ok r →
      (i = .ld f → sideOverlap h.t r.loc (fmtWidth f.ty / 8) = true → exec i s = .next (hold h .sidelogLoad s1)) ∧
      (i = .st f → h.t.side ≠ [] →
        SideLogged i s s1 h r.loc (.bytes (bytesOf (fmtWidth f.ty / 8) (rdG s h f.dst).toNat)) {} (retire h))))

open Sys2Proof.Claims in
/-- R208 and R114 at one home: read after write, and the CONFLICT of another cluster's load of kind none. -/
def Obligations.StoredBytesAreLoaded : Prop :=
  ∀ (s t : State) (w v : Who) (r : Res) (b : List Byte), 0 < b.length → r.loc.byte % 256 + b.length ≤ 256 →
    w.entry = none → conflicts w (homeLine s r) (wordsTouched (r.loc.byte % 256) b.length) false = false →
    homeStore s w r (.bytes b) {} = .ok t () →
    (∀ o, ∃ t' d tg, homeLoad t w r b.length o = .ok t' (d, tg) ∧ lineGet d (r.loc.byte % 256) b.length = ofBytes b) ∧
    ((homeLine s r).recs = [] → (homeLine s r).marks = [] → v.task ≠ w.task → (v.die, v.clus) ≠ (w.die, w.clus) →
      refusesFrom s v.die r.home r.pa = none → homeLoad t v r b.length false = .conflict w.task)

open Sys2Proof.Claims in
/-- R83 and R210: the stored bytes stay unpublished; R98: the first access of a window that reaches an extent may clear MOVES and
PIN of its entry, at the address that the meaning uses. -/
def Obligations.HomeStoreFrame : Prop :=
  ∀ (s t : State) (w : Who) (r : Res) (b : List Byte), r.key.oid ≠ 0 → homeStore s w r (.bytes b) {} = .ok t () →
    ((lkp t.l2 r.key).map (·.data) = some (homeLine s r).data) ∧
    t.cores = s.cores ∧ t.clusters = s.clusters ∧ t.hostMem = s.hostMem ∧
    (HasRoom s r →
      (∀ k, k ≠ r.key → k.oid ≠ 0 → lkp t.l2 k = lkp s.l2 k) ∧
      ((∀ p, partAt s w.pid = some p → p.windowed.contains r.tkey = true) → MemSame s t) ∧
      (MemoryOk s → ∀ a, let e := extAddr s w.pid (if wDist r.word0 then r.key.facet else r.home.die) r.tkey
        a < e ∨ e + 8 ≤ a → physByte t a = physByte s a))

open Sys2Proof.Claims in
/-- R217, R218, R220, R222 and R223 at a home on the accessor's die whose line nobody holds. -/
def Obligations.AtomicsAtHome : Prop :=
  ∀ (s : State) (w : Who) (r : Res) (fn : Nat) (ty : BitVec 4) (b e : W64) (ord : Ordr),
    let l := homeLine s r
    let off := r.loc.byte % 256
    let bumped := if l.vsh = none then l.ver else l.ver + 1
    let next : LineKey → State → Line → BitVec 48 → Prop := fun k t d v => ∃ l', lkp t.l2 k = some l' ∧ l'.data = d ∧ l'.ver = v
    w.die = r.home.die → homeRefuses s r.home r.pa = none → l.recs = [] → l.marks = [] → l.pend = [] → HasRoom s r →
    (ty.toNat = 10 ∨ ty.toNat = 11 ∨ ty.toNat = 14 ∨ ty.toNat = 15 →
      let n := tyN ty
      off % (n / 8) = 0 →
      let old := l.data.extractLsb' (8 * off) n
      let bb := (b.truncate n : BitVec n)
      let stored := fun (x : BitVec n) => lineSet l.data off (n / 8) x.toNat
      (fn ≤ 8 → ∃ t, homeAtomic s w r fn ty b e 0 ord = .ok t (old.zeroExtend 64, bumped, true) ∧
        next r.key t (stored (match fn with
          | 0 => old + bb | 1 => old &&& bb | 2 => old ||| bb | 3 => old ^^^ bb
          | 4 => if bb.slt old then bb else old | 5 => if old.slt bb then bb else old
          | 6 => if bb.ult old then bb else old | 7 => if old.ult bb then bb else old | _ => bb)) bumped) ∧
      (∃ t, homeAtomic s w r 34 ty b e 0 ord = .ok t (old.zeroExtend 64, bumped, decide (old = e.truncate n)) ∧
        next r.key t (if old = e.truncate n then stored bb else l.data) bumped) ∧
      (l.ver = e.truncate 48 → ∃ t, homeAtomic s w r 8 ty b e 1 ord = .ok t (old.zeroExtend 64, bumped, true) ∧
        next r.key t (stored bb) bumped) ∧
      (l.ver ≠ e.truncate 48 → ∃ t, homeAtomic s w r 8 ty b e 1 ord = .ok t (old.zeroExtend 64, l.ver, false) ∧
        next r.key t l.data l.ver)) ∧
    -- AMOF: FP32 or BF16, the sum rounded once under RNE, or the larger with +0 above −0 and NaN before all (R42, R43, R222)
    (∀ m : Nat, (ty = 1 ∧ m = 4) ∨ (ty = 3 ∧ m = 2) → off % m = 0 →
      let old := (l.data.extractLsb' (8 * off) (8 * m)).toNat
      let x := decodeF ty old
      let y := decodeF ty (b.toNat % 2 ^ (8 * m))
      let leaves := fun (k : Nat) (v : Nat) => ∃ t, homeAtomic s w r k ty b e 0 ord = .ok t (BitVec.ofNat 64 old, bumped, true) ∧
        next r.key t (lineSet l.data off m v) bumped
      leaves 32 (roundF ty .rne (addF false x y)) ∧
      (x = .nan ∨ y = .nan → leaves 33 (if m = 4 then 0x7FC00000 else 0x7FC0)) ∧
      (x ≠ .nan → y ≠ .nan → leaves 33 (roundF ty .rne (minMaxF true false x y))))

namespace Sys2Proof.Claims

/-- What an atomic's kind asks before it: a release that is done at once, or none; no ordered write still on its way (R110, R118,
R218). -/
def Released (s : State) (h : Here) (f : FmtM) (home : DieId) (s1 : State) : Prop :=
  (if f.ord = 2 ∨ f.ord = 3 then releaseSteps s h f.scope.toNat (some home) = .done s1 else s1 = s) ∧
  (f.ord ≠ 0 → ordWait h.t (some home) = false)
/-- The acquire part (R117). -/
def Acquired (h : Here) (f : FmtM) (s : State) : State :=
  if f.ord = 1 ∨ f.ord = 3 then acquireInval s (whoOf h) f.scope.toNat else s
/-- What each returning atomic asks of its home: function, operands, and the kind that marks a CASV. -/
def atomicAsks (s : State) (h : Here) (f : FmtM) : List (Instr × Nat × W64 × W64 × Nat) :=
  let d := rdG s h f.dst
  let d1 := rdG s h (f.dst + 1)
  [(.amo f, f.fn.toNat, d, 0, 0), (.amofFadd f, 32, d, 0, 0), (.amofFmax f, 33, d, 0, 0), (.cas f, 34, d1, d, 0), (.casv f, 8, d1, d, 1)]
/-- An atomic of a home on another die: a returning one sends an ATOMIC and holds for its answer; a reduction is posted, and one of kind acq
or ar holds for its acceptance before its acquire (R115, R117, R126, R219). -/
def RemoteAtomics : Prop :=
  (∀ (s s1 s2 : State) (h : Here) (f : FmtM) (i : Instr) (r : Res), (i, (s1, Chk.ok r)) ∈ checksOf s h f → Ready i s h → h.t.remote = .idle →
    h.t.side = [] → r.home.die ≠ h.core.die → Released s1 h f r.home.die s2 →
    let ord : Ordr := { kind := f.ord, scope := f.scope }
    (∀ fn b e kind, (i, fn, b, e, kind) ∈ atomicAsks s h f →
      AsksHome i s (noFill s2 (CoreId.cluster h.core) fun q => q.key == r.key) h r
        (.atomic h.t.pid h.core h.t.taskId r fn f.ty b e kind ord)) ∧
    (i = .amoReduce f → PostsHome i s s2 h r (.reduce (f.fn.toNat - 16) (8 * (fmtWidth f.ty / 8)) (rdG s h f.dst)) ord
      (fun t => if f.ord = 1 ∨ f.ord = 3 then hold h .remote (modTask t h.core fun t => { t with remote := .posted h.t.stag })
        else retire h t))) ∧
  (∀ (s : State) (h : Here) (f : FmtM) (i : Instr), Ready i s h →
    i ∈ [.amo f, .amoReduce f, .amofFadd f, .amofFmax f, .cas f, .casv f] →
    let u := answered s h
    (∀ r tag fill, h.t.remote = .sent r tag fill → exec i s = .next (hold h .remote s)) ∧
    (∀ tag, h.t.remote = .posted tag → exec i s = .next (hold h .remote s)) ∧
    (∀ r why o, h.t.remote = .refused r why o → RefusedAs i s u h r why o) ∧
    (∀ r d, h.t.remote = .unsupported r d → exec i s = .next (takeFault u h 15 (d.zeroExtend 64) 0 0 r.loc.oid)) ∧
    (h.t.remote = .accepted → i = .amoReduce f → exec i s = .next (retire h (Acquired h f u))) ∧
    (∀ r v ver ok, h.t.remote = .old r v ver ok →
      let t := Acquired h f (dropStale u (CoreId.cluster h.core) r.key (wordsTouched (r.loc.byte % 256) (fmtWidth f.ty / 8)))
      let ext := if f.ty.toNat < 12 then (v.truncate (tyN f.ty)).signExtend 64 else (v.truncate (tyN f.ty)).setWidth 64
      (i = .amo f ∨ i = .cas f → exec i s = .next (retire h (wrG h f.dst ext t))) ∧
      (i = .amofFadd f ∨ i = .amofFmax f → exec i s = .next (retire h (wrG h f.dst v t))) ∧
      (i = .casv f → exec i s = .next (retire h (wrG h f.dst (BitVec.ofNat 64 (ver.toNat + if ok then 2 ^ 63 else 0)) t)))))

end Sys2Proof.Claims

open Sys2Proof.Claims in
/-- R217, R218, R220, R222 and R223, executed at the home or in the L1 (R85), or asked of a home on another die (R77, R115, R126, R219). That
an atomic at its home drops the issuing cluster's stale words of the line is the model's reading (log 54), as is the wait of an ordered one
(log 74); the number of an ATOMIC (log 14) and the unit that HWERROR names (log 73) are its choice. -/
def Obligations.AtomicForms : Prop :=
  RemoteAtomics ∧
  ∀ (s s1 s2 s3 : State) (h : Here) (f : FmtM) (r : Res) (v : W64) (ver : BitVec 48) (ok : Bool),
    let n := fmtWidth f.ty / 8
    let atHome := fun (i : Instr) (fn : Nat) (b e : W64) (kind : Nat) => Ready i s h ∧ h.t.remote = .idle ∧
      mCheck s h f { rights := if kind = 1 then 15 else 7, n := n, align := n, ver := decide (kind = 1) } = (s1, .ok r) ∧
      r.home.die = h.core.die ∧ h.t.side = [] ∧ Released s1 h f r.home.die s2 ∧
      (r.rate ≠ 0 ∨ wVer r.word0 = true ∨ cacheBanks (clusterAt s2 (CoreId.cluster h.core)) = [] ∨ kind = 1) ∧
      homeAtomic s2 (whoOf h) r fn f.ty b e kind { kind := f.ord, scope := f.scope } = .ok s3 (v, ver, ok)
    let d := rdG s h f.dst
    let d1 := rdG s h (f.dst + 1)
    let atL1 := fun (i : Instr) (fn : Nat) (b e : W64) => Ready i s h ∧ h.t.remote = .idle ∧
      mCheck s h f { rights := 7, n := n, align := n } = (s1, .ok r) ∧ r.home.die = h.core.die ∧ h.t.side = [] ∧
      Released s1 h f r.home.die s2 ∧ r.rate = 0 ∧ wVer r.word0 = false ∧
      cacheBanks (clusterAt s2 (CoreId.cluster h.core)) ≠ [] ∧ l1Atomic s2 h r fn f.ty b e = .ok s3 v
    let u := Acquired h f s3
    let t := Acquired h f (dropStale s3 (CoreId.cluster h.core) r.key (wordsTouched (r.loc.byte % 256) n))
    let ext := if f.ty.toNat < 12 then (v.truncate (tyN f.ty)).signExtend 64 else (v.truncate (tyN f.ty)).setWidth 64
    (atHome (.amo f) f.fn.toNat d 0 0 → exec (.amo f) s = .next (retire h (wrG h f.dst ext t))) ∧
    (atHome (.amoReduce f) (f.fn.toNat - 16) d 0 0 → exec (.amoReduce f) s = .next (retire h t)) ∧
    (atHome (.amofFadd f) 32 d 0 0 → exec (.amofFadd f) s = .next (retire h (wrG h f.dst v t))) ∧
    (atHome (.amofFmax f) 33 d 0 0 → exec (.amofFmax f) s = .next (retire h (wrG h f.dst v t))) ∧
    (atHome (.cas f) 34 d1 d 0 → exec (.cas f) s = .next (retire h (wrG h f.dst ext t))) ∧
    (atHome (.casv f) 8 d1 d 1 →
      exec (.casv f) s = .next (retire h (wrG h f.dst (BitVec.ofNat 64 (ver.toNat + if ok then 2 ^ 63 else 0)) t))) ∧
    (atL1 (.amo f) f.fn.toNat d 0 → exec (.amo f) s = .next (retire h (wrG h f.dst ext u))) ∧
    (atL1 (.amoReduce f) (f.fn.toNat - 16) d 0 → exec (.amoReduce f) s = .next (retire h u)) ∧
    (atL1 (.amofFadd f) 32 d 0 → exec (.amofFadd f) s = .next (retire h (wrG h f.dst v u))) ∧
    (atL1 (.amofFmax f) 33 d 0 → exec (.amofFmax f) s = .next (retire h (wrG h f.dst v u))) ∧
    (atL1 (.cas f) 34 d1 d → exec (.cas f) s = .next (retire h (wrG h f.dst ext u)))

open Sys2Proof.Claims in
/-- R213 and R214, with R63 for the counters and R6 for zero fields. What .ext answers beyond the object is the model's reading (log 32),
as is MAXLOSS while nothing is lost (log 68); the order of the faults and the width of .ext (log 78) and a CBO at a home that does not
serve it (log 77) are its choice. -/
def Obligations.CacheAndQueryForms : Prop :=
  ∀ (s s1 : State) (h : Here) (f : FmtM) (r : Res),
    let c := CoreId.cluster h.core
    let w := whoOf h
    let k := rdC h.t f.sa
    let a := mAddr s h f
    let ext := a.toNat / 2 ^ 21
    let facet := if wDist (walk s h.t.pid h.core.die ⟨capOid k, 0, ext⟩).word0 then h.core.die else 0
    let e := walk s h.t.pid h.core.die ⟨capOid k, facet, ext⟩
    let may := k.tag = true ∧ capSealed k = false ∧ (capOid k ≠ 0 ∨ isSup h.t = true) ∧ capRights k % 2 ^ 11 ≠ 0
    let word := fun (n : Nat) => if capOid k = 0 then (if n = 0 then physWord0 else 0)
      else otWord s h.t.pid h.core.die (capOid k).toNat n
    let count := fun (n : Nat) => (otWord s h.t.pid ((partDies s h.t.pid).headD 0) (capOid k).toNat n).toNat
    let enc : W64 := BitVec.ofNat 64 (count 6 % 2 ^ 48 + (if count 7 % 2 ^ 48 = 0 then 0x80 else count 6 / 2 ^ 56) * 2 ^ 56)
    let put := fun (v : W64) => retire h (wrG h f.dst v s)
    let put2 := fun (v u : W64) => retire h (wrG h (f.dst + 1) u (wrG h f.dst v s))
    let served := refusesFrom s1 h.core.die r.home r.pa = none
    (Ready (.pfL1 f) s h → tCheck s h f { rights := 1, n := 256, align := 256 } = (s1, .ok r) → served →
      let x := l1Find (clusterAt s1 c) r.key
      (∀ y, x = some y → (bankAt (clusterAt s1 c) y.bank).transit = none) → (x = none → cacheBanks (clusterAt s1 c) ≠ []) →
      let s2 := touchExtent (bring s1 r) w r
      let l := homeLine s2 r
      -- but for words that a store of the cluster has on its way to the home; what the L1 held of them stays
      let gone := flying s2 c r.home.die r.key (fun _ => true) &&& ~~~ (match x with | some y => y.valid | none => 0)
      let had := match x with | some y => y.bytes | none => 0
      exec (.pfL1 f) s = .next (retire h (mapL1 (l1Fill s2 c r (viewFor w l) (tagsFor w l)) c fun q y =>
        if q = r.key then { y with valid := y.valid &&& ~~~ gone, bytes := had &&& wordBytes gone } else y))) ∧
    (Ready (.pfL2 f) s h → tCheck s h f { rights := 1, n := 256, align := 256 } = (s1, .ok r) → served →
      exec (.pfL2 f) s = .next (retire h (touchExtent (bring s1 r) w r))) ∧
    (∀ ck, tCheck s h f { rights := 1, n := 256, align := 256 } = (s1, ck) →
      (∀ q, ck = .ok q → refusesFrom s1 h.core.die q.home q.pa ≠ none) →
      (Ready (.pfL1 f) s h → Goes (.pfL1 f) s h (pcOf h + 8) h.t) ∧ (Ready (.pfL2 f) s h → Goes (.pfL2 f) s h (pcOf h + 8) h.t)) ∧
    (tCheck s h f { rights := 2, n := 256, align := 256 } = (s1, .ok r) →
      -- a cache form keeps behind the task's stores to that die (R126)
      (behindStores h.t r.home.die h.core.die = true → ∀ i ∈ [Instr.cboClean f, .cboInval f, .cboFlush f], Ready i s h →
        exec i s = .next (hold h .remote s1)) ∧
      (behindStores h.t r.home.die h.core.die = false → served →
        (Ready (.cboClean f) s h → exec (.cboClean f) s = .next (retire h (touchExtent (cleanLine s1 h r) w r))) ∧
        (Ready (.cboInval f) s h → exec (.cboInval f) s = .next (retire h (touchExtent (invalLine s1 h r) w r))) ∧
        (Ready (.cboFlush f) s h →
          exec (.cboFlush f) s = .next (retire h (touchExtent (invalLine (cleanLine s1 h r) h r) w r)))) ∧
      (behindStores h.t r.home.die h.core.die = false → ¬ served → (Ready (.cboClean f) s h → exec (.cboClean f) s = .next (retire h s1)) ∧
        (Ready (.cboInval f) s h → exec (.cboInval f) s = .next (retire h s1)) ∧
        (Ready (.cboFlush f) s h → exec (.cboFlush f) s = .next (retire h s1)))) ∧
    (tCheck s h f { rights := 2, n := 256, align := 256 } = (s1, .unmapped r) →
      (Ready (.cboClean f) s h → exec (.cboClean f) s = .next (retire h s1)) ∧
      (Ready (.cboInval f) s h → exec (.cboInval f) s = .next (retire h s1)) ∧
      (Ready (.cboFlush f) s h → exec (.cboFlush f) s = .next (retire h s1))) ∧
    (may → wState e.word0 = 1 ∨ wState e.word0 = 2 →
      (Ready (.otqAttr f) s h → exec (.otqAttr f) s = .next (put (word 0 &&& 0xFFFFFFFFFFFF0000))) ∧
      (Ready (.otqDims f) s h → exec (.otqDims f) s = .next (put2 (word 1) (word 2))) ∧
      (Ready (.otqCnt f) s h → exec (.otqCnt f) s = .next (put2 (if wCoding e.word0 = 0 then 0 else enc)
        (if wCoding e.word0 = 0 then 0 else BitVec.ofNat 64 (count 7 % 2 ^ 48)))) ∧
      (Ready (.otqLayout f) s h → exec (.otqLayout f) s = .next (put (if wDist e.word0 then layoutRead e.layout else 0))) ∧
      (Ready (.otqPlanes f) s h → exec (.otqPlanes f) s = .next (put (if wFmt e.word0 = 6 then
        (word 7).truncate 32 ++ (word 6).truncate 32 else 0))) ∧
      (Ready (.otqExt f) s h → (capBase k : Int) ≤ a → a + 1 ≤ capBase k + capLen k →
        capBase k + capLen k ≤ objBytes s w (capOid k) e.word0 e.dims e.layout ∨ e.wf = false → a.toNat % 8 = 0 →
        exec (.otqExt f) s = .next (put (if isSup h.t then e.ext &&& ~~~ 0x1F else e.ext &&& 0xFE0)))) ∧
    (may → wState e.word0 = 0 ∨ wState e.word0 = 3 →
      ∀ i ∈ [Instr.otqAttr f, .otqDims f, .otqCnt f, .otqLayout f, .otqPlanes f, .otqExt f], Ready i s h →
        Faults i s h 8 (BitVec.ofInt 64 a) (BitVec.ofNat 64 ext) (facet.zeroExtend 64) (capOid k))

open Sys2Proof.Claims in
/-- R216 and R124, the list a load of its own for each pair (log 11); `ps` are the pairs read from the list and `rs` their lines, in order. -/
def Obligations.ValidateLines : Prop :=
  ∀ (s s1 s2 s3 : State) (h : Here) (f : FmtM) (c : Chk) (ps : List VPair) (rs : List (Option Res)),
    let n := f.fn.toNat + 1
    Ready (.vals f) s h → InOrder h →
    checkAcc s (whoOf h) f.sa.toNat (rdC h.t f.sa) { rights := 1, n := 16 * n, align := 16, again := heldMovingAt h 0 } (mAddr s h f) = (s1, c) →
    (∃ r, c = .ok r ∨ c = .unmapped r) → valsList h f n 0 s1 = .inr (s2, ps) → valsLines h 1 ps s2 = .inr (s3, rs) →
    let isOpen := fun (i : Nat) => match rs[i]? with | some (some r) => lineOpen (whoOf h) (homeLine s3 r) | _ => false
    let fails := fun (i : Nat) => match ps[i]?, rs[i]? with
      | some p, some (some r) => isOpen i || (homeLine s3 r).ver != p.expv
      | some _, some none => true
      | _, _ => false
    ∃ v : W64, exec (.vals f) s = .next (retire h (wrG h f.dst v
        (if bitsN v 0 8 = 0 then acquireInval s3 (whoOf h) f.scope.toNat else s3))) ∧
      bitsN v 16 48 = 0 ∧ ∀ i < 8, v.getLsbD i = fails i ∧ v.getLsbD (8 + i) = isOpen i

namespace Sys2Proof.Claims

/-- The release part of a synchronising form (R118): done at once, at the form's scope. -/
def SyncReleased (s : State) (h : Here) (f : FmtS) (s1 : State) : Prop :=
  releaseSteps s h f.scope.toNat none = .done s1 ∧ InOrder h
/-- A semaphore that the task may name (R225), and a barrier that its partition owns (R226). -/
def mayName (h : Here) (n : Nat) : Prop :=
  isSup h.t = true ∨ (h.t.crew.semlo ≤ n ∧ n < h.t.crew.semlo + h.t.crew.semn)

end Sys2Proof.Claims

namespace Sys2Proof.Claims

/-- What a release does before its own write (R118, with R93, R94 and R127): it waits for the side log; it reports discarded stores, a clash
of a write-back (log 76), and at PARTITION scope or wider refused stores, the oldest each; it publishes; and at that scope, as at CLUSTER
scope (log 76), it waits until the task's stores to other dies are acknowledged, at the die of its own word excepted (log 74). -/
def ReleaseEffect : Prop :=
  ∀ (s : State) (h : Here) (scope : Nat) (exempt : Option DieId),
    let t := h.t
    let w := whoOf h
    let k := releaseSteps s h scope exempt
    let older := fun (a b : BitVec 32) => (t.stag - b).toNat ≤ (t.stag - a).toNat
    (t.side ≠ [] → k = .wait s) ∧
    (t.side = [] → t.discarded ≠ [] → ∃ e ∈ t.discarded, (∀ x ∈ t.discarded, older e.tag x.tag) ∧
      k = .fault (modTask s h.core fun t => { t with discarded := [] })
        { cls := 8, d0 := BitVec.ofNat 64 e.loc.byte, d1 := BitVec.ofNat 64 (e.loc.byte / 2 ^ 21), d2 := e.loc.facet.zeroExtend 64,
          oid := e.loc.oid }) ∧
    (t.side = [] → t.discarded = [] →
      let clash := if 2 ≤ scope then releaseClash s w (covers scope w) else none
      let u := publishAll s w scope
      let waits := (3 ≤ scope ∧ ∃ x ∈ t.unacked, x.2 ≠ 0 ∧ some x.1 ≠ exempt) ∨ (scope = 1 ∧ ∃ x ∈ t.unacked, x.2 ≠ 0)
      let due := if 3 ≤ scope then t.refusals else t.refusals.filter fun r => decide (16 ≤ r.2.1)
      (∀ y i o, clash = some (y, i, o) →
        k = .fault s { cls := 13, d0 := BitVec.ofNat 64 (256 * y.line + 4 * i), d1 := o, oid := y.oid }) ∧
      (clash = none → waits → k = .wait u) ∧
      (clash = none → ¬ waits → due = [] → k = .done u) ∧
      (clash = none → ¬ waits → due ≠ [] → ∃ r ∈ due, (∀ x ∈ due, older r.1 x.1) ∧
        k = .fault (modTask u h.core fun t => { t with refusals := t.refusals.filter fun x => !due.contains x })
          { cls := 14, d0 := r.1.zeroExtend 64, d1 := BitVec.ofNat 64 due.length, d2 := BitVec.ofNat 64 (r.2.1 % 16), oid := r.2.2 }))
/-- Step 3 of R118. At DIE scope or wider each covered line of the partition shows the task's dirty words, of the L1 before those beside the
line, and its records there are gone, with its ownership in the L1; at CLUSTER scope its records are closed to the cluster; at CORE scope
nothing changes. -/
def PublishEffect : Prop :=
  ∀ (s : State) (w : Who) (scope : Nat),
    let u := publishAll s w scope
    let c : ClusterId := ⟨w.die, w.clus⟩
    (scope = 0 → u = s) ∧
    (∀ k l, lkp s.l2 k = some l →
      (scope = 1 → ∃ l', lkp u.l2 k = some l' ∧ l'.data = l.data ∧ l'.ver = l.ver ∧ l'.pend = l.pend ∧
        (∀ r ∈ l'.recs, k.pid = w.pid → r.task = w.task → r.die = w.die → r.closed = r.mask)) ∧
      (2 ≤ scope → (k.pid ≠ w.pid ∨ covers scope w l.home = false) → lkp u.l2 k = some l) ∧
      (2 ≤ scope → k.pid = w.pid → covers scope w l.home = true → ∃ l', lkp u.l2 k = some l' ∧ l'.ver = l.ver ∧
        (∀ r ∈ l'.recs, r.task = w.task → r.die = w.die → r.mask = 0) ∧
        ∀ i : Nat, i < 64 →
          let mine := (myMask w l).getLsbD i = true
          let inL1 := fun (x : L1Line) => ∃ o, x.own.find? (·.task == w.task) = some o ∧ o.dirty.getLsbD i = true
          let beside := fun (p : Pend) => l.pend.find? (·.task == w.task) = some p ∧ p.mask.getLsbD i = true
          let word := bitsN l'.data (32 * i) 32
          (∀ x, mine → l1Find (clusterAt s c) k = some x → inL1 x → word = bitsN x.data (32 * i) 32) ∧
          (∀ p, mine → (∀ x, l1Find (clusterAt s c) k = some x → ¬ inL1 x) → beside p → word = bitsN p.data (32 * i) 32) ∧
          ((¬ mine ∨ ((∀ x, l1Find (clusterAt s c) k = some x → ¬ inL1 x) ∧ ∀ p, ¬ beside p)) → word = bitsN l.data (32 * i) 32)))
/-- What an acquire does (R84, R117): at DIE scope or wider, words of the cluster's L1 whose home the scope covers become invalid unless a
resident task owns them or they are dirty; the rest of the L1, the L2 and memory stay, and reads on their way do not fill the L1. -/
def AcquireEffect : Prop :=
  ∀ (s : State) (w : Who) (scope : Nat),
    let t := acquireInval s w scope
    let c : ClusterId := ⟨w.die, w.clus⟩
    let keeps := fun (x : L1Line) (i : Nat) => covers scope w x.home = false ∨ ∃ o ∈ x.own,
      (o.task ∈ residents s c ∧ o.mask.getLsbD i = true) ∨ (o.task ∉ residents s c ∧ o.dirty.getLsbD i = true)
    (scope ≤ 1 → t = s) ∧ t.l2 = s.l2 ∧ t.mem = s.mem ∧ t.parts = s.parts ∧ (∀ d, d ≠ c → clusterAt t d = clusterAt s d) ∧
    (2 ≤ scope →
      (∀ y ∈ (clusterAt t c).l1, ∃ x ∈ (clusterAt s c).l1, y.1 = x.1 ∧ y.2.data = x.2.data ∧ y.2.own = x.2.own ∧
        ∀ i : Nat, i < 64 → (y.2.valid.getLsbD i = true ↔ x.2.valid.getLsbD i = true ∧ keeps x.2 i)) ∧
      (∀ x ∈ (clusterAt s c).l1, ∀ i : Nat, i < 64 → keeps x.2 i → ∃ y ∈ (clusterAt t c).l1, y.1 = x.1 ∧ y.2.data = x.2.data) ∧
      (∀ d k tk r g, CoreId.cluster d = c → coreAt t d = k → k.task = some tk → tk.remote = .sent r g true → covers scope w r.home = false))

end Sys2Proof.Claims

open Sys2Proof.Claims in
/-- R224, R225 and R226, with what a release (R118) and an acquire (R84, R117) do; the first clause of the forms says when a release is done at
once. That a fence of kind acq waits for the side log as well is the model's choice (log 80); that a release takes CONFLICT before it publishes
anything, and what it waits for, are its reading (log 76, log 74). -/
def Obligations.SemaphoresBarriersFences : Prop :=
  ReleaseEffect ∧ PublishEffect ∧ AcquireEffect ∧
  ∀ (s s1 : State) (h : Here) (f : FmtS),
    let c := CoreId.cluster h.core
    let n := f.imm.toNat
    let sem := fun (x : State) => lkpD (clusterAt x c).sems n 0
    let want : BitVec 32 := (rdG s h f.sa).truncate 32
    let acq := fun (x : State) => acquireInval x (whoOf h) f.scope.toNat
    let bar := fun (x : State) => lkpD (dieAt x h.core.die).barriers n {}
    let cnt : BitVec 24 := (rdG s h f.sa).truncate 24
    let hit := fun (b : Barrier) => let e := if b.count = 0 then (if cnt = 0 then 1 else cnt) else b.expect
      if b.count + 1 = e then { phase := b.phase + 1, expect := e, count := 0 } else { b with expect := e, count := b.count + 1 }
    let owned := holdsSlab s h.t.pid ⟨h.core.die, n / 32⟩ = true
    (∀ scope ex, ReleaseFree s h scope → releaseSteps s h scope ex = .done (publishAll s (whoOf h) scope) ∧ ordWait h.t ex = false) ∧
    (Ready (.swait f) s h → mayName h n →
      (want ≤ sem s → InOrder h → exec (.swait f) s = .next (retire h (wrG h f.dst ((sem s).zeroExtend 64) (acq s)))) ∧
      (sem s < want → ∃ t, exec (.swait f) s = .next t ∧ Holds s t h .sem)) ∧
    (Ready (.swaitTake f) s h → mayName h n →
      (want ≤ sem s → InOrder h →
        exec (.swaitTake f) s = .next (retire h (wrG h f.dst ((sem s).zeroExtend 64) (setSem (acq s) c n (sem s - want))))) ∧
      (sem s < want → ∃ t, exec (.swaitTake f) s = .next t ∧ Holds s t h .sem)) ∧
    (Ready (.ssig f) s h → mayName h n → SyncReleased s h f s1 →
      exec (.ssig f) s = .next (retire h (setSem s1 c n (sem s1 + 1)))) ∧
    (Ready (.sadd f) s h → mayName h n → SyncReleased s h f s1 →
      exec (.sadd f) s = .next (retire h (wrG h f.dst ((sem s1).zeroExtend 64) (setSem s1 c n (sem s1 + want))))) ∧
    (¬ mayName h n → (Ready (.swait f) s h → Faults (.swait f) s h 3 (f.imm.zeroExtend 64)) ∧
      (Ready (.swaitTake f) s h → Faults (.swaitTake f) s h 3 (f.imm.zeroExtend 64)) ∧
      (Ready (.ssig f) s h → Faults (.ssig f) s h 3 (f.imm.zeroExtend 64)) ∧
      (Ready (.sadd f) s h → Faults (.sadd f) s h 3 (f.imm.zeroExtend 64))) ∧
    (owned → (Ready (.bara f) s h → SyncReleased s h f s1 →
        exec (.bara f) s = .next (retire h (wrG h f.dst ((bar s1).phase.zeroExtend 64)
          (modDie s1 h.core.die fun k => { k with barriers := ins k.barriers n (hit (bar s1)) })))) ∧
      (Ready (.barw f) s h → ((bar s).phase ≠ want → InOrder h → exec (.barw f) s = .next (retire h (acq s))) ∧
        ((bar s).phase = want → ∃ t, exec (.barw f) s = .next t ∧ Holds s t h .bar))) ∧
    (¬ owned → (Ready (.bara f) s h → Faults (.bara f) s h 3 (f.imm.zeroExtend 64)) ∧
      (Ready (.barw f) s h → Faults (.barw f) s h 3 (f.imm.zeroExtend 64))) ∧
    (Ready (.fence f) s h → (f.ord = 1 → h.t.side = [] → h.t.discarded = [] → h.t.refusals = [] → InOrder h →
        exec (.fence f) s = .next (retire h (acq s))) ∧
      (SyncReleased s h f s1 → (f.ord = 2 → exec (.fence f) s = .next (retire h s1)) ∧
        (f.ord = 3 → exec (.fence f) s = .next (retire h (acq s1)))))

open Sys2Proof.Claims in
/-- R227; that a poll of an empty queue still acquires is the model's reading (log 36). -/
def Obligations.EventQueueForms : Prop :=
  ∀ (s : State) (h : Here) (f : FmtS),
    let words := fun (r : BitVec 256) (x : State) =>
      wrG h (f.dst + 3) (r.extractLsb' 192 64) (wrG h (f.dst + 2) (r.extractLsb' 128 64)
        (wrG h (f.dst + 1) (r.extractLsb' 64 64) (wrG h f.dst (r.extractLsb' 0 64) x)))
    let acq := fun (x : State) => acquireInval x (whoOf h) f.scope.toNat
    let pop := fun (rest : List (BitVec 256)) => modTask s h.core fun t => { t with evq := rest }
    (∀ r rest, h.t.evq = r :: rest → InOrder h →
      (Ready (.evpop f) s h → exec (.evpop f) s = .next (retire h (words r (acq (pop rest))))) ∧
      (Ready (.evpopPoll f) s h → exec (.evpopPoll f) s = .next (retire h (words r (acq (pop rest)))))) ∧
    (h.t.evq = [] → (Ready (.evpop f) s h → ∃ t, exec (.evpop f) s = .next t ∧ Holds s t h .event) ∧
      (Ready (.evpopPoll f) s h → InOrder h → exec (.evpopPoll f) s = .next (retire h (words 0 (acq s)))))

namespace Sys2Proof.Claims

/-- A vector form writes `r` to its v-or-slice destination, opens the window of its bound, and retires (R162, R166). -/
def Writes (i : Instr) (f : FmtV) (s : State) (h : Here) (r : VReg) : Prop :=
  exec i s = .next (retire h (putVS h f.dst f.aux r f.lat.toNat s))
/-- Active lanes take `g`, the others keep the destination's prior contents (R229). -/
def LaneWise (i : Instr) (f : FmtV) (s : State) (h : Here) (g : Nat → Nat) : Prop :=
  let w := fmtWidth f.fmt
  ∃ r : VReg, Writes i f s h r ∧ ∀ k < 1024 / w,
    lane w r k = if active (readP s h f.pred.toNat) w k then g k % 2 ^ w else lane w (priorVS s h f.dst f.aux) k
/-- Floating lane-wise forms (R232 to R236, R239): the exact result of the operands, rounded once; for VRCP, VRSQ, VTANH, VSIN and VCOS
a result within the bound of R235 (`unaryF`, log 9). -/
def floatOp (i : Instr) (x y z : Nat) (e : Int) : Option (FmtV × Nat) :=
  let v := fun (f : FmtV) (g : Bool → FVal → FVal → FVal → FVal) => some (f,
    roundF f.fmt (rmOf f.rm 0) (g (f.rm == 3) (decodeF f.fmt x) (decodeF f.fmt y) (decodeF f.fmt z)))
  let u := fun (f : FmtV) (major : Nat) => some (f, unaryF major f.fmt (rmOf f.rm 0) x)
  match i with
  | .vadd f => v f fun rd a b _ => addF rd a b
  | .vsub f => v f fun rd a b _ => addF rd a (negF b)
  | .vmul f => v f fun _ a b _ => mulF a b
  | .vfma f => v f fun rd a b c => addF rd (mulF a b) c
  | .vfms f => v f fun rd a b c => addF rd (mulF a b) (negF c)
  | .vnfma f => v f fun rd a b c => addF rd (negF (mulF a b)) c
  | .vmin f => some (f, roundF f.fmt .rne (minMaxF false (f.fn == 1) (decodeF f.fmt x) (decodeF f.fmt y)))
  | .vmax f => some (f, roundF f.fmt .rne (minMaxF true (f.fn == 1) (decodeF f.fmt x) (decodeF f.fmt y)))
  | .vrcp f => u f 0x6A | .vrsq f => u f 0x6B | .vsqrt f => u f 0x6C | .vexp2 f => u f 0x6D | .vlog2 f => u f 0x6E
  | .vtanh f => u f 0x6F | .vsin f => u f 0x70 | .vcos f => u f 0x71
  | .vscale f => some (f, roundF f.fmt (rmOf f.rm 0) (scaleF e (decodeF f.fmt x)))
  | .vscaleVec f => some (f, roundF f.fmt (rmOf f.rm 0) (scaleF (BitVec.ofNat (fmtWidth f.fmt) y).toInt (decodeF f.fmt x)))
  | _ => none
/-- Integer and bit lane-wise forms (R242, R243) and the integer side of VABS and VNEG (R234), on lanes of `w` bits. -/
def intOp (i : Instr) (x y : Nat) : Option (FmtV × Nat) :=
  let si := fun (f : FmtV) (n : Nat) => (BitVec.ofNat (fmtWidth f.fmt) n).toInt
  let rd := fun (f : FmtV) (n : Nat) => if 8 ≤ f.fmt.toNat ∧ f.fmt.toNat ≤ 11 then si f n else (n : Int)
  let wrap := fun (f : FmtV) (v : Int) => some (f, (BitVec.ofInt (fmtWidth f.fmt) v).toNat)
  let clamp := fun (f : FmtV) (v : Int) => if f.fn = 1 then wrap f (max (intLo f.fmt) (min (intHi f.fmt) v)) else wrap f v
  match i with
  | .vand f => some (f, x &&& y) | .vor f => some (f, x ||| y) | .vxor f => some (f, x ^^^ y)
  | .vnot f => some (f, 2 ^ fmtWidth f.fmt - 1 - x)
  | .vshl f => some (f, x * 2 ^ (y % fmtWidth f.fmt)) | .vshr f => some (f, x / 2 ^ (y % fmtWidth f.fmt))
  | .vsra f => wrap f (si f x / 2 ^ (y % fmtWidth f.fmt))
  | .viadd f => clamp f (rd f x + rd f y) | .visub f => clamp f (rd f x - rd f y)
  | .vimul f => wrap f (if f.fn = 1 then rd f x * rd f y / 2 ^ fmtWidth f.fmt else rd f x * rd f y)
  | .vimin f => wrap f (min (rd f x) (rd f y)) | .vimax f => wrap f (max (rd f x) (rd f y))
  | .vabs f => if isFloat f.fmt then some (f, roundF f.fmt .rne (absF (decodeF f.fmt x))) else wrap f (si f x).natAbs
  | .vneg f => if isFloat f.fmt then some (f, roundF f.fmt .rne (negF (decodeF f.fmt x))) else wrap f (-si f x)
  | .vmov f => some (f, x)
  | _ => none

end Sys2Proof.Claims

namespace Sys2Proof.Claims

/-- m·2^e is an integer, and it is an integer and a half. -/
def IsInt (m : Nat) (e : Int) : Prop := 0 ≤ e ∨ m % 2 ^ (-e).toNat = 0
def IsHalf (m : Nat) (e : Int) : Prop := ¬ IsInt m e ∧ (-1 ≤ e ∨ m % 2 ^ (-1 - e).toNat = 0)
/-- The special inputs of R236, in the order of its table, whatever the rounding mode; a NaN gives the canonical NaN. Majors 0x6A to 0x71 are
VRCP, VRSQ, VSQRT, VEXP2, VLOG2, VTANH, VSIN and VCOS. -/
def SpecialInputs : Prop :=
  ∀ (c : BitVec 4) (rm : RM) (bits : Nat),
    let x := decodeF c bits
    let gives := fun (major : Nat) (v : FVal) => unaryF major c rm bits = roundF c .rne v
    (x = .nan → ∀ major, unaryF major c rm bits = canonNaN c) ∧
    (∀ neg e, x = .fin neg 0 e → gives 0x6A (.inf neg) ∧ gives 0x6B (.inf neg) ∧ gives 0x6C (.fin neg 0 0) ∧ gives 0x6D (.fin false 1 0) ∧
      gives 0x6E (.inf true) ∧ gives 0x6F (.fin neg 0 0) ∧ gives 0x70 (.fin neg 0 0)) ∧
    (∀ neg, x = .inf neg → gives 0x6A (.fin neg 0 0) ∧ gives 0x6B (if neg then .nan else .fin false 0 0) ∧
      gives 0x6C (if neg then .nan else .inf false) ∧ gives 0x6D (if neg then .fin false 0 0 else .inf false) ∧
      gives 0x6E (if neg then .nan else .inf false) ∧ gives 0x6F (.fin neg 1 0) ∧ gives 0x70 .nan ∧ gives 0x71 .nan) ∧
    (∀ m e, x = .fin true m e → m ≠ 0 → gives 0x6B .nan ∧ gives 0x6C .nan ∧ gives 0x6E .nan) ∧
    (∀ neg m e, ∀ n : Nat, x = .fin neg m e → m ≠ 0 → -180 ≤ e → m * 2 ^ (e + 180).toNat = n * 2 ^ 180 → n < 4096 →
      gives 0x6D (.fin false 1 (if neg then -(n : Int) else n))) ∧
    (∀ m e, ∀ k : Nat, x = .fin false m e → m = 2 ^ k → gives 0x6E (ofIntF (e + k))) ∧
    (∀ neg m e, x = .fin neg m e → m ≠ 0 → (IsInt m e → gives 0x70 (.fin neg 0 0)) ∧ (IsHalf m e → gives 0x71 (.fin false 0 0)))
/-- The table of R235 on the other inputs. CR entries are the exact result rounded once, VSQRT under rm. A bounded result is the rounded
exact one or one within `ulps` of it, in units of the spacing there or of 2^q where a bound is absolute. The exact results are the model's
computation of them to far more bits than a format holds (log 9). -/
def AccuracyBounds : Prop :=
  (∀ (c : BitVec 4) (rm : RM) (bits : Nat) (neg : Bool) (m : Nat) (e : Int), decodeF c bits = .fin neg m e → m ≠ 0 →
    let bounded := fun (major ulps : Nat) (q : Int → Int) (exact : FVal) => ∀ neg' m' e', exact = .fin neg' m' e' →
      let r := unaryF major c rm bits
      r = roundF c .rne exact ∨ ∃ y, r = roundF c .rne y ∧ withinF y exact ulps (q (ulpExp c m' e')) = true
    let two := if c = 1 then 2 else 1
    let abs22 := fun (u : Int) => if c = 1 then (-22 : Int) else u
    (c = 2 ∨ c = 3 → unaryF 0x6A c rm bits = roundF c .rne (ratVal neg 1 m (-e))) ∧
    (c = 0 ∨ c = 1 → bounded 0x6A 1 id (ratVal neg 1 m (-e))) ∧
    (neg = false → bounded 0x6B two id (rsqVal m e) ∧ unaryF 0x6C c rm bits = roundF c rm (sqrtVal m e) ∧
      unaryF 0x6E c rm bits = roundF c .rne (log2Val m e)) ∧
    unaryF 0x6D c rm bits = roundF c .rne (exp2Val neg m e) ∧
    bounded 0x6F two id (tanhVal neg m e) ∧
    (¬ IsInt m e → bounded 0x70 1 abs22 (sinPiFix neg (turnFix m e))) ∧
    (¬ IsHalf m e → bounded 0x71 1 abs22 (sinPiFix false (turnFix m e + 2 ^ 319)))) ∧
  -- the square root to 160 bits below the point, and whether more is left
  (∀ (m : Nat) (e : Int), m ≠ 0 →
    let m1 := if e % 2 = 0 then m else 2 * m
    ∃ r : Nat, r * r ≤ m1 * 2 ^ 320 ∧ m1 * 2 ^ 320 < (r + 1) * (r + 1) ∧
      sqrtVal m e = .fin false (2 * r + if r * r = m1 * 2 ^ 320 then 0 else 1) ((if e % 2 = 0 then e else e - 1) / 2 - 161))

end Sys2Proof.Claims

open Sys2Proof.Claims in
/-- R229, R232, R233, R235, R236 and R239; which result within R235's bound VRCP, VRSQ, VTANH, VSIN and VCOS give is the model's free choice
(log 9). -/
def Obligations.FloatLanes : Prop :=
  SpecialInputs ∧ AccuracyBounds ∧
  ∀ (i : Instr) (f : FmtV) (n : Nat) (s : State) (h : Here), floatOp i 0 0 0 0 = some (f, n) → Ready i s h →
    let w := fmtWidth f.fmt
    LaneWise i f s h fun k => ((floatOp i (lane w (readVS s h f.sa f.aux 1) k) (lane w (readVS s h f.sb f.aux 2) k)
      (lane w (readVS s h f.sc f.aux 3) k) (rdG s h f.sb).toInt).map (·.2)).getD 0

open Sys2Proof.Claims in
/-- R229, R234, R242, R243 and R247 fn 0. -/
def Obligations.IntegerLanes : Prop :=
  ∀ (i : Instr) (f : FmtV) (n : Nat) (s : State) (h : Here), intOp i 0 0 = some (f, n) → Ready i s h →
    let w := fmtWidth f.fmt
    LaneWise i f s h fun k =>
      ((intOp i (lane w (readVS s h f.sa f.aux 1) k) (lane w (readVS s h f.sb f.aux 2) k)).map (·.2)).getD 0

open Sys2Proof.Claims in
/-- R242, R245 to R247, R252 and R253; D0 = 0 in VPOPQ's FORMAT is the model's reading (log 39). -/
def Obligations.VectorMoves : Prop :=
  ∀ (s : State) (h : Here) (f : FmtV),
    let w := fmtWidth f.fmt
    let n := 1024 / w
    let x := readVS s h f.sa f.aux 1
    let y := readVS s h f.sb f.aux 2
    let p := readP s h f.pred.toNat
    let idx := if f.fn = 0 then bitsN f.aux 0 8 else (rdG s h f.sb).toNat % n
    (Ready (.vsel f) s h → ∃ r : VReg, Writes (.vsel f) f s h r ∧ ∀ k < n, lane w r k = if active p w k then lane w x k else lane w y k) ∧
    (Ready (.vperm f) s h → LaneWise (.vperm f) f s h fun k =>
      let j := lane w (readVS s h f.sc f.aux 3) k % (2 * n)
      if j < n then lane w x j else lane w y (j - n)) ∧
    (Ready (.vbcast f) s h → LaneWise (.vbcast f) f s h fun _ => (rdG s h f.sa).toNat) ∧
    (Ready (.vbcastLane f) s h → LaneWise (.vbcastLane f) f s h fun _ => lane w x ((rdG s h f.sb).toNat % n)) ∧
    (Ready (.vins f) s h →
      let prior := priorVS s h f.dst 0
      exec (.vins f) s = .next (retire h (putVS h f.dst 0
        (if active p w idx then setLane w prior idx (rdG s h f.sa).toNat else prior) f.lat.toNat s))) ∧
    (Ready (.vext f) s h →
      let v := lane w (readVS s h f.sa 0 1) idx
      let u := wrG h f.dst (if 8 ≤ f.fmt.toNat ∧ f.fmt.toNat ≤ 11 then (BitVec.ofNat w v).signExtend 64 else BitVec.ofNat 64 v) s
      exec (.vext f) s = .next (retire h (if f.dst = 0 then u
        else modTask u h.core (openWin s.ck (.x f.dst.toNat) f.lat.toNat)))) ∧
    (Ready (.vmovP f) s h → ∃ r : BitVec 32, exec (.vmovP f) s = .next (retire h (putP h f.dst.toNat r f.lat.toNat s)) ∧
      ∀ g < 32, r.getLsbD g = decide (lane 32 x g ≠ 0)) ∧
    (Ready (.vmovV f) s h → ∃ r : VReg, Writes (.vmovV f) f s h r ∧
      ∀ g < 32, lane 32 r g = if (readP s h f.sa.toNat).getLsbD g then 2 ^ 32 - 1 else 0) ∧
    (Ready (.vpopq f) s h →
      (h.t.vq = [] → Waits (.vpopq f) s h (.qpop 5)) ∧
      (∀ v c rest, h.t.vq = (v, c) :: rest → c ≠ f.fmt → Faults (.vpopq f) s h 6) ∧
      (∀ v rest, h.t.vq = (v, f.fmt) :: rest → ∃ r : VReg,
        exec (.vpopq f) s = .next (retire h (putVS h f.dst f.aux r f.lat.toNat (modTask s h.core fun t => { t with vq := rest }))) ∧
        ∀ k < n, lane w r k = if active p w k then lane w v k else lane w (priorVS s h f.dst f.aux) k)) ∧
    (Ready (.vpushq f) s h →
      (16 ≤ h.t.wq.length → Waits (.vpushq f) s h (.qpush 6)) ∧
      (h.t.wq.length < 16 → exec (.vpushq f) s = .next (retire h (modTask s h.core fun t =>
        { t with wq := t.wq ++ [x], pushed := t.xissue }))))

open Sys2Proof.Claims in
/-- R237, R238, R240, R241, R244 and R254 to R257; the codes of a group that its band scale alone makes a NaN group are the model's choice
(log 101). -/
def Obligations.CompareReduceConvert : Prop :=
  ∀ (s : State) (h : Here) (f : FmtV),
    let w := fmtWidth f.fmt
    let x := readVS s h f.sa f.aux 1
    let y := readVS s h f.sb f.aux 2
    let p := readP s h f.pred.toNat
    let one := fun (i : Nat) => vcmpLane f.fmt (f.fn.toNat % 16) (lane w x i) (lane w y i)
    let stepped := fun (v : Nat) (u : State) => if f.rm = 4 then modTask u h.core (stepGens v) else u
    (Ready (.vcmp f) s h → ∃ r : BitVec 32, exec (.vcmp f) s = .next (retire h (putP h f.dst.toNat r f.lat.toNat s)) ∧
      ∀ g < 32, r.getLsbD g = if 32 ≤ w then active p w (32 * g / w) && one (32 * g / w)
        else p.getLsbD g && (if f.fn.getLsbD 4 then (List.range (32 / w)).any fun j => one (g * (32 / w) + j)
          else (List.range (32 / w)).all fun j => one (g * (32 / w) + j))) ∧
    (Ready (.vred f) s h → ∃ r : VReg, Writes (.vred f) f s h r ∧
      let v := vredVal f.fmt (f.fn.toNat % 8) f.rm p x
      let rw := if w = 64 then 64 else 32
      ∀ k < 1024 / rw, lane rw r k = if k = 0 ∨ f.fn.getLsbD 3 then v % 2 ^ rw else 0) ∧
    (Ready (.vcvt f) s h →
      let sf : BitVec 4 := f.aux.extractLsb' 0 4
      let ws := fmtWidth sf
      let k := f.fn.toNat % 8
      let z := readVS s h f.sa 0 1
      let c := fun (i : Nat) => cvtElem sf f.fmt (rmOf f.rm (srRand h.t ws i)) (f.fn.getLsbD 3) (lane ws z i) % 2 ^ w
      ∃ r : VReg, exec (.vcvt f) s = .next (retire h (stepped ws (putVS h f.dst 0 r f.lat.toNat s))) ∧
        ∀ d < 1024 / w, lane w r d =
          if w ≤ ws then
            (if k * (1024 / ws) ≤ d ∧ d < (k + 1) * (1024 / ws) ∧ active p ws (d - k * (1024 / ws)) then c (d - k * (1024 / ws))
             else lane w (priorVS s h f.dst 0) d)
          else if active p w d then c (k * (1024 / w) + d) else lane w (priorVS s h f.dst 0) d) ∧
    (Ready (.vseed f) s h → ∃ m : AMap Nat (BitVec 32),
      exec (.vseed f) s = .next (retire h (modTask s h.core fun t => { t with gen := m })) ∧
      ∀ g < 32, lkpD m g (genInit g) = if p.getLsbD g then (if lane 32 x g = 0 then 0x6D2B79F5 ^^^ BitVec.ofNat 32 g
        else BitVec.ofNat 32 (lane 32 x g)) else lkpD h.t.gen g (genInit g)) ∧
    (Ready (.vsmax f) s h →
      let st := readV s h f.sb.toNat 2
      let q := softmaxStep (active p 32) (lane 32 x) (lane 32 st 0) (lane 32 st 1)
      exec (.vsmax f) s = .next (retire h (putV h (f.dst.toNat + 1) (ofLanes 1024 32 [q.2.1, q.2.2.1, q.2.2.2]) f.lat.toNat
        (putV h f.dst.toNat (ofLanes 1024 32 q.1) f.lat.toNat s)))) ∧
    (Ready (.vmerge f) s h →
      let a := readV s h (f.sa.toNat + 1) 2
      let b := readV s h (f.sb.toNat + 1) 4
      let m := mergeFactors (lane 32 a 0) (lane 32 b 0)
      let g := fun (u v : Nat) => f32add (f32mul u m.2.1) (f32mul v m.2.2)
      ∃ o : VReg, exec (.vmerge f) s = .next (retire h (putV h (f.dst.toNat + 1)
          (ofLanes 1024 32 [m.1, g (lane 32 a 1) (lane 32 b 1), m.2.1, m.2.2]) f.lat.toNat (putV h f.dst.toNat o f.lat.toNat s))) ∧
        ∀ k < 32, lane 32 o k = if active p 32 k
          then g (lane 32 (readV s h f.sa.toNat 1) k) (lane 32 (readV s h f.sb.toNat 3) k) % 2 ^ 32
          else lane 32 (priorVS s h f.dst 0) k) ∧
    (Ready (.vquant f) s h → ∃ e c : VReg,
      exec (.vquant f) s = .next (retire h (stepped w
        (putV h (f.dst.toNat + 1) c f.lat.toNat (putV h f.dst.toNat e f.lat.toNat s)))) ∧
      ∀ gi < 128 / w,
        let q := quantGroup (fun j => rmOf f.rm (srRand h.t w (8 * gi + j)))
          ((List.range 8).map fun j => decodeF f.fmt (lane w x (8 * gi + j))) (decodeF 3 ((rdG s h f.sb).toNat % 2 ^ 16))
        lane 8 c (128 / w * f.fn.toNat + gi) = q.1 % 256 ∧
        ∀ j < 8, lane 4 e (8 * (128 / w * f.fn.toNat + gi) + j) = q.2.getD j 0 % 16) ∧
    (Ready (.vdeq f) s h → LaneWise (.vdeq f) f s h fun k =>
      let e := 1024 / w * f.fn.toNat + k
      roundF f.fmt (rmOf f.rm 0) (e2m1Val (lane 4 x e) (lane 8 y (e / 8)) ((rdG s h f.sc).toNat % 2 ^ 16)))

open Sys2Proof.Claims in
/-- R166 and R167: the window of a result that an XS instruction of latency L writes at cycle `ck0` covers an instruction k + 1
issues later at cycle `ck1` while fewer than L issues and fewer than L cycles have passed; that it ends with the first of the two
is the model's reading (log 7). -/
def Obligations.ResultWindow : Prop :=
  ∀ (t : Task) (n L ck0 ck1 k : Nat) (v : VReg) (pc : W64), (∀ w, w ∈ t.windows → w.dst ≠ .v n) →
    let u := (advance .xs pc)^[k] (advance .xs pc (openWin ck0 (.v n) L { t with v := ins t.v n v }))
    inWindow ck1 u (· == .v n) = decide (k + 1 < L ∧ ck1 < ck0 + L) ∧ lkpD u.v n 0 = v

namespace Sys2Proof.Claims

/-- The scratch range lies inside scratch, in banks declared to the crew (R248). -/
def ScratchDeclared (declared : BitVec 48) (a n : Nat) : Prop :=
  a + n ≤ 0xC00000 ∧ ∀ b < 48, b * 2 ^ 18 < a + n → a < (b + 1) * 2 ^ 18 → declared.getLsbD b = true
/-- A bank of the range is in TRANSIT (R80, R271). -/
def ScratchTransit (s : State) (h : Here) (a n : Nat) : Prop :=
  ∃ b < 48, b * 2 ^ 18 < a + n ∧ a < (b + 1) * 2 ^ 18 ∧ inTransit s (CoreId.cluster h.core) b = true
/-- Every bank of the range is in the mode. -/
def ScratchMode (s : State) (h : Here) (m : Mode) (a n : Nat) : Prop :=
  ∀ b < 48, b * 2 ^ 18 < a + n → a < (b + 1) * 2 ^ 18 → (bankAt (clusterAt s (CoreId.cluster h.core)) b).mode = m
/-- The scratch range passes checks 2 to 4 of R248. -/
def ScratchOk (s : State) (h : Here) (declared : BitVec 48) (m : Mode) (a n : Nat) : Prop :=
  ScratchDeclared declared a n ∧ ¬ ScratchTransit s h a n ∧ ScratchMode s h m a n
/-- What R248's checks answer to scratch ranges of n bytes at `addrs`, before the form has its effect: ALIGN, BANKGROUP outside scratch
or the declared banks, a hold for a bank in TRANSIT, BANKGROUP in another mode. -/
def ScratchStops (i : Instr) (s : State) (h : Here) (align : Nat) (declared : BitVec 48) (m : Mode) (addrs : List Nat) (n : Nat) : Prop :=
  let aligned := ∀ a ∈ addrs, a % align = 0
  let within := ∀ a ∈ addrs, ScratchDeclared declared a n
  let still := ∀ a ∈ addrs, ¬ ScratchTransit s h a n
  let faults := fun (cls : Nat) (bad : Nat → Prop) => ∃ a ∈ addrs, bad a ∧ Faults i s h cls (BitVec.ofNat 64 a)
  (¬ aligned → faults 9 fun a => a % align ≠ 0) ∧
  (aligned → ¬ within → faults 10 fun a => ¬ ScratchDeclared declared a n) ∧
  (aligned → within → ¬ still → exec i s = .next (hold h .transit s)) ∧
  (aligned → within → still → (∃ a ∈ addrs, ¬ ScratchMode s h m a n) → faults 10 fun a => ¬ ScratchMode s h m a n)
/-- A byte that a read of scratch may give at address `a`: its present value, or one that an unordered write has replaced there and
that may still show (R123, R166, R251; log 8). -/
def SeenByte (s : State) (h : Here) (a : Nat) (b : Byte) : Prop :=
  b = scrByte (clusterAt s (CoreId.cluster h.core)) a ∨ ∃ l ∈ scrOlds s (CoreId.cluster h.core) (some h.core) 0, lkp l a = some b

end Sys2Proof.Claims

open Sys2Proof.Claims in
/-- R248 to R250, R269 and the holds of R271; which of the values that R251 allows a read gives is the model's free choice (log 8), and that ALIGN
names the stride where the stride alone is misaligned (log 99) its choice. -/
def Obligations.ScratchForms : Prop :=
  ∀ (s : State) (h : Here) (f : FmtV) (g : FmtT),
    let c := CoreId.cluster h.core
    let w := fmtWidth f.fmt
    let p := readP s h f.pred.toNat
    let scrm := h.t.crew.scrm
    let a := (rdG s h f.sa + 32 * f.aux.signExtend 64).toNat
    let ax := fun (i : Nat) =>
      (rdG s h f.sa + BitVec.ofNat 64 (w / 8) * f.aux.signExtend 64 + BitVec.ofNat 64 i * rdG s h f.sb).toNat
    let fb := (rdG s h f.sa).toNat / 2 ^ 18
    let ta := fun (r : Nat) => (rdG s h g.sa + 32 * g.imm.signExtend 64 + BitVec.ofNat 64 r * rdG s h g.sb).toNat
    (∀ i : Instr, i = .vlds f ∨ i = .vsts f → Ready i s h → ScratchStops i s h 32 scrm .scratch [a] 128) ∧
    (Ready (.vldsx f) s h →
      ScratchStops (.vldsx f) s h (w / 8) scrm .scratch (((List.range (1024 / w)).filter (active p w)).map ax) (w / 8)) ∧
    (∀ i : Instr, i = .vldsFifo f ∨ i = .vstsFifo f → Ready i s h → ScratchStops i s h 1 h.t.crew.fifom .fifo [fb * 2 ^ 18] 1) ∧
    (∀ i : Instr, i = .tld g ∨ i = .tst g → Ready i s h →
      (ta 0 % 32 ≠ 0 → Faults i s h 9 (BitVec.ofNat 64 (ta 0))) ∧
      (ta 0 % 32 = 0 → (rdG s h g.sb).toNat % 32 ≠ 0 → Faults i s h 9 (rdG s h g.sb)) ∧
      (ta 0 % 32 = 0 → (rdG s h g.sb).toNat % 32 = 0 → ScratchStops i s h 1 scrm .scratch ((List.range 32).map ta) 128)) ∧
    -- a store over bytes that a queued multiply has still to read holds (R271)
    (Ready (.vstsFifo f) s h → ScratchOk s h h.t.crew.fifom .fifo (fb * 2 ^ 18) 1 → mxOverlap h.k [fb * 2 ^ 18] (2 ^ 18) = true →
      exec (.vstsFifo f) s = .next (hold h .mxread s)) ∧
    (Ready (.tst g) s h → (rdG s h g.sb).toNat % 32 = 0 → ta 0 % 32 = 0 → (∀ r < 32, ScratchOk s h scrm .scratch (ta r) 128) →
      mxOverlap h.k ((List.range 32).map ta) 128 = true → exec (.tst g) s = .next (hold h .mxread s)) ∧
    (Ready (.vlds f) s h → a % 32 = 0 → ScratchOk s h scrm .scratch a 128 → ∃ (b : Nat → Byte) (r : VReg),
      exec (.vlds f) s = .next (retire h (putV h f.dst.toNat r f.lat.toNat s)) ∧ (∀ j < 128, SeenByte s h (a + j) (b j)) ∧
      ∀ k < 1024 / w, lane w r k = if active p w k then ofBytes ((List.range 128).map b) / 2 ^ (w * k) % 2 ^ w
        else lane w (priorVS s h f.dst 0) k) ∧
    (Ready (.vldsx f) s h → (∀ i < 1024 / w, active p w i = true → ax i % (w / 8) = 0 ∧ ScratchOk s h scrm .scratch (ax i) (w / 8)) →
      ∃ (b : Nat → Nat → Byte) (r : VReg), exec (.vldsx f) s = .next (retire h (putV h f.dst.toNat r f.lat.toNat s)) ∧
        (∀ k < 1024 / w, ∀ j < w / 8, SeenByte s h (ax k + j) (b k j)) ∧
        ∀ k < 1024 / w, lane w r k = if active p w k then ofBytes ((List.range (w / 8)).map (b k))
          else lane w (priorVS s h f.dst 0) k) ∧
    (Ready (.vsts f) s h → a % 32 = 0 → ScratchOk s h scrm .scratch a 128 →
      (mxOverlap h.k [a] 128 = true → exec (.vsts f) s = .next (hold h .mxread s)) ∧
      (mxOverlap h.k [a] 128 = false → exec (.vsts f) s = .next (retire h (xsScrWrite h
        (((List.range 128).filter fun i => active p w (8 * i / w)).map fun i =>
          (a + i, BitVec.ofNat 8 (lane 8 (readV s h f.dst.toNat 1) i))) f.lat.toNat s)))) ∧
    (Ready (.vldsFifo f) s h → ScratchOk s h h.t.crew.fifom .fifo (fb * 2 ^ 18) 1 →
      ((bankAt (clusterAt s c) fb).fifo = [] → exec (.vldsFifo f) s = .next (hold h .fifo s)) ∧
      (∀ l rest, (bankAt (clusterAt s c) fb).fifo = l :: rest → exec (.vldsFifo f) s = .next (retire h
        (putV h (f.dst.toNat + 1) (l.extractLsb' 1024 1024) f.lat.toNat (putV h f.dst.toNat (l.extractLsb' 0 1024) f.lat.toNat
          (modBank s c fb fun k => { k with fifo := rest })))))) ∧
    (Ready (.vstsFifo f) s h → ScratchOk s h h.t.crew.fifom .fifo (fb * 2 ^ 18) 1 → mxOverlap h.k [fb * 2 ^ 18] (2 ^ 18) = false →
      (1024 ≤ (bankAt (clusterAt s c) fb).fifo.length → exec (.vstsFifo f) s = .next (hold h .fifo s)) ∧
      ((bankAt (clusterAt s c) fb).fifo.length < 1024 → exec (.vstsFifo f) s = .next (retire h (modBank s c fb fun k =>
        { k with fifo := k.fifo ++ [readV s h (f.dst.toNat + 1) 2 ++ readV s h f.dst.toNat 1] })))) ∧
    ((rdG s h g.sb).toNat % 32 = 0 → ta 0 % 32 = 0 → (∀ r < 32, ScratchOk s h scrm .scratch (ta r) 128) →
      (Ready (.tld g) s h → ∃ b : Nat → Nat → Byte, (∀ r < 32, ∀ j < 128, SeenByte s h (ta r + j) (b r j)) ∧
        exec (.tld g) s = .next (retire h (putT h g.dst.toNat
          ((List.range 32).map fun r => BitVec.ofNat 1024 (ofBytes ((List.range 128).map (b r)))) g.lat.toNat s))) ∧
      (Ready (.tst g) s h → mxOverlap h.k ((List.range 32).map ta) 128 = false →
        exec (.tst g) s = .next (retire h (xsScrWrite h ((List.range 32).flatMap fun r => (List.range 128).map fun j =>
          (ta r + j, BitVec.ofNat 8 (lane 8 ((readT s h g.dst.toNat).getD r 0) j))) g.lat.toNat s))))

namespace Sys2Proof.Claims

/-- Appended to the core's matrix queue (R259). -/
def Queued (i : Instr) (s : State) (h : Here) (e : MxEntry) : Prop :=
  exec i s = .next (retire h (modCore s h.core fun k => { k with mxq := k.mxq ++ [e] }))
def HoldsAt (i : Instr) (s : State) (h : Here) (why : HoldWhy) : Prop := ∃ t, exec i s = .next t ∧ Holds s t h why
/-- The operand bytes of a multiply of K steps: 256 outputs (64 for FP64) of the format's width, or 160 bytes a step for
E2M1 with its scales (R262). -/
def operandBytes (fmt : BitVec 4) (k : Nat) : Nat :=
  match fmt.toNat with | 6 => 160 * k | 4 => 256 * k | 5 => 256 * k | _ => 512 * k

end Sys2Proof.Claims

open Sys2Proof.Claims in
/-- R148, R259, R261, R263 and R267; that D0 of the BANKGROUP of checks 3 and 4 is x(sa) is the model's choice (log 96). -/
def Obligations.MatrixQueueForms : Prop :=
  ∀ (s : State) (h : Here) (f : FmtT),
    let full := 4 ≤ h.k.mxq.length
    let a := rdG s h f.sa
    let b := rdG s h f.sb
    let na := operandBytes f.fa f.imm.toNat
    let nb := operandBytes f.fb f.imm.toNat
    let group := fun (x n : Nat) => x + n ≤ 0xC00000 ∧ x / 0x300000 = (x + n - 1) / 0x300000
    let apart := group a.toNat na ∧ group b.toNat nb ∧ a.toNat / 0x300000 ≠ b.toNat / 0x300000
    let blk := (a + f.imm.zeroExtend 64).toNat % (if f.fa = 0 then 8 else 64)
    (Ready (.mxlease f) s h →
      let l := (clusterAt s (CoreId.cluster h.core)).lease
      let u := modCore s h.core fun k => { k with wanted := true }
      exec (.mxlease f) s = .next (retire h (modCluster u (CoreId.cluster h.core) fun k => { k with lease := { k.lease with
        reqs := if l.holder = some (cix h.core) ∨ cix h.core ∈ l.reqs then l.reqs else l.reqs ++ [cix h.core] } }))) ∧
    (∀ i cplx, (i = .mxmul f ∧ cplx = false) ∨ (i = .mxmulc f ∧ cplx = true) → Ready i s h →
      (h.k.wanted = false → Faults i s h 11) ∧
      (h.k.wanted = true → a.toNat % 256 ≠ 0 → Faults i s h 9 a) ∧
      (h.k.wanted = true → a.toNat % 256 = 0 → b.toNat % 256 ≠ 0 → Faults i s h 9 b) ∧
      (h.k.wanted = true → a.toNat % 256 = 0 → b.toNat % 256 = 0 → ¬ apart → Faults i s h 10 a) ∧
      (h.k.wanted = true → a.toNat % 256 = 0 → b.toNat % 256 = 0 → apart →
        (¬ ScratchDeclared h.t.crew.scrm a.toNat na → Faults i s h 10 a) ∧
        (ScratchDeclared h.t.crew.scrm a.toNat na → ¬ ScratchDeclared h.t.crew.scrm b.toNat nb → Faults i s h 10 b)) ∧
      (h.k.wanted = true → a.toNat % 256 = 0 → b.toNat % 256 = 0 → apart → ScratchDeclared h.t.crew.scrm a.toNat na →
        ScratchDeclared h.t.crew.scrm b.toNat nb → ScratchTransit s h a.toNat na ∨ ScratchTransit s h b.toNat nb →
        exec i s = .next (hold h .transit s)) ∧
      (h.k.wanted = true → a.toNat % 256 = 0 → b.toNat % 256 = 0 → apart → ScratchDeclared h.t.crew.scrm a.toNat na →
        ScratchDeclared h.t.crew.scrm b.toNat nb → ¬ ScratchTransit s h a.toNat na → ¬ ScratchTransit s h b.toNat nb →
        (¬ ScratchMode s h .scratch a.toNat na → Faults i s h 10 a) ∧
        (ScratchMode s h .scratch a.toNat na → ¬ ScratchMode s h .scratch b.toNat nb → Faults i s h 10 b)) ∧
      (h.k.wanted = true → a.toNat % 256 = 0 → b.toNat % 256 = 0 → apart → ScratchOk s h h.t.crew.scrm .scratch a.toNat na →
        ScratchOk s h h.t.crew.scrm .scratch b.toNat nb →
        (full → HoldsAt i s h .matrixFull) ∧ (¬ full → ∃ old, Queued i s h (.mul f cplx a b old)))) ∧
    (Ready (.mxzero f) s h → (full → HoldsAt (.mxzero f) s h .matrixFull) ∧ (¬ full → Queued (.mxzero f) s h .zero)) ∧
    (Ready (.mxzeroBlk f) s h → (full → HoldsAt (.mxzeroBlk f) s h .matrixFull) ∧
      (¬ full → Queued (.mxzeroBlk f) s h (.zeroBlk f.fa blk))) ∧
    (Ready (.mxwr f) s h → (full → HoldsAt (.mxwr f) s h .matrixFull) ∧
      (¬ full → Queued (.mxwr f) s h (.wr f.fa blk (readT s h f.sb.toNat)))) ∧
    (Ready (.mxfree f) s h → (full → HoldsAt (.mxfree f) s h .matrixFull) ∧
      (¬ full → exec (.mxfree f) s = .next (retire h (modCore s h.core fun k =>
        { k with wanted := false, mxq := k.mxq ++ [.free] }))))

open Sys2Proof.Claims in
/-- R266, R268 and R270. -/
def Obligations.TileForms : Prop :=
  ∀ (s : State) (h : Here) (f : FmtT),
    let bi := (rdG s h f.sa + f.imm.zeroExtend 64).toNat % (if f.fa = 0 then 8 else 64)
    let acc := fun (r c : Nat) => accLane h.k.acc 32 (256 * r + c)
    (h.k.mxq ≠ [] → (Ready (.mxrd f) s h → HoldsAt (.mxrd f) s h .mxread) ∧
      (Ready (.mxrdBand f) s h → HoldsAt (.mxrdBand f) s h .mxread)) ∧
    (h.k.mxq = [] →
      (Ready (.mxrd f) s h → ∃ rows : List VReg, rows.length = 32 ∧
        exec (.mxrd f) s = .next (retire h (putT h f.dst.toNat rows f.lat.toNat s)) ∧
        (f.fa ≠ 0 → ∀ r < 32, ∀ c < 32, lane 32 (rows.getD r 0) c = acc (32 * (bi / 8) + r) (32 * (bi % 8) + c)) ∧
        (f.fa = 0 → ∀ r < 32, ∀ c < 16, lane 64 (rows.getD r 0) c =
          accLane h.k.acc 64 (64 * (32 * (bi / 4) + r) + 16 * (bi % 4) + c))) ∧
      (Ready (.mxrdBand f) s h → f.fa ≠ 0 → ∃ rows : List VReg, rows.length = 32 ∧
        exec (.mxrdBand f) s = .next (retire h (putT h f.dst.toNat rows f.lat.toNat s)) ∧
        ∀ r < 32, ∀ c < 32, lane 32 (rows.getD r 0) c = roundF 1 .rne (mulF
          (mulF (decodeF 1 (acc (32 * (bi / 8) + r) (32 * (bi % 8) + c))) (decodeF 3 (bitsN (rdG s h f.sb) (16 * ((32 * (bi / 8) + r) / 64)) 16)))
          (decodeF 3 (bitsN (rdG s h f.sc) (16 * ((32 * (bi % 8) + c) / 64)) 16))) % 2 ^ 32)) ∧
    (Ready (.tsl f) s h →
      let di := ((rdG s h f.sb).toNat + bitsN f.imm 10 5) % 32
      let si := ((rdG s h f.sc).toNat + bitsN f.imm 4 5) % 32
      exec (.tsl f) s = .next (retire h (modTask s h.core fun t => openWin s.ck (.slice f.dst.toNat (f.imm.getLsbD 15) di) f.lat.toNat
        (setTSlice f.dst.toNat (f.imm.getLsbD 15) di (sliceRead s h.t f.sa.toNat (f.imm.getLsbD 9) si 1) t)))) ∧
    (Ready (.ttran f) s h → ∃ rows : List VReg, rows.length = 32 ∧
      exec (.ttran f) s = .next (retire h (putT h f.dst.toNat rows f.lat.toNat s)) ∧
      ∀ r < 32, ∀ c < 32, lane 32 (rows.getD r 0) c = lane 32 ((readT s h f.sa.toNat).getD c 0) r)

open Sys2Proof.Claims in
/-- R51 and R264 for one output of the bank. -/
def Obligations.MultiplyCell : Prop :=
  ∀ (f : FmtT) (get : Nat → Nat → Nat) (a b : Nat) (m : AMap Nat AccRow) (i j : Nat), f.fa ≠ 0 → f.fb ≠ 0 → i < 256 → j < 256 →
    let old := decodeF 1 (if f.fn = 1 then 0 else accLane m 32 (256 * i + j))
    let row := (panel f.fa get a f.imm.toNat).getD i []
    let col := (panel f.fb get b f.imm.toNat).getD j []
    accLane (mxResult f false get a b m) 32 (256 * i + j) =
      roundF 1 .rne (accNarrow old (groups16 (ngroups f.imm.toNat) (realTerms row col))) % 2 ^ 32

open Sys2Proof.Claims in
/-- R264, R259, R267, R148, R80 and R166; the order of events is the agenda's (log 1). -/
def Obligations.MatrixEvents : Prop :=
  ∀ (s : State) (c : CoreId) (cl : ClusterId) (b : Nat),
    let k := coreAt s c
    let me := CoreId.cluster c
    let lease := (clusterAt s cl).lease
    (∀ f cx x y old rest, k.mxq = .mul f cx x y old :: rest → (clusterAt s me).lease.holder = some (cix c) →
      exec (.mxmulEntry c) s = .next (setCore { s with free := s.free + 1 } c
        { k with acc := mxResult f cx (panelRead s c old) x.toNat y.toNat k.acc, dirty := addAll k.dirty (mxBlocks f cx),
                 mxq := .ran :: rest })) ∧
    (∀ rest, k.mxq = .ran :: rest → (clusterAt s me).lease.holder = some (cix c) →
      let u := modCluster (setCore s c { k with mxq := rest }) me fun x => { x with lease := { x.lease with cmds := x.lease.cmds + 1 } }
      exec (.matrixEntryComplete c) s = .next (if 16 ≤ (clusterAt s me).lease.cmds + 1 then passLease u c else u)) ∧
    (∀ rest, k.mxq = .zero :: rest →
      exec (.matrixEntryComplete c) s = .next (setCore s c { k with acc := [], dirty := List.range 64, mxq := rest })) ∧
    (∀ fmt bi rest, k.mxq = .zeroBlk fmt bi :: rest → exec (.matrixEntryComplete c) s = .next (setCore s c
      { k with acc := setBlk fmt bi (List.replicate 32 0) k.acc, dirty := addAll k.dirty (blkCover fmt bi), mxq := rest })) ∧
    (∀ rest, k.mxq = .free :: rest → exec (.matrixEntryComplete c) s = .next (if k.wanted
      then postLease (endLease (setCore s c { k with mxq := rest }) me (cix c)) c
      else dropLease (setCore s c { k with mxq := rest }) c)) ∧
    (∀ fmt bi rows rest, k.mxq = .wr fmt bi rows :: rest → exec (.matrixEntryComplete c) s = .next (setCore s c
      { k with acc := setBlk fmt bi rows k.acc, dirty := addAll k.dirty (blkCover fmt bi), mxq := rest })) ∧
    (∀ n, lease.holder = none → n ∈ lease.reqs → n < 4 →
      (∀ j ∈ lease.reqs, (n + 3 - lease.last) % 4 ≤ (j + 3 - lease.last) % 4 ∨ 4 ≤ j) → lease.last < 4 →
      exec (.leaseGrant cl) s = .next (modCluster s cl fun x => { x with lease :=
        { holder := some n, cmds := 0, since := s.ck, last := n, reqs := lease.reqs.filter (· != n) } })) ∧
    (∀ n, lease.holder = some n → 65536 ≤ s.ck - lease.since → exec (.leaseTimeout cl) s = .next (passLease s (coreOf cl n))) ∧
    (∀ tr, (bankAt (clusterAt s cl) b).transit = some tr →
      ((bankAt (clusterAt s cl) b).mode = .fifo → (bankAt (clusterAt s cl) b).fifo = []) →
      ((bankAt (clusterAt s cl) b).mode = .scratch → mxTouches s cl b = false) →
      -- a CACHE bank first gives its dirty words to their homes and drops its lines (R80)
      let v := if (bankAt (clusterAt s cl) b).mode = .cache then
          modCluster (((clusterAt s cl).l1.filter fun x => x.2.bank == b).foldl (fun acc x => spill acc x.1 x.2) s) cl
            fun kk => { kk with l1 := kk.l1.filter fun x => x.2.bank != b }
        else s
      let u := modCluster { v with serial := v.serial + 1 } cl fun kk => { kk with
        scr := kk.scr.filter (fun x => x.1 / 2 ^ 18 != b),
        bank := ins kk.bank b { mode := tr.target, transit := none, epoch := v.serial + 1, fifo := [], dirty := [] } }
      exec (.bankModeComplete cl b) s = .next (match tr.sem with | some n => addSem u cl n 1 | none => u)) ∧
    exec (.resultLanding c) s = .next (modTask s c fun t =>
      { t with windows := t.windows.filter fun w => decide (s.ck < w.since + (w.closes - w.issued)) })

namespace Sys2Proof.Claims

/-- What R273, R275 and R121 fix for an engine form: its queue and depth, its issue checks, the capabilities that the entry
keeps, the scope of its release, and whether its scratch side is a FIFO bank. -/
structure Issue where
  f : FmtE
  q : EngQ
  depth : Nat
  chk : State → Here → IAns
  caps : List CapReg
  scope : State → Nat
  fifo : Bool
/-- The issue of every engine form but LAUNCH (R273, R275, R279 to R304). A core uses CE0 when CIX is even. -/
def issueOf (i : Instr) (s : State) (h : Here) : Option Issue :=
  let ce := if h.core.core % 4 % 2 = 0 then EngQ.ce0 else EngQ.ce1
  let c := fun (r : BitVec 6) => rdC h.t r
  let copy := fun (f : FmtE) (chk : State → Here → IAns) =>
    some (⟨f, ce, 32, chk, [c f.sa], fun s => hostScope f.sa s h, boxFifo s f.sc h⟩ : Issue)
  let plain := fun (f : FmtE) (q : EngQ) (n : Nat) (chk : State → Here → IAns) (caps : List CapReg) =>
    some (⟨f, q, n, chk, caps, fun _ => 3, false⟩ : Issue)
  match i with
  | .cpy f => copy f (cpyChk f false) | .cpySt f => copy f (cpyChk f true)
  | .cpyl f => copy f (cpylChk f false) | .cpylSt f => copy f (cpylChk f true)
  | .cpylOo f =>
    some ⟨f, ce, 32, cpylOoChk f, [c f.sa, c f.sc], fun s => max (hostScope f.sa s h) (hostScope f.sc s h), false⟩
  | .gath f => plain f .ge 32 (gathChk f false) [c f.sa] | .scat f => plain f .ge 32 (gathChk f true) [c f.sa]
  | .halo f => plain f .he 64 (haloChk f) []
  | .reshd f => plain f .rs 8 (reshdChk f false) [c f.sa] | .reshdInst f => plain f .rs 8 (reshdChk f true) [c f.sa]
  | .send f => plain f .le 64 (sendChk f) [if f.fn = 3 then {} else c f.sa]
  | .sendt f => plain f .le 64 (sendChk f) [if f.fn = 3 then {} else c f.sa]
  | .mcast f => plain f .le 64 (mcastChk f) [c f.sa] | .recvadd f => plain f .le 64 (recvChk f) []
  | .attn f => plain f .ae 32 (attnChk f) (attnCaps f h) | .attnc f => plain f .ae 32 (attnChk f) (attnCaps f h)
  | .kvmap f => plain f .ae 32 (kvKeyChk f) [c f.sa] | .kvmapLen f => plain f .ae 32 (kvKeyChk f) [c f.sa]
  | .kvunmap f => plain f .ae 32 (kvChk f) [c f.sa]
  | .trunc f => plain f .su 16 (fun s h => iBind (kvChk f s h) (suChk f.sb · h)) [c f.sa]
  | .cursRd f | .cursPlay f | .cursGen f | .cursInit f | .cursFree f | .cursRdc f | .commit f | .commitSnap f | .sinpop f =>
    plain f .su 16 (suChk f.sa) []
  | _ => none
/-- The wait and signal semaphores of a command are the task's own (R275 check 1). -/
def semsOk (h : Here) (f : FmtE) : Prop :=
  (f.wv = 0 ∨ semAllowed h.t f.wsem.toNat = true) ∧ (f.sv = 0 ∨ semAllowed h.t f.ssem.toNat = true)
/-- A queued form returns its tag; a result form leaves its destination waiting for the tag; the next command has the next tag
(R276). -/
def tagged (i : Instr) (f : FmtE) (tag : BitVec 32) (t : Task) : Task :=
  let t1 := if isResult i then (if f.dst = 0 then t else { t with pendReg := t.pendReg ++ [(f.dst.toNat, t.etag)] })
    else wrReg .as f.dst.toNat (tag.setWidth 64) t
  { t1 with etag := if t1.etag = 0xFFFFFFFF then 1 else t1.etag + 1 }

end Sys2Proof.Claims

open Sys2Proof.Claims in
/-- R273, R275, R276 and R121: `s1` is the state after the checks, `s2` after the release. A wait or signal semaphore outside the crew's
range takes CAPBOUND with its number before the form's own checks. -/
def Obligations.EngineIssue : Prop :=
  (∀ (i : Instr) (s : State) (h : Here) (m : Issue), issueOf i s h = some m → Ready i s h →
    (m.f.wv ≠ 0 → semAllowed h.t m.f.wsem.toNat = false → Faults i s h 3 (m.f.wsem.zeroExtend 64)) ∧
    (m.f.wv = 0 ∨ semAllowed h.t m.f.wsem.toNat = true → m.f.sv ≠ 0 → semAllowed h.t m.f.ssem.toNat = false →
      Faults i s h 3 (m.f.ssem.zeroExtend 64))) ∧
  ∀ (i : Instr) (s s1 s2 : State) (h : Here) (m : Issue), issueOf i s h = some m → Ready i s h → semsOk h m.f →
    (m.chk s h = .ok s1 → releaseSteps s1 h (m.scope s1) none = .wait s2 → exec i s = .next (hold h .release s2)) ∧
    (m.chk s h = .ok s1 → releaseSteps s1 h (m.scope s1) none = .done s2 → InOrder h →
      let q := queueFor h.core m.q
      let l := queueAt s2 q
      (m.depth ≤ l.length → exec i s = .next (hold h .engineFull s2)) ∧
      (l.length < m.depth →
        let e := mkEntry s2 h i m.f [rdG s h m.f.sa, rdG s h m.f.sb, rdG s h m.f.sc] m.caps m.fifo
        exec i s = .next (retire h (modTask (setQueue { s2 with serial := s2.serial + 1 } q (l ++ [e])) h.core
          (tagged i m.f h.t.etag))))) ∧
    (∀ fi, m.chk s h = .fault s1 fi → exec i s = .next (takeFault s1 h fi.cls fi.d0 fi.d1 fi.d2 fi.oid)) ∧
    (∀ why, m.chk s h = .hold s1 why → exec i s = .next (hold h why s1))

namespace Sys2Proof.Claims

/-- The check of granule i of a LAUNCH's packet, as a CLD of the task meets it in state `s` (R74, R204, R305). -/
def granule (s : State) (h : Here) (f : FmtE) (i : Nat) : State × Chk :=
  checkAcc s (whoOf h) f.sb.toNat (rdC h.t f.sb) { rights := 16 + 1 + 128, n := 32, align := if i = 0 then 256 else 32, again := heldMovingAt h i }
    (capPos (rdC h.t f.sb) + 32 * i)
/-- Granule i is read, from an L1 hit or from a home on the task's die, and kept: the state goes from `s` to `t`. -/
def GranuleRead (s : State) (h : Here) (f : FmtE) (i : Nat) (t : State) (g : CapReg) : Prop :=
  ∃ s1 r u, granule s h f i = (s1, .ok r) ∧ wCapstore r.word0 = true ∧ wCoding r.word0 = 0 ∧ clearOf h r 32 ∧
    (∃ (d : Line) (tg : BitVec 8), g = { tag := tg.getLsbD i, bits := d.extractLsb' (256 * i) 256 } ∧
      ((∃ l, l1Hit s1 h r 32 l ∧ u = hitState s1 h r l ∧ d = l.data ∧ tg = l.tags) ∨
        (l1Misses s1 h r 32 false ∧ r.home.die = h.core.die ∧ ∃ s2 p, homeLoad s1 (whoOf h) r 32 false = .ok s2 p ∧
          overL1 s1 (CoreId.cluster h.core) r.key h.t.taskId false p = (d, tg) ∧ u = fillState s2 h r d tg))) ∧
    t = modTask u h.core fun k => { k with as := { k.as with got := k.as.got ++ [g] } }

end Sys2Proof.Claims

open Sys2Proof.Claims in
/-- R305: the packet's eight granules are read as CLDs in ascending order, those that the LAUNCH has read before it held left out, and the
packet reaches the root's list of submissions. That sa is checked by its capability alone, and that a granule once read is kept, are the
model's reading (log 44). -/
def Obligations.LaunchSubmission : Prop :=
  ∀ (s : State) (h : Here) (f : FmtE) (st : Nat → State) (g : Nat → CapReg) (n : Nat), Ready (.launch f) s h → semsOk h f →
    checkCap (whoOf h) f.sa.toNat (rdC h.t f.sa) (16 + 512) = none → h.t.remote = .idle →
    n ≤ 8 → h.t.as.got = (List.range n).map g → st n = s →
    let readTo := fun (m : Nat) => ∀ i : Nat, n ≤ i → i < m → GranuleRead (st i) h f i (st (i + 1)) (g i)
    (∀ s3, readTo 8 → releaseSteps (st 8) h 3 none = .done s3 → InOrder h →
      let packet : BitVec 2048 := ofLanes 2048 256 ((List.range 8).map fun i => (g i).bits.toNat)
      let e := { mkEntry s3 h (.launch f) f [] [] false with serial := s3.serial + 1 }
      let sub : Sub :=
        { packet := setBits packet 1344 64 h.t.taskId.toNat, kcap := g 0,
          acap := { g 1 with tag := (g 1).tag && (g 1).bits.getLsbD 54 }, issuer := some e }
      exec (.launch f) s = .next (retire h (modTask
        (modPart { s3 with serial := s3.serial + 1 } h.t.pid fun p => { p with subs := p.subs ++ [sub] }) h.core
        (tagged (.launch f) f h.t.etag)))) ∧
    -- the first granule that fails decides
    (∀ i : Nat, n ≤ i → i < 8 → readTo i →
      (∀ s1 fi, granule (st i) h f i = (s1, .fault fi) → exec (.launch f) s = .next (takeFault s1 h fi.cls fi.d0 fi.d1 fi.d2 fi.oid)) ∧
      (∀ s1, granule (st i) h f i = (s1, .moving) → exec (.launch f) s = .next (hold h (.movingAt i) s1)) ∧
      (∀ s1 r, granule (st i) h f i = (s1, .ok r) → wCapstore r.word0 = false →
        exec (.launch f) s = .next (takeFault s1 h 5 (f.sb.setWidth 64) 0 0 (capOid (rdC h.t f.sb)))) ∧
      -- a granule at a home on another die is asked for
      (∀ s1 r, granule (st i) h f i = (s1, .ok r) → wCapstore r.word0 = true → wCoding r.word0 = 0 → sideOverlap h.t r.loc 32 = false →
        l1Misses s1 h r 32 false → r.home.die ≠ h.core.die →
        exec (.launch f) s = .next (askRemote s1 h r (.read h.t.pid h.core h.t.taskId r 32 false false))))

namespace Sys2Proof.Claims

/-- Bytes [a, a + n) of the cluster's scratch serve an entry in a mode: inside scratch, no bank in TRANSIT, all in the mode (R80, R277). -/
def BanksReady (s : State) (e : Entry) (m : Mode) (a n : Nat) : Prop :=
  a + n ≤ 0xC00000 ∧ ∀ b < 48, b * 2 ^ 18 < a + n → a < (b + 1) * 2 ^ 18 →
    inTransit s (entClus e) b = false ∧ (bankAt (clusterAt s (entClus e)) b).mode = m
/-- A byte that an entry may read from scratch: the present one, or one that an unordered write has replaced there (R123; log 8). -/
def EntrySees (s : State) (e : Entry) (a : Nat) (b : Byte) : Prop :=
  b = scrByte (clusterAt s (entClus e)) a ∨ ∃ l ∈ scrOlds s (entClus e) none e.serial, lkp l a = some b
/-- The state after an entry has read scratch: the next free value, nothing else. -/
def afterRead (s : State) : State := { s with free := s.free + 1 }
/-- The entry goes on as `k` says of n bytes that it reads from scratch at a. -/
def FromScratch {α : Type} (s : State) (e : Entry) (a n : Nat) (x : EAns α) (k : Nat → EAns α) : Prop :=
  BanksReady s e .scratch a n → ∃ b : Nat → Byte, (∀ j < n, EntrySees s e (a + j) (b j)) ∧ x = k (ofBytes ((List.range n).map b))
/-- The state after an entry has written n bytes to scratch; until it completes, a reader that is not ordered with it may still see the
bytes replaced (R123), but for a HALO, whose faces are signalled as they land (R285). -/
def landed (s : State) (q : QueueId) (e : Entry) (a n v : Nat) : State :=
  let t := modCluster s (entClus e) fun k => scrWrite k a (bytesOf n v)
  if isHalo e = true then t
  else modEntry t q e.serial fun x =>
    { x with old := ((List.range n).map fun i => (a + i, scrByte (clusterAt s (entClus e)) (a + i))) ++ x.old }
/-- The FIFO bank at a scratch address. -/
def fifoAt (s : State) (e : Entry) (a : Nat) : List (BitVec 2048) := (bankAt (clusterAt s (entClus e)) (a / 2 ^ 18)).fifo
def withFifo (s : State) (e : Entry) (a : Nat) (l : List (BitVec 2048)) : State := modBank s (entClus e) (a / 2 ^ 18) fun k => { k with fifo := l }
/-- The engines whose writes to another die are packets (R349). -/
def sendsPackets (q : QueueId) : Prop := q.q = .ce0 ∨ q.q = .ce1 ∨ q.q = .ge ∨ q.q = .le

/-- R74, R86, R96, R112, R277, R278: the object bytes of an entry, line by line. That a read refused at its home stops the entry as a refused
write does (log 34), and that a read acts at its home in one step whichever die it is on (log 11), are the model's reading and choice. -/
def EntryBytes : Prop :=
  ∀ (s : State) (w : Who) (q : QueueId) (e : Entry) (c : CapReg) (rights : Nat) (host : Bool) (a : Int) (n v : Nat),
    let cut := 256 - a.toNat % 256
    let read := fun (s : State) (a : Int) (n : Nat) => entRead w e c rights host s a n
    let write := fun (s : State) (a : Int) (n v : Nat) => entWrite w e c rights host s a n v
    let chk := checkAcc s w 0 c { rights := rights, n := n, align := 1, host := host } a
    (a < 0 → let f := entFault e { cls := 3, d0 := BitVec.ofInt 64 a, oid := capOid c }
      read s a n = .fault s f ∧ write s a n v = .fault s f) ∧
    (0 ≤ a → cut < n →
      (read s a n = eBind (read s a cut) fun s1 x => eBind (read s1 (a + cut) (n - cut)) fun s2 y => .ok s2 (x + 2 ^ (8 * cut) * y)) ∧
      (write s a n v = eBind (write s a cut v) fun s1 _ => write s1 (a + cut) (n - cut) (v / 2 ^ (8 * cut)))) ∧
    (0 ≤ a → 0 < n → n ≤ cut → ∀ s1,
      (∀ f, chk = (s1, .fault f) → let g := entFault e { f with pos := some (f.pos.getD (BitVec.ofNat 64 a.toNat)) }
        read s a n = .fault s1 g ∧ write s a n v = .fault s1 g) ∧
      (chk = (s1, .moving) → read s a n = .hold s1 ∧ write s a n v = .hold s1) ∧
      (∀ r, chk = (s1, .unmapped r) → read s a n = .hold (postExtent s1 w r) ∧ write s a n v = .hold (postExtent s1 w r)) ∧
      (∀ r, chk = (s1, .ok r) →
        let off := r.loc.byte % 256
        let l := homeLine s1 r
        let mask := wordsTouched off n
        let x := v % 2 ^ (8 * n)
        (r.host = true → ∀ b, hostAddr s1 w.pid r.loc.oid r.loc.byte = some b →
          read s a n = .ok s1 (ofBytes (memBytes s1.hostMem b n)) ∧
          write s a n v = .ok { s1 with hostMem := memPutAll s1.hostMem b (bytesOf n x) } ()) ∧
        (r.host = false →
          (∀ s2 d tg, homeLoad s1 w r n false = .ok s2 (d, tg) → read s a n = .ok s2 (lineGet d off n)) ∧
          (∀ o, homeLoad s1 w r n false = .conflict o → read s a n = .fault s1 (entRefused e r 0 o)) ∧
          (∀ y, homeLoad s1 w r n false = .refused y → read s a n = .fault s1 (entRefused e r y 0)) ∧
          (w.entry = some (q, e.serial) →
            (r.home.die ≠ q.die → sendsPackets q →
              write s a n v = .ok (addAck (sendPkt s1 q.die r.home.die e.tag (.ewrite e.pid r (bytesOf n x) q e.serial)) q e.serial) ()) ∧
            (r.home.die = q.die →
              (∀ y, refusesFrom s1 w.die r.home r.pa = some y → write s a n v = .fault s1 (entRefused e r y 0)) ∧
              (refusesFrom s1 w.die r.home r.pa = none →
                (conflicts w l mask false = true → write s a n v = .fault s1 (entRefused e r 0 (ownerOf w l mask))) ∧
                (l.recs = [] → l.marks = [] → l.pend = [] → HasRoom s1 r → off + n ≤ 256 → ∃ t, write s a n v = .ok t () ∧
                  ∃ l', lkp t.l2 r.key = some l' ∧ l'.data = lineSet l.data off n x ∧ l'.marks = [⟨q, e.serial, mask⟩] ∧
                    l'.ver = (if l.vsh = none then l.ver else l.ver + 1))))))))

/-- The units of an entry's work, in their order, and what carries one out (R279 to R291). -/
def unitsOf (q : QueueId) (e : Entry) : Option (Nat × (State → Nat → EAns Unit)) :=
  match e.cmd with
  | .cpy _ => some (boxLines (entReg e 2), cpyUnit q e false)
  | .cpySt _ => some (boxLines (entReg e 2), cpyUnit q e true)
  | .cpyl _ => some (cdiv (spanLen (entReg e 2)) 256, cpylUnit q e false)
  | .cpylSt _ => some (cdiv (spanLen (entReg e 2)) 256, cpylUnit q e true)
  | .cpylOo _ => some (cdiv (entReg e 1).toNat 256, cpylOoUnit q e)
  | .gath _ => some (bitsN (entReg e 1) 24 24, gathUnit q e false)
  | .scat _ => some (bitsN (entReg e 1) 24 24, gathUnit q e true)
  | .send f | .sendt f => some (chunks (spanLen (entReg e 1)) + 1, sendUnit q e f.fn.toNat)
  | .mcast _ => some (mcastUnits e, mcastUnit q e)
  | .recvadd f => some (spanLen (entReg e 0) / 32, recvUnit q e f.fn.toNat)
  | _ => none

/-- The units that are left run in order, each from the state in which the last one left the machine; what is done stays done when a
unit holds or stops, and the entry goes on there (R277, R278; log 12). -/
def EntryUnits : Prop :=
  ∀ (q : QueueId) (e : Entry) (total : Nat) (unit : State → Nat → EAns Unit) (st : Nat → State) (m : Nat),
    unitsOf q e = some (total, unit) → e.prog ≤ m → m ≤ total →
    (∀ n, e.prog ≤ n → n < m → ∃ t, unit (st n) n = .ok t () ∧ st (n + 1) = setProg t q e.serial (n + 1)) →
    (m = total → runEntry q e (st e.prog) = .ok (st m) true) ∧
    (m < total → (∀ t, unit (st m) m = .hold t → runEntry q e (st e.prog) = .hold t) ∧
      (∀ t f, unit (st m) m = .fault t f → runEntry q e (st e.prog) = .fault t f))

/-- R280 to R283: a line of a box, a piece of a linear copy, a record. -/
def CopyUnits : Prop :=
  ∀ (s : State) (q : QueueId) (e : Entry) (n : Nat),
    let w := entWho q e
    let c := entCap e 0
    let rights := fun (store : Bool) => 16 + if store then 2 else 1
    (∀ store s1 x,
      xlate s w ⟨capOid c, 0, 0⟩ = (s1, x) →
      let box := entReg e 2
      let na := bitsN box 24 8 + 1
      let nb := bitsN box 32 8 + 1
      let nc := bitsN box 40 8 + 1
      let co := fun (k : Nat) => bitsN (entReg e 1) (16 * k) 16
      let dist := wDist x.word0
      let ca := co 0 + n % na
      let cb := co 1 + (if dist then 8 else 1) * (n / na % nb)
      let cc := co 2 + n / (na * nb) % nc
      let cd := co 3 + n / (na * nb * nc)
      let a := capBase c + capOff c + 256 * (lineNo (geom x.word0 x.dims) ca (if dist then cb / 8 else cb) cc cd : Nat)
      let ask : Ask := { rights := rights store, n := 256, align := 256, host := true }
      let chk := if dist then checkTile s1 w 0 c ask a (ca, cb, cc, cd) 0 else checkAcc s1 w 0 c ask a
      let sa := bitsN box 0 24
      (∀ s2 f, chk = (s2, .fault f) → cpyUnit q e store s n = .fault s2 (entFault e f)) ∧
      (∀ s2, chk = (s2, .moving) → cpyUnit q e store s n = .hold s2) ∧
      (∀ s2 r, chk = (s2, .unmapped r) → cpyUnit q e store s n = .hold (postExtent s2 w r)) ∧
      (∀ s2 r, chk = (s2, .ok r) →
        (store = false → r.host = false → ∀ s3 d tg, homeLoad s2 w r 256 false = .ok s3 (d, tg) →
          let v := lineGet d (r.loc.byte % 256) 256
          (e.fifo = false → BanksReady s3 e .scratch (sa + 256 * n) 256 →
            cpyUnit q e store s n = .ok (landed s3 q e (sa + 256 * n) 256 v) ()) ∧
          (e.fifo = true → BanksReady s3 e .fifo sa 256 → (fifoAt s3 e sa).length < 1024 →
            cpyUnit q e store s n = .ok (withFifo s3 e sa (fifoAt s3 e sa ++ [BitVec.ofNat 2048 v])) ()) ∧
          (e.fifo = true → BanksReady s3 e .fifo sa 256 → 1024 ≤ (fifoAt s3 e sa).length → cpyUnit q e store s n = .hold s3)) ∧
        (store = true → e.fifo = false →
          FromScratch s2 e (sa + 256 * n) 256 (cpyUnit q e store s n) fun v => entWriteAt w e 256 v (afterRead s2) r) ∧
        (store = true → e.fifo = true → BanksReady s2 e .fifo sa 256 →
          (fifoAt s2 e sa = [] → cpyUnit q e store s n = .hold s2) ∧
          (∀ l rest s3, fifoAt s2 e sa = l :: rest → entWriteAt w e 256 l.toNat s2 r = .ok s3 () → BanksReady s3 e .fifo sa 256 →
            fifoAt s3 e sa = l :: rest → cpyUnit q e store s n = .ok (withFifo s3 e sa rest) ())))) ∧
    -- linear copies: up to 256 bytes at once
    (let sp := entReg e 2
      let sa := bitsN sp 0 24
      let len := min 256 (bitsN sp 24 40 - 256 * n)
      let a : Int := capBase c + capOff c + ((entReg e 1).toNat + 256 * n : Nat)
      (∀ s1 v, entRead w e c (rights false) true s a len = .ok s1 v →
        (e.fifo = false → BanksReady s1 e .scratch (sa + 256 * n) len → cpylUnit q e false s n = .ok (landed s1 q e (sa + 256 * n) len v) ()) ∧
        (e.fifo = true → BanksReady s1 e .fifo sa 256 → (fifoAt s1 e sa).length < 1024 →
          cpylUnit q e false s n = .ok (withFifo s1 e sa (fifoAt s1 e sa ++ [BitVec.ofNat 2048 v])) ())) ∧
      (e.fifo = false → FromScratch s e (sa + 256 * n) len (cpylUnit q e true s n) fun v => entWrite w e c (rights true) true (afterRead s) a len v) ∧
      (e.fifo = true → BanksReady s e .fifo sa 256 → ∀ l rest s1, fifoAt s e sa = l :: rest →
        entWrite w e c (rights true) true s a len l.toNat = .ok s1 () → BanksReady s1 e .fifo sa 256 → fifoAt s1 e sa = l :: rest →
        cpylUnit q e true s n = .ok (withFifo s1 e sa rest) ())) ∧
    (let len := min 256 ((entReg e 1).toNat - 256 * n)
      let at1 := fun (c : CapReg) => capBase c + capOff c + (256 * n : Nat)
      ∀ s1 v s2, entRead w e c (rights false) true s (at1 c) len = .ok s1 v →
        entWrite w e (entCap e 1) (rights true) true s1 (at1 (entCap e 1)) len v = .ok s2 () → cpylOoUnit q e s n = .ok s2 ()) ∧
    -- record n of GATH and SCAT
    (∀ store, let size := 32 * bitsN (entReg e 2) 24 16
      let da := bitsN (entReg e 2) 0 24 + size * n
      FromScratch s e (bitsN (entReg e 1) 0 24 + 4 * n) 4 (gathUnit q e store s n) fun idx =>
        let a : Int := capBase c + capOff c + (size * idx : Nat)
        if a < capBase c ∨ (capBase c : Int) + capLen c < a + size then
          .fault (afterRead s) (entFault e { cls := 3, d0 := BitVec.ofInt 64 a, oid := capOid c })
        else if store then eBind (entScrRead (afterRead s) e (entClus e) da size) fun s2 v => entWrite w e c (rights true) false s2 a size v
        else eBind (entRead w e c (rights false) false (afterRead s) a size) fun s2 v => entScrWrite s2 q e (entClus e) da size v) ∧
    (∀ a m, FromScratch s e a m (entScrRead s e (entClus e) a m) fun v => .ok (afterRead s) v) ∧
    (∀ a m v, BanksReady s e .scratch a m → entScrWrite s q e (entClus e) a m v = .ok (landed s q e a m v) ())

/-- R288: the data of a SEND in packets of up to 2,048 bytes, then its flag, which tells that the data is visible. Pieces of 2,048 bytes are the
model's reading (log 40). -/
def SendUnits : Prop :=
  ∀ (s : State) (q : QueueId) (e : Entry) (k fn : Nat),
    let sp := entReg e 1
    let fl := entReg e 2
    let len := bitsN sp 24 40
    let m := min 2048 (len - 2048 * k)
    let c := entCap e 0
    let w := sendWho s (entWho q e) c fl
    let die := fl.extractLsb' 47 17
    let port := bitsN fl 0 3
    let nb := neighbourOf s e.pid q.die port
    let opp := if port % 2 = 0 then port + 1 else port - 1
    (2048 * k < len →
      FromScratch s e (bitsN sp 0 24 + 2048 * k) m (sendUnit q e fn s k) fun v =>
        if fn ≠ 3 then entWrite w e c (16 + 2) false (afterRead s) (capBase c + capOff c + (2048 * k : Nat)) m v
        else if nb = q.die then .ok (streamIn (afterRead s) nb (e.core.core / 4) opp (bytesOf m v)) ()
        else .ok (addAck (sendPkt (afterRead s) q.die nb e.tag (.stream e.pid (e.core.core / 4) opp (bytesOf m v) q e.serial (2048 * k))) q e.serial) ()) ∧
    (len ≤ 2048 * k → fn < 2 → allAcked s q e.serial = false → sendUnit q e fn s k = .hold s) ∧
    (len ≤ 2048 * k → 2 ≤ fn → sendUnit q e fn s k = .ok s ()) ∧
    (len ≤ 2048 * k → fn = 1 → allAcked s q e.serial = true →
      let t : ClusterId := ⟨die, bitsN fl 8 4⟩
      (die = q.die → semRefuses s e.pid t = false → sendUnit q e fn s k = .ok (addSem s t (bitsN fl 0 8) 1) ()) ∧
      (die = q.die → semRefuses s e.pid t = true →
        sendUnit q e fn s k = .fault s { cls := 14, d0 := e.tag.zeroExtend 64, d1 := 1, d2 := 1 }) ∧
      (die ≠ q.die → sendUnit q e fn s k =
        .ok (addAck (sendPkt s q.die die e.tag (.semadd e.pid t.clus (bitsN fl 0 8) q e.serial)) q e.serial) ())) ∧
    (len ≤ 2048 * k → fn = 0 → allAcked s q e.serial = true → ∀ s1 r,
      checkAcc s w 0 c { rights := 16 + 2 + 4, n := 8, align := 8 } (capBase c + (bitsN fl 0 47 : Nat)) = (s1, .ok r) →
      (r.home.die = q.die →
        (∀ s2 x, homeAtomic s1 w r 0 0xF 1 0 0 {} = .ok s2 x → sendUnit q e fn s k = .ok s2 ()) ∧
        (∀ o, homeAtomic s1 w r 0 0xF 1 0 0 {} = .conflict o → sendUnit q e fn s k = .fault s1 (entRefused e r 0 o)) ∧
        (∀ y, homeAtomic s1 w r 0 0xF 1 0 0 {} = .refused y → sendUnit q e fn s k = .fault s1 (entRefused e r y 0))) ∧
      (r.home.die ≠ q.die → sendUnit q e fn s k =
        .ok (addAck (sendPkt s1 q.die r.home.die e.tag (.flag e.pid r q e.serial)) q e.serial) ()))

end Sys2Proof.Claims

namespace Sys2Proof.Claims

/-- What a completion does (R122, R276, R277, R325): the entry's marks go, its semaphore counts once, its result reaches the register that
waits for its tag, the entry leaves the head of its queue and the next one's wait starts anew; a HALO or link engine's turn passes to the
die's other queue (R285, R288). -/
def CompletionEffect : Prop :=
  ∀ (s : State) (q : QueueId) (e : Entry),
    let t := completeEntry s q e
    (∀ kl ∈ t.l2, ∀ m ∈ kl.2.marks, ¬ (m.q = q ∧ m.serial = e.serial)) ∧
    semAt t (entClus e) e.ssem = semAt s (entClus e) e.ssem + (if e.sv = true then 1 else 0) ∧
    (∀ r, queueAt s q = e :: r → (r = [] → queueAt t q = []) ∧ ∀ x y, r = x :: y → queueAt t q = { x with since := s.ck } :: y) ∧
    (∀ c tk, coreOfTask s e.pid e.taskId = some c → (coreAt s c).task = some tk → (e.dst, e.tag) ∈ tk.pendReg →
      ∃ tk', (coreAt t c).task = some tk' ∧ (e.dst, e.tag) ∉ tk'.pendReg ∧ (e.dst ≠ 0 → lkpD tk'.a e.dst 0 = e.result)) ∧
    (q.q = .he → (dieAt t q.die).heTurn = 1 - q.unit) ∧ (q.q = .le → (dieAt t q.die).leTurn = 1 - q.unit) ∧
    t.mem = s.mem ∧ t.hostMem = s.hostMem

end Sys2Proof.Claims

open Sys2Proof.Claims in
/-- R122, R277, R278, R285 and R289. The model's own: an entry does its work at its start and where it was held (log 12); the turns of the two
slabs' queues at a shared engine (log 35); a refused read stops the entry (log 34); reads act at their home in one step (log 11); the data
of a SEND goes in pieces of 2,048 bytes (log 40); a SEND completes with its flag (log 62). -/
def Obligations.EngineEntryEvents : Prop :=
  CompletionEffect ∧ EntryUnits ∧ EntryBytes ∧ CopyUnits ∧ SendUnits ∧
  ∀ (s : State) (q : QueueId) (e : Entry),
    let start := fun (e : Entry) => modEntry s q e.serial fun x =>
      { x with st := .running, since := if x.st = .queued ∧ q.q ≠ .rs then s.ck else x.since }
    let work := fun (i : Instr) (e : Entry) =>
      -- a SEND whose flag has its effect in the same step completes with it (log 62)
      (∀ s2, runEntry q e (start e) = .ok s2 true →
        let u := modEntry s2 q e.serial fun x => { x with done := true }
        let closes := fun (x : Entry) => x.acks = 0 ∧ ∃ f, (x.cmd = .send f ∨ x.cmd = .sendt f) ∧ f.fn.toNat < 2
        (∀ x, entryAt u q e.serial = some x → closes x → exec i s = .next (completeEntry u q x)) ∧
        ((∀ x, entryAt u q e.serial = some x → ¬ closes x) → exec i s = .next u)) ∧
      (∀ s2, runEntry q e (start e) = .ok s2 false → exec i s = .next s2) ∧
      (∀ s2, runEntry q e (start e) = .hold s2 → exec i s = .next s2) ∧
      (∀ s2 fi, runEntry q e (start e) = .fault s2 fi → exec i s = .next (engFault s2 q e fi))
    let met := e.wcnt ≤ (semAt s (CoreId.cluster e.core) e.wsem).toNat
    let left := fun (s1 : State) (f : Entry) (dir : Nat) =>
      if f.prog = 2 ^ dir then modEntry (setProg s1 q f.serial 0) q f.serial fun x => { x with done := true }
      else setProg s1 q f.serial (f.prog - 2 ^ dir)
    (∀ r, queueAt s q = e :: r →
      (e.st = .queued → firedAt s q = [] → isSendt e = false → (e.wv = true → met) → engineFree s q = true → orderMet s q e = true →
        (lgenCheck s q e = none → work (.engineEntryStart q) e) ∧
        (∀ fi, lgenCheck s q e = some fi → exec (.engineEntryStart q) s = .next (engFault s q e fi))) ∧
      (e.st = .queued → isSendt e = false → (e.wv = true ∧ ¬ met) ∨ engineFree s q = false ∨ orderMet s q e = false →
        exec (.engineEntryStart q) s = .next s) ∧
      (e.st = .running → e.done = false → work (.engineEntryStart q) e) ∧
      (e.st = .queued → firedAt s q = [] → isSendt e = true → (slabAt s ⟨q.die, q.unit⟩).armed.length < 64 →
        exec (.engineEntryStart q) s = .next (modSlab (popQueue s q e.serial) ⟨q.die, q.unit⟩ fun b =>
          if met then { b with fired := b.fired ++ [{ e with since := s.ck }] } else { b with armed := b.armed ++ [e] })) ∧
      (∀ f dir s1, e.cmd = .halo f → e.st = .running → dir < 6 → e.prog / 2 ^ dir % 2 = 1 → faceLand q e dir s = .ok s1 () →
        exec (.haloFaceArrival q dir) s = .next (left s1 e dir)) ∧
      (e.st = .running → e.done = true → e.acks = 0 → exec (.engineEntryComplete q) s = .next (completeEntry s q e) ∧
        ((∀ x ∈ r, x.serial ≠ e.serial) → ∀ x ∈ queueAt (popQueue s q e.serial) q, x.serial ≠ e.serial)) ∧
      (e.st = .running → e.done = false ∨ e.acks ≠ 0 → exec (.engineEntryComplete q) s = .next s)) ∧
    (∀ sl l, q = ⟨sl.die, sl.slab, .le⟩ → (slabAt s sl).fired = e :: l → (∀ x r, queueAt s q = x :: r → x.st = .queued) →
      (e.st = .queued → e.done = false → engineFree s q = true →
        (lgenCheck s q e = none → work (.sendtFire sl) e) ∧
        (∀ fi, lgenCheck s q e = some fi → exec (.sendtFire sl) s = .next (engFault s q e fi))) ∧
      (e.st = .running → e.done = false → work (.sendtFire sl) e) ∧
      (e.st = .running → e.done = true → e.acks = 0 → exec (.engineEntryComplete q) s = .next (completeEntry s q e)))

namespace Sys2Proof.Claims

/-- The entries of a table as an entry reads them in a state that the reads leave as it is: the lines are resident and the translations
cached. -/
def Table (s : State) (w : Who) (e : Entry) (c : CapReg) (t : Nat → KvEnt) : Prop := ∀ i < kvSize c, kvRead w e c s i = .ok s (t i)
/-- The bucket of a key (R294 step 1). -/
def bucketOf (np : Nat) (k : KvKey) : Nat := (k.seq * 0x9E3779B1 + k.layer * 0x85EBCA6B + k.lblk * 0xC2B2AE35) % 2 ^ 32 % np
def HasKey (k : KvKey) (x : KvEnt) : Prop := x.v = true ∧ x.seq = k.seq ∧ x.layer = k.layer ∧ x.lblk = k.lblk
/-- The n-th link of a bucket's overflow list, 1 + its page; a value that names no page ends the list (log 96). -/
def listAt (t : Nat → KvEnt) (b : Nat) : Nat → Nat
  | 0 => (t b).head
  | n + 1 => (t (listAt t b n - 1)).link
def OnList (t : Nat → KvEnt) (np b n : Nat) : Prop := ∀ m ≤ n, 1 ≤ listAt t b m ∧ listAt t b m ≤ np
/-- The page that R294 finds: the first of eight probes, else the first on the overflow list within NP steps. -/
def Found (t : Nat → KvEnt) (np : Nat) (k : KvKey) (o : Option Nat) : Prop :=
  let b := bucketOf np k
  (∃ i < 8, o = some ((b + i) % np) ∧ HasKey k (t ((b + i) % np)) ∧ ∀ j < i, ¬ HasKey k (t ((b + j) % np))) ∨
  ((∀ i < 8, ¬ HasKey k (t ((b + i) % np))) ∧
    ((∃ n < np, OnList t np b n ∧ HasKey k (t (listAt t b n - 1)) ∧ (∀ m < n, ¬ HasKey k (t (listAt t b m - 1))) ∧
        o = some (listAt t b n - 1)) ∨
      (o = none ∧ ∀ n < np, OnList t np b n → ¬ HasKey k (t (listAt t b n - 1)))))

/-- R292 to R295: the table, its lookup, KVMAP, KVMAP.len and KVUNMAP; that KVUNMAP clears LINK too is the model's (log 38). -/
def TableWork : Prop :=
  ∀ (s : State) (w : Who) (q : QueueId) (e : Entry) (c : CapReg) (t : Nat → KvEnt) (f : FmtE),
    let np := kvSize c
    let put := fun (s : State) (i : Nat) (x : KvEnt) (t : State) => kvWrite w e c s i x = .ok t ()
    np = ((capLen c : Int) - capOff c).toNat / 16 ∧
    (∀ i, kvRead w e c s i =
      eBind (entRead w e c (16 + 1) false s (capBase c + capOff c + (16 * i : Nat)) 16) fun s1 n => .ok s1
        { head := n / 2 ^ 96 % 2 ^ 32, link := n / 2 ^ 64 % 2 ^ 32, v := decide (n / 2 ^ 63 % 2 = 1), seq := n / 2 ^ 39 % 2 ^ 24,
          layer := n / 2 ^ 27 % 2 ^ 12, lblk := n / 2 ^ 7 % 2 ^ 20, vlen := n / 2 % 2 ^ 6, low := n % 2 }) ∧
    (∀ i n, n < 2 ^ 128 → kvWrite w e c s i (kvOf n) = entWrite w e c (16 + 2) false s (capBase c + capOff c + (16 * i : Nat)) 16 n) ∧
    (∀ k, np = 0 → kvLookup w e c k s = .ok s none) ∧
    (Table s w e c t → 0 < np →
      (∀ k, ∃ o, Found t np k o ∧ kvLookup w e c k s = .ok s o) ∧
      -- a valid page is cleared and leaves its list
      (∀ p, p < np → (t p).v = true →
        let b := bucketOf np ⟨(t p).seq, (t p).layer, (t p).lblk⟩
        ∀ s1 s2 y s3,
          (((t b).head = p + 1 ∧ put s b { t b with head := (t p).link } s1) ∨
            ((t b).head ≠ p + 1 ∧ ∃ n < np, OnList t np b n ∧ (t (listAt t b n - 1)).link = p + 1 ∧
              (∀ m < n, (t (listAt t b m - 1)).link ≠ p + 1) ∧ put s (listAt t b n - 1) { t (listAt t b n - 1) with link := (t p).link } s1) ∨
            ((t b).head ≠ p + 1 ∧ (∀ n < np, OnList t np b n → (t (listAt t b n - 1)).link ≠ p + 1) ∧ s1 = s)) →
          kvRead w e c s1 p = .ok s2 y → put s2 p { y with v := false, vlen := 0, link := 0 } s3 → kvClear w e c p (t p) s = .ok s3 ()) ∧
      (w = entWho q e → c = entCap e 0 →
        let p := (entReg e 1).toNat
        let key := entReg e 2
        let k : KvKey := ⟨bitsN key 40 24, bitsN key 28 12, bitsN key 8 20⟩
        let vlen := bitsN key 0 6
        let b := bucketOf np k
        let y : KvEnt := { t p with v := true, seq := k.seq, layer := k.layer, lblk := k.lblk, vlen := vlen }
        (np ≤ p → e.cmd = .kvmap f ∨ e.cmd = .kvmapLen f ∨ e.cmd = .kvunmap f → kvRun q e s = .ok s 3) ∧
        (p < np → e.cmd = .kvmap f →
          ((t p).v = true → kvRun q e s = .ok s 1) ∧
          ((t p).v = false → ∀ x, Found t np k (some x) → kvRun q e s = .ok s 2) ∧
          ((t p).v = false → Found t np k none →
            ((p + np - b) % np < 8 → ∀ s1, put s p y s1 → kvRun q e s = .ok s1 0) ∧
            (8 ≤ (p + np - b) % np → ∀ s1 s2 h s3, put s p { y with link := (t b).head } s1 → kvRead w e c s1 b = .ok s2 h →
              put s2 b { h with head := p + 1 } s3 → kvRun q e s = .ok s3 0))) ∧
        (p < np → e.cmd = .kvmapLen f →
          (¬ HasKey k (t p) → kvRun q e s = .ok s 1) ∧
          (HasKey k (t p) → ∀ s1, put s p { t p with vlen := vlen } s1 → kvRun q e s = .ok s1 0)) ∧
        (p < np → e.cmd = .kvunmap f →
          ((t p).v = false → kvRun q e s = .ok s 4) ∧
          ((t p).v = true → ∀ s1, kvClear w e c p (t p) s = .ok s1 () → kvRun q e s = .ok s1 0)) ∧
        (e.cmd = .kvmap f ∨ e.cmd = .kvmapLen f ∨ e.cmd = .kvunmap f → ∀ s1 n, kvRun q e s = .ok s1 n →
          runEntry q e s = .ok (setResult s1 q e.serial (BitVec.ofNat 64 n)) true)))

/-- R302 to R304, R336 and R339: the cursor forms and TRUNC on a record; what a value above 2^32 − 1 does is the model's reading
(log 31). -/
def StreamWork : Prop :=
  (∀ (s : State) (q : QueueId) (e : Entry) (f : FmtE),
    let n := bitsN (entReg e 0) 0 6
    let r := recAt s q.die n
    let val := entReg e 1
    let v : BitVec 32 := val.truncate 32
    let small := val.toNat < 2 ^ 32
    let below := ∀ x ∈ r.fifo, v ≤ x.1
    let k := (r.shead + 1) % 8
    let forms : List (Instr × Prop × SRec × W64) :=
      [(.cursRd f, r.v = true, r, r.gen ++ r.play),
       (.cursPlay f, r.v = true ∧ r.play ≤ v ∧ v ≤ r.gen ∧ v ≤ r.cmt ∧ below, { r with play := v }, r.gen ++ v),
       (.cursGen f, r.v = true ∧ small ∧ r.gen ≤ v ∧ below, { r with gen := v }, v ++ r.play),
       (.cursInit f, bitsN val 38 2 ≠ 3 ∧ bitsN val 0 16 ≠ 0,
         { seq := val.extractLsb' 40 24, policy := bitsN val 38 2, v := true, sint := val.extractLsb' 0 16, shead := 7,
           nlm1 := val.extractLsb' 26 12, listener := some e.taskId }, 0),
       (.cursFree f, r.v = true, { r with v := false, fifo := [], svalid := 0, shead := 7 }, 0),
       (.cursRdc f, r.v = true, r, r.rply ++ r.cmt),
       (.commit f, r.v = true ∧ small ∧ r.cmt ≤ v ∧ v ≤ r.gen ∧ below, { r with cmt := v }, r.gen ++ v),
       (.commitSnap f, r.v = true ∧ small ∧ v.toNat % r.sint.toNat = 0 ∧ v ≤ r.gen,
         { r with snap := ins r.snap k v, svalid := r.svalid ||| BitVec.ofNat 8 (2 ^ k), shead := k }, BitVec.ofNat 64 k),
       (.sinpop f, r.v = true ∧ (∀ x ∈ r.fifo, r.gen ≤ x.1),
         (match r.fifo with
          | [] => { r with listener := some e.taskId }
          | _ :: rest => { r with fifo := rest, fhead := (r.fhead + 1) % 16, listener := some e.taskId }),
         (match r.fifo with | [] => BitVec.allOnes 64 | x :: _ => x.1 ++ x.2))]
    ∀ x ∈ forms, e.cmd = x.1 →
      (holdsSlab s e.pid ⟨q.die, n / 32⟩ = true → x.2.1 →
        runEntry q e s = .ok (setResult (setRec s q.die n x.2.2.1) q e.serial x.2.2.2) true) ∧
      (holdsSlab s e.pid ⟨q.die, n / 32⟩ = false ∨ ¬ x.2.1 → runEntry q e s = .ok (setResult s q e.serial (BitVec.allOnes 64)) true)) ∧
  (∀ (s : State) (q : QueueId) (e : Entry) (f : FmtE), e.cmd = .trunc f →
    let w := entWho q e
    let c := entCap e 0
    let i := bitsN (entReg e 1) 0 6
    let p := bitsN (entReg e 2) 0 32
    let r := recAt s q.die i
    let mine := holdsSlab s e.pid ⟨q.die, i / 32⟩ = true ∧ r.v = true ∧ r.play.toNat ≤ p ∧ p ≤ r.gen.toNat
    let pos := fun (k : Nat) => (lkpD r.snap k 0).toNat
    let left := fun (k : Nat) => k < 8 ∧ r.svalid.getLsbD k = true ∧ pos k ≤ p
    let age := fun (k : Nat) => (r.shead + 8 - k) % 8
    (¬ mine → runEntry q e s = .ok (setResult s q e.serial (BitVec.allOnes 64)) true) ∧
    (mine → ∀ s1 s2, truncUnmap w e c (truncKeys r p) s = .ok s1 () → (p % 32 = 0 → s2 = s1) →
      (p % 32 ≠ 0 → truncTrim w e c r p (List.range (r.nlm1.toNat + 1)) s1 = .ok s2 ()) →
      ∃ r1 slot, runEntry q e s = .ok (setResult (setRec s2 q.die i r1) q e.serial (BitVec.ofNat 64 (slot * 2 ^ 56 + r1.rply.toNat))) true ∧
        r1 = { r with svalid := r1.svalid, rply := r1.rply, shead := r1.shead, cmt := r1.cmt, gen := r1.gen } ∧
        r1.gen.toNat = p ∧ r1.cmt.toNat = min r.cmt.toNat p ∧ (∀ k < 8, r1.svalid.getLsbD k = true ↔ left k) ∧
        ((∀ k, ¬ left k) → slot = 255 ∧ r1.rply = 0 ∧ r1.shead = 7) ∧
        ((∃ k, left k) → left slot ∧ r1.rply.toNat = pos slot ∧
          (∀ k, left k → pos k ≤ pos slot ∧ (pos k = pos slot → age slot ≤ age k)) ∧
          left r1.shead ∧ ∀ k, left k → age r1.shead ≤ age k)) ∧
    (∀ k, k ∈ truncKeys r p ↔ k.seq = r.seq.toNat ∧ k.layer ≤ r.nlm1.toNat ∧ p ≤ 32 * k.lblk ∧ k.lblk ≤ r.gen.toNat / 32) ∧
    -- each page found is unmapped as KVUNMAP does; that of the block of p keeps its positions below p
    (∀ k ks s1, kvLookup w e c k s = .ok s1 none → truncUnmap w e c (k :: ks) s = truncUnmap w e c ks s1) ∧
    (∀ k ks s1 pg s2 x s3, kvLookup w e c k s = .ok s1 (some pg) → kvRead w e c s1 pg = .ok s2 x → kvClear w e c pg x s2 = .ok s3 () →
      truncUnmap w e c (k :: ks) s = truncUnmap w e c ks s3) ∧
    (∀ l ls s1, kvLookup w e c ⟨r.seq.toNat, l, p / 32⟩ s = .ok s1 none → truncTrim w e c r p (l :: ls) s = truncTrim w e c r p ls s1) ∧
    (∀ l ls s1 pg s2 x s3, kvLookup w e c ⟨r.seq.toNat, l, p / 32⟩ s = .ok s1 (some pg) → kvRead w e c s1 pg = .ok s2 x →
      kvWrite w e c s2 pg { x with vlen := min (min 32 x.vlen) (p % 32) } = .ok s3 () →
      truncTrim w e c r p (l :: ls) s = truncTrim w e c r p ls s3))

/-- R297 to R301: the start of a request, its pages and its end. The object of a TIERMISS record (the pool's), its W1 and D2 of KVABSENT (Reg(sb)),
and the request block as KVABSENT's object are the model's reading (log 33). -/
def AttentionWork : Prop :=
  ∀ (s : State) (q : QueueId) (e : Entry) (r : Req),
    let w := entWho q e
    let rw := 16 + 1 + 2
    let put := fun (s : State) (byte n v : Nat) (t : State) =>
      entWrite w e (entCap e 0) rw false s (capPos (entCap e 0) + (entReg e 1).toNat + byte) n v = .ok t ()
    let status := fun (s : State) (v : Nat) (t : State) => put s 47 1 v t
    let cursor := fun (s : State) (v : Nat) (t : State) => put s 68 4 v t
    let recAt := fun (n h : Nat) => capPos (entCap e 4) + (r.poff + (n * r.nh + (h - r.head0)) * (4 * r.d + 32) : Nat)
    let word := fun (x i : Nat) => x / 2 ^ (32 * i) % 2 ^ 32
    let keeps := fun (bits : List Bool) (n b x : Nat) =>
      let kpos := 32 * b + x
      let at1 := r.qpos0 + n
      match r.mask with
      | 0 => kpos ≤ at1 | 1 => True | 2 => at1 < kpos + r.win ∧ kpos ≤ at1 | _ => bits.getD (n / 32) false = true
    (∀ s1, readReq w e s = .ok s1 r →
      -- start (R298)
      (r.ok = true → e.attnc = false → ∀ s2 s3 s4 s5, cursor s1 r.pstart s2 → put s2 48 4 0 s3 →
        initRecs w e r (reqPairs r) s3 = .ok s4 () → status s4 1 s5 → attnStart q e s = .ok s5 ()) ∧
      (r.ok = true → e.attnc = true → r.status = 4 ∨ r.status = 5 → ∀ s2, status s1 1 s2 → attnStart q e s = .ok s2 ()) ∧
      (r.ok = false ∨ (e.attnc = true ∧ r.status ≠ 4 ∧ r.status ≠ 5) → ∃ f, attnStart q e s = .fault s1 f ∧ f.cls = 6) ∧
      -- after the last page
      (heldPage s1 e = none → r.pend ≤ r.cur → ∀ s2, status s1 (if r.skipn = 0 then 2 else 3) s2 →
        (r.final = false ∨ r.skipn ≠ 0 → attnStep q e s = .ok s2 true) ∧
        (r.final = true → r.skipn = 0 → ∀ s3, runPairs (finalPair w e r) (reqPairs r) s2 = .ok s3 () → attnStep q e s = .ok s3 true)) ∧
      -- page CUR: masked out, absent, in CXL, or entered with one translation (R299 to R301)
      (heldPage s1 e = none → r.cur < r.pend → ∀ s2 bits, readBits w e r r.cur (cdiv r.nq 32) s1 = .ok s2 bits →
        let some1 := ∃ n < r.nq, ∃ x < 32, keeps bits n r.cur x
        (¬ some1 → ∀ s3, cursor s2 (r.cur + 1) s3 → attnStep q e s = .ok s3 false) ∧
        (some1 → tableBusy s2 e.pid (capOid (entCap e 2)) e.serial = true → attnStep q e s = .hold s2) ∧
        (some1 → tableBusy s2 e.pid (capOid (entCap e 2)) e.serial = false → ∀ s3 o,
          kvLookup w e (entCap e 2) ⟨r.seq, r.layer, r.cur⟩ s2 = .ok s3 o →
          let kvabsent : FInfo :=
            { cls := 18, d0 := BitVec.ofNat 64 (r.seq * 2 ^ 40 + r.layer * 2 ^ 28 + r.head0 * 2 ^ 20), d1 := BitVec.ofNat 64 r.cur,
              d2 := entReg e 1, oid := capOid (entCap e 0) }
          (o = none → ∀ s4, status s3 4 s4 → attnStep q e s = .fault s4 kvabsent) ∧
          (∀ p, o = some p → ∀ s4,
            let ext := checkAcc s3 w 0 (entCap e 3) { rights := 16 + 1, n := 65536, align := 1 } (capPos (entCap e 3) + (65536 * p : Nat))
            (∀ x s5, ext = (s4, .unmapped x) → status s4 4 s5 → attnStep q e s = .fault s5 kvabsent) ∧
            (∀ x, ext = (s4, .ok x) →
              (isCxl s4 w x = true → attnStep q e s = .hold s4 ∧
                (∀ cr t s5 s6, coreOfTask s4 e.pid e.taskId = some cr → (coreAt s4 cr).task = some t → t.evq.length < 64 →
                  put s4 48 4 (r.skipn + 1) s5 → cursor s5 (r.cur + 1) s6 →
                  tierStep q e s = .ok (modTask s6 cr (postEvent (eventRec 2 5 (capOid (entCap e 3)) (entReg e 1)
                    (BitVec.ofNat 64 (r.seq * 2 ^ 40 + r.layer * 2 ^ 28 + r.cur * 2 ^ 8)) (BitVec.ofNat 64 p)))) ())) ∧
              (isCxl s4 w x = false → ∀ s5 y, kvRead w e (entCap e 2) s4 p = .ok s5 y →
                attnStep q e s = .ok (holdPage s5 e r p (min 32 y.vlen)) false))))) ∧
      -- the page is done: every record is rewritten, then CUR rises and the translation goes
      (∀ h, heldPage s1 e = some h → ∀ s2 bits s3 s4, readBits w e r h.lblk (cdiv r.nq 32) s1 = .ok s2 bits →
        runPage w e r bits h.page h.vlen h.lblk (reqPairs r) s2 = .ok s3 () → cursor s3 (h.lblk + 1) s4 →
        attnStep q e s = .ok (dropPage s4 e) false)) ∧
    -- records: (−∞, +0, +0, …) at the start; each read before any is written
    (∀ n h xs s1, entWrite w e (entCap e 4) rw false s (recAt n h) (4 * r.d + 32) 0xFF800000 = .ok s1 () →
      initRecs w e r ((n, h) :: xs) s = initRecs w e r xs s1) ∧
    (∀ bits p vlen b n h xs s1 new s2, pagePair w e r bits p vlen b (n, h) s = .ok s1 new → runPage w e r bits p vlen b xs s1 = .ok s2 () →
      runPage w e r bits p vlen b ((n, h) :: xs) s = entWrite w e (entCap e 4) rw false s2 (recAt n h) (4 * r.d + 32) new) ∧
    -- one record of one page
    (∀ bits p vlen b n h s1 qn s2 ks s3 vs s4 st,
      entRead w e (entCap e 1) (16 + 1) false s (capPos (entCap e 1) + (r.qoff + r.qstride * n + 2 * r.d * h : Nat)) (2 * r.d) = .ok s1 qn →
      kvRows w e r p (h / r.grp) false (List.range 32) s1 = .ok s2 ks → kvRows w e r p (h / r.grp) true (List.range 32) s2 = .ok s3 vs →
      entRead w e (entCap e 4) rw false s3 (recAt n h) (4 * r.d + 32) = .ok s4 st →
      ∀ keep : Nat → Bool, (∀ x, keep x = true ↔ keeps bits n b x) →
        let z := attnPair r keep vlen ((List.range r.d).map fun i => decodeF 3 (qn / 2 ^ (16 * i) % 2 ^ 16)) (fun x => ks.getD x [])
          (fun x => vs.getD x []) (word st 0) (word st 1) ((List.range r.d).map fun i => word st (8 + i))
        pagePair w e r bits p vlen b (n, h) s = .ok s4 (z.1 + 2 ^ 32 * z.2.1 + 2 ^ 256 * z.2.2.foldr (fun x a => x + 2 ^ 32 * a) 0)) ∧
    -- the result of a row: the exact quotient rounded once, and +0 where l is 0
    (∀ n h s1 st, entRead w e (entCap e 4) rw false s (recAt n h) (4 * r.d + 32) = .ok s1 st →
      let wide := if r.ofmt = 1 then 4 else 2
      let fmt : BitVec 4 := if r.ofmt = 1 then 1 else 3
      let l := decodeF 1 (word st 1)
      ∃ out : Nat → Nat,
        finalPair w e r (n, h) s = entWrite w e (entCap e 4) rw false s1
          (capPos (entCap e 4) + (r.ooff + r.ostride * n + (h - r.head0) * r.d * wide : Nat)) (wide * r.d)
          ((List.range r.d).foldr (fun i a => out i + 2 ^ (8 * wide) * a) 0) ∧
        ∀ i < r.d, (isZeroF l = true → out i = 0) ∧
          (∀ a m x b k y, decodeF 1 (word st (8 + i)) = .fin a m x → l = .fin b k y → isZeroF l = false →
            out i = roundF fmt .rne (divF (.fin a m x) (.fin b k y)))) ∧
    -- row x of a page's K or V for a KV head (R292)
    (∀ p g isV x xs s1 n, entRead w e (entCap e 3) (16 + 1) false s (capPos (entCap e 3) +
        (65536 * p + ((if isV then 32768 else 0) + 1024 * x + (if r.e4m3 then 1 else 2) * r.d * g) : Nat))
        ((if r.e4m3 then 1 else 2) * r.d) = .ok s1 n →
      kvRows w e r p g isV (x :: xs) s = eBind (kvRows w e r p g isV xs s1) fun s2 l => .ok s2 (((List.range r.d).map fun i =>
        if r.e4m3 then decodeF 4 (n / 2 ^ (8 * i) % 2 ^ 8) else decodeF 3 (n / 2 ^ (16 * i) % 2 ^ 16)) :: l)) ∧
    -- the running sum o (R298)
    (∀ keep vlen qv kr vr m l (o : List Nat) d, d < o.length →
      let score := fun x => f32mul r.scale (roundF 1 .rne (exactSum (List.zipWith mulF qv (kr x))))
      let z := softmaxStep (fun x => decide (x < vlen) && keep x) score m l
      (attnPair r keep vlen qv kr vr m l o).1 = z.2.1 ∧ (attnPair r keep vlen qv kr vr m l o).2.1 = z.2.2.1 ∧
      (attnPair r keep vlen qv kr vr m l o).2.2.getD d 0 = f32add (f32mul (o.getD d 0) z.2.2.2) (roundF 1 .rne (exactSum
        ((List.range 32).map fun x => mulF (decodeF 1 (z.1.getD x 0)) ((vr x).getD d (.fin false 0 0))))))

end Sys2Proof.Claims

open Sys2Proof.Claims in
/-- R286 and R287 (`l` is the entry of every die), R298, R299 and R301; that a schedule does its work and completes in its rendezvous, and
what it waits for, are the model's (log 12, log 42), as is what the records of an attention request name (log 33). -/
def Obligations.ReshardAndAttention : Prop :=
  TableWork ∧ StreamWork ∧ AttentionWork ∧
  (∀ (s : State) (pid oid : BitVec 32) (p : Part) (l : List (QueueId × Entry)), partAt s pid = some p →
    let d0 := p.dies.headD 0
    let w0 := otWord s pid d0 oid.toNat 0
    let g := geom w0 (otWord s pid d0 oid.toNat 2 ++ otWord s pid d0 oid.toNat 1)
    let cur := layoutRead (otWord s pid d0 oid.toNat 5)
    let tgt := reshdTarget l
    let same := ∀ x ∈ l, reshdDesc x.2 = tgt
    (rendezvous s pid oid false p = some l →
      (same → tgt = cur → exec (.reshdRendezvous pid oid) s = .next (doneAll s l)) ∧
      -- a facet extent that check 11 of R74 refuses stops every die's entry
      (same → tgt ≠ cur → (⟨oid, cur, tgt⟩ : Sched) ∈ p.scheds → ∀ d k, facetBad s pid oid p g [cur, tgt] = some (d, k) →
        exec (.reshdRendezvous pid oid) s = .next (stopAll s l fun _ =>
          { cls := 8, d0 := BitVec.ofNat 64 (2 ^ 21 * k), d1 := BitVec.ofNat 64 k, d2 := d.zeroExtend 64, oid := oid })) ∧
      (same → tgt ≠ cur → (⟨oid, cur, tgt⟩ : Sched) ∈ p.scheds → facetBad s pid oid p g [cur, tgt] = none →
        (∀ x ∈ facetLines p g cur ++ facetLines p g tgt, facetRes s pid oid x.1 x.2 ≠ none) →
        (∀ kl ∈ s.l2, kl.1.pid = pid → kl.1.oid = oid → kl.2.recs = [] ∧ kl.2.marks = [] ∧ kl.2.pend = []) →
        -- no access that passed its checks is still under way (R104)
        (quietObj s pid oid = false → exec (.reshdRendezvous pid oid) s = .next s) ∧
        (quietObj s pid oid = true → exec (.reshdRendezvous pid oid) s = .next (doneAll (reshard s pid oid p g cur tgt) l))) ∧
      (¬ same ∨ (tgt ≠ cur ∧ (⟨oid, cur, tgt⟩ : Sched) ∉ p.scheds) →
        exec (.reshdRendezvous pid oid) s = .next (stopAll s l (layoutStop oid (wLgen w0))))) ∧
    (rendezvous s pid oid true p = some l → same → p.scheds.length ≤ 62 →
      ∃ sch, exec (.reshdInstRendezvous pid oid) s = .next (doneAll (setPart s pid { p with scheds := sch }) l) ∧
        (⟨oid, cur, tgt⟩ : Sched) ∈ sch ∧ (⟨oid, tgt, cur⟩ : Sched) ∈ sch ∧ ∀ x ∈ p.scheds, x ∈ sch)) ∧
  (∀ (s : State) (cl : ClusterId) (q : QueueId) (e : Entry), attnHead s cl = some (q, e) →
    (heldPage s e ≠ none ∨ capturing s cl e.pid e.taskId = false →
      (∀ s1 b, attnStep q e s = .ok s1 b → exec (.attnPage cl) s =
        .next (modEntry s1 q e.serial fun x => { x with done := b, since := s.ck, reported := false })) ∧
      (∀ s1 fi, attnStep q e s = .fault s1 fi → exec (.attnPage cl) s = .next (engFault (dropPage s1 e) q e fi))) ∧
    (∀ s1, tierStep q e s = .ok s1 () → exec (.tiermiss cl) s =
      .next (modEntry s1 q e.serial fun x => { x with since := s.ck, reported := false })))

open Sys2Proof.Claims in
/-- R316 and R321. -/
def Obligations.FeatAndRemain : Prop :=
  ∀ (s : State) (h : Here) (f : FmtS),
    let next := pcOf h + 8
    let miss := rdG s h f.sa &&& ~~~ h.k.feature
    (Ready (.featTest f) s h → Goes (.featTest f) s h next (wrReg h.x f.dst.toNat (rdG s h f.sa &&& h.k.feature) h.t)) ∧
    (Ready (.featReq f) s h →
      (miss ≠ 0 → ∃ w, encode (.featReq f) = some w ∧ Faults (.featReq f) s h 2 w miss) ∧
      (miss = 0 → Goes (.featReq f) s h next h.t)) ∧
    (Ready (.remain f) s h →
      ∃ t tk, exec (.remain f) s = .next t ∧ Retires s t h next tk ∧
        remainOf t tk = min (2 ^ 64 - 1) (((rdG s h f.sa).toNat + f.imm.toNat) * 1024) ∧
        tk = { h.t with remBase := tk.remBase, remAt := tk.remAt })

open Sys2Proof.Claims in
/-- R308 to R314, R19, R20 and R25; the value of SYS.HARVEST is the model's choice (log 4), and the entries that a log of a new object
has still to receive (flHeld) are its bookkeeping (log 61). -/
def Obligations.SystemRegisters : Prop :=
  ∀ (s : State) (h : Here) (f : FmtS),
    let b := slabAt s (coreSlab h.core)
    let v := rdG s h f.sa
    let value := csrValue s h f.csr.toNat
    let sets := fun (i : Instr) (k : Slab → Slab) => exec i s = .next (retire h (modSlab s (coreSlab h.core) k))
    (Ready (.csrr f) s h →
      (f.csr ≠ 0x10 → Goes (.csrr f) s h (pcOf h + 8) (wrReg h.x f.dst.toNat value h.t)) ∧
      (f.csr = 0x10 → exec (.csrr f) s = .next (retire h (wrG h f.dst value (acquire s h 3)))) ∧
      (f.csr = 0x000 → value = h.k.feature) ∧ (f.csr = 0x004 → value = h.t.taskId) ∧
      (f.csr = 0x008 → value = BitVec.ofNat 64 (remainOf s h.t)) ∧ (f.csr = 0x009 → value = b.prio) ∧
      (f.csr = 0x100 → value = b.drain) ∧ (f.csr = 0x101 → value = b.wdog) ∧ (f.csr = 0x102 → value = b.fq) ∧
      (f.csr = 0x103 → value = b.flog) ∧ (f.csr = 0x106 → value = b.otbase) ∧ (f.csr = 0x002 → value = Config.harvest) ∧
      (f.csr = 0x104 → value = b.flLost ++ b.flTail) ∧
      -- SYS.SAVE: FREE counts the slots that hold no image (R312)
      (f.csr = 0x105 → bitsN value 16 48 = bitsN b.save 16 48 ∧ bitsN value 0 16 = saveSlots s (coreSlab h.core) - b.images.length) ∧
      -- SYS.ORIENT reads in full to the supervisor alone (R19, R20)
      (f.csr = 0x001 →
        let d := h.core.die
        let p := Config.posOf (ldie d)
        bitsN value 47 17 = d.toNat ∧ bitsN value 44 3 = ldie d ∧ bitsN value 35 3 = (pkgAt s (pkgOf d)).wrap.toNat ∧
        (isSup h.t = false → bitsN value 38 6 = 0 ∧ bitsN value 0 35 = 0) ∧
        (isSup h.t = true → bitsN value 41 3 = p ∧ bitsN value 39 2 = p % 4 ∧ bitsN value 38 1 = p / 4 ∧ bitsN value 34 1 = 0 ∧
          (∀ k : Nat, k < 6 → bitsN value (16 + 3 * k) 3 = (portsOf p).getD k 0) ∧
          (∀ k : Nat, k < 3 → bitsN value (7 + 3 * k) 3 = (axesOf p).getD k 0) ∧ bitsN value 3 4 = chxOf p ∧ bitsN value 0 3 = 0)) ∧
      -- SYS.COREID (R25)
      (f.csr = 0x003 → h.core.core < 40 → bitsN value 47 17 = h.core.die.toNat ∧ bitsN value 44 3 = ldie h.core.die ∧ bitsN value 13 31 = 0 ∧
        bitsN value 9 4 = (if isSup h.t = true then physCluster (h.core.core / 4) else 0) ∧ bitsN value 8 1 = h.core.core / 20 ∧
        bitsN value 4 4 = h.core.core / 4 ∧ bitsN value 2 2 = h.core.core % 4 ∧ bitsN value 1 1 = (if h.x = .xs then 1 else 0) ∧
        bitsN value 0 1 = 0) ∧
      (f.csr = 0x010 → bitsN value 0 28 = b.causeHead.toNat ∧ bitsN value 28 28 = b.causeTail.toNat ∧
        (b.fring = [] → bitsN value 56 8 = 0) ∧ ∀ r l, b.fring = r :: l → r.cls < 256 → bitsN value 56 8 = r.cls)) ∧
    (Ready (.csrrSysFlstat f) s h → exec (.csrrSysFlstat f) s = .next (retire h (wrG h f.dst (b.flLost ++ b.flTail)
      (modSlab s (coreSlab h.core) fun b => { b with flLost := 0 })))) ∧
    (Ready (.csrw f) s h →
      (f.csr = 0x008 → Goes (.csrw f) s h (pcOf h + 8) { h.t with remBase := v.toNat, remAt := s.ck }) ∧
      (f.csr = 0x100 → sets (.csrw f) fun b => { b with drain := BitVec.ofNat 64 (v.toNat % 2 ^ 32) }) ∧
      (f.csr = 0x101 → sets (.csrw f) fun b => { b with wdog := BitVec.ofNat 64 (v.toNat % 2 ^ 32) })) ∧
    (Ready (.csrwSysCause f) s h →
      let want := v.setWidth 28
      let head := if (want - b.causeHead).toNat ≤ (b.causeTail - b.causeHead).toNat then want else b.causeTail
      sets (.csrwSysCause f) fun b => { b with causeHead := head, fring := b.fring.drop (head - b.causeHead).toNat }) ∧
    (Ready (.csrwSysPrio f) s h → sets (.csrwSysPrio f) fun b => { b with prio := v }) ∧
    (Ready (.csrwSysFq f) s h → sets (.csrwSysFq f) fun b => { b with fq := setBits v 9 19 0 }) ∧
    (Ready (.csrwSysFlog f) s h → ∃ t, exec (.csrwSysFlog f) s = .next (retire h (flushLog t h.t.pid (coreSlab h.core))) ∧
      t = modSlab s (coreSlab h.core) fun b => { b with flog := setBits v 9 19 0, flHeld := if bitsN b.flog 28 36 = bitsN v 28 36 then b.flHeld else 0 }) ∧
    (Ready (.csrwSysSave f) s h →
      (b.images.length ≤ bitsN v 16 16 → bitsN v 32 32 = bitsN b.save 32 32 ∨ b.images = [] →
        sets (.csrwSysSave f) fun b => { b with save := setBits v 0 16 0 }) ∧
      (bitsN v 16 16 < b.images.length ∨ (bitsN v 32 32 ≠ bitsN b.save 32 32 ∧ b.images ≠ []) →
        sets (.csrwSysSave f) id))

namespace Sys2Proof.Claims

/-- No cache of the partition holds a translation that `p` picks, and no posted extent is picked (R77, R317). -/
def Forgotten (s : State) (pid : BitVec 32) (p : TKey → Bool) : Prop :=
  (∀ c ∈ s.cores, holdsSlab s pid (coreSlab c.1) = true → ∀ e ∈ c.2.ecache, p e.1 = false) ∧
  (∀ b ∈ s.slabs, holdsSlab s pid b.1 = true → (∀ e ∈ b.2.shcache, p e.1 = false) ∧ ∀ k ∈ b.2.posted, p k = false)

/-- A ready launch of no lower effective class than the crew's fits no cluster of the slab now, and would fit the crew's own
cluster without it (R320). -/
def WantsPlace (s : State) (pid : BitVec 32) (c : ClusterId) (cr : CrewRes) (x : Cand) : Prop :=
  x.cls ≤ crewClass s c cr ∧
  (∀ d ∈ dieClusters s pid c.die, clusterSlab d = clusterSlab c → fits s pid (crewInfo x.l x.crew) (hCrew x.l) d = false) ∧
  fits (withoutCrews s c fun y => y == cr) pid (crewInfo x.l x.crew) (hCrew x.l) c = true

end Sys2Proof.Claims

open Sys2Proof.Claims in
/-- R315, R317 to R320 and R322; which side-log entries an OTINV cancels (log 16) and from when a BTINV counts (log 95) are the model's
reading. -/
def Obligations.SupervisorAndTaskForms : Prop :=
  ∀ (s s1 : State) (h : Here) (f : FmtS),
    let v := rdG s h f.sa
    let c := CoreId.cluster h.core
    (Ready (.trap f) s h → ∃ t tk r, exec (.trap f) s = .next t ∧ (coreAt t h.core).task = some tk ∧ tk.susp = some r ∧
      r.cls = 22 ∧ r.d0 = f.imm.setWidth 64 ∧ r.d1 = v ∧ r.pc = pcOf h ∧ (strandOf tk h.x).pc = pcOf h + 8) ∧
    (releaseSteps s h 3 none = .done s1 → InOrder h →
      let inv := fun (i : Instr) (p cancel : TKey → Bool) => Ready i s h →
        let s2 := dropTrans s1 h.t.pid p
        Forgotten s2 h.t.pid p ∧ (transHeld s2 h.t.pid p = true → exec i s = .next (hold h .remote s2)) ∧
        -- freed objects lose their schedules (R287)
        (transHeld s2 h.t.pid p = false →
          let s3 := cancelSide s2 h.t.pid cancel
          let freed := fun (o : BitVec 32) => wState (otWord s3 h.t.pid h.core.die o.toNat 0) = 0
          exec i s = .next (retire h (wrG h f.dst 0 (modPart s3 h.t.pid fun q =>
            { q with scheds := q.scheds.filter fun x => ¬ (p ⟨x.oid, 0, 0⟩ = true ∧ freed x.oid) }))))
      let oid := v.setWidth 32
      inv (.otinvExt f) (fun k => k.oid == oid && k.ext == f.imm.toNat) (fun k => k.oid == oid && k.ext == f.imm.toNat) ∧
      inv (.otinvObj f) (fun k => k.oid == oid) (fun k => k.oid == oid && freeObj s h k) ∧
      inv (.otinvAll f) (fun _ => true) (freeObj s h)) ∧
    (∀ i (named : AeTrans → Prop), (i = .btinvAll f ∧ named = fun _ => True) ∨ (i = .btinvSeq f ∧ named = fun x => x.seq = bitsN v 0 24) →
      Ready i s h →
      -- a table command of the task itself is still queued or running
      let busy := ∃ e ∈ entriesOn s c, e.taskId = h.t.taskId ∧ e.pid = h.t.pid ∧
        (match e.cmd with | .kvmap _ | .kvmapLen _ | .kvunmap _ | .trunc _ => True | _ => False)
      -- a request of the partition is inside a page that it translated before the release had ended
      let inside := ∃ k ∈ s1.clusters, ∃ x ∈ k.2.ae, x.pid = h.t.pid ∧ named x ∧ x.since ≤ issuedAt s h
      (busy → exec i s = .next (hold h .result s)) ∧
      (¬ busy → releaseSteps s h 3 none = .done s1 → InOrder h →
        (inside → exec i s = .next (hold h .btinv s1)) ∧ (¬ inside → exec i s = .next (retire h s1)))) ∧
    (Ready (.idle f) s h → ∀ chg t0, (strandOf h.t h.x).held = some ⟨.idle chg, t0⟩ ∨
        ((∀ a b, (strandOf h.t h.x).held ≠ some ⟨.idle a, b⟩) ∧ chg = false ∧ t0 = s.ck) →
      let n := (if h.t.evq = [] then 0 else 1) + (if chg then 2 else 0) + (if v ≠ 0 ∧ t0 + v.toNat ≤ s.ck then 4 else 0)
      (n ≠ 0 → Goes (.idle f) s h (pcOf h + 8) (wrReg h.x f.dst.toNat (BitVec.ofNat 64 n) h.t)) ∧
      (n = 0 → exec (.idle f) s = .next (hold h (.idle false) s))) ∧
    (Ready (.yield f) s h →
      let stays := Goes (.yield f) s h (pcOf h + 8) (wrReg h.x f.dst.toNat 0 h.t)
      let crew := (clusterAt s c).crews.find? fun x => x.pid == h.t.pid && x.tids.contains h.t.taskId
      (crew = none → stays) ∧
      (∀ cr, crew = some cr →
        (cr.heard = true ∨ freeSlots s (clusterSlab c) = 0 ∨ (∀ x ∈ candidates s (clusterSlab c), ¬ WantsPlace s h.t.pid c cr x) → stays) ∧
        (cr.heard = false → freeSlots s (clusterSlab c) ≠ 0 → (∃ x ∈ candidates s (clusterSlab c), WantsPlace s h.t.pid c cr x) →
          exec (.yield f) s = .next (beginCapture (retire h (wrG h f.dst 1 s)) c cr 3)))) ∧
    (∀ i m, (i, m) ∈ [(Instr.cfgbankCache f, Mode.cache), (.cfgbankScratch f, .scratch), (.cfgbankFifo f, .fifo)] → Ready i s h →
      let b := bitsN v 0 6
      let mayBank := isSup h.t = true ∨ (h.t.crew.scrm ||| h.t.crew.fifom).getLsbD b = true
      let sem := if f.imm.getLsbD 8 then some (bitsN f.imm 0 8) else none
      let maySem := f.imm.getLsbD 8 = true → semAllowed h.t (bitsN f.imm 0 8) = true
      (47 < b ∨ ¬ mayBank → Faults i s h 10 (BitVec.ofNat 64 b)) ∧
      (b ≤ 47 → mayBank → ¬ maySem → Faults i s h 3 (BitVec.ofNat 64 (bitsN f.imm 0 8))) ∧
      (b ≤ 47 → mayBank → maySem → (bankAt (clusterAt s c) b).transit ≠ none → exec i s = .next (hold h .transit s)) ∧
      (b ≤ 47 → mayBank → maySem → (bankAt (clusterAt s c) b).transit = none → exec i s = .next (retire h (startMode s c b m sem))))

open Sys2Proof.Claims in
/-- R324 on a task named by its id (imm bit 23 clear): suspended with the record `r` on core `c`, a member of a crew whose image `im` waits,
ended before its entry halted (the model's reading, log 60), or named by none; and `.launch` (imm bit 23 set). That .skip after QDEADLOCK
passes the AS's instruction, and that a discarded entry lifts its interlock, are the model's reading (log 49); what .park answers for a task
of no crew (log 110) and that a member killed in an image leaves it to the others (log 104) are its choice. -/
def Obligations.ResumeForms : Prop :=
  (∀ (s s1 : State) (h : Here) (f : FmtS) (fn : Nat) (i : Instr),
    (i, fn) ∈ [(Instr.resumeRetry f, 0), (.resumeSkip f, 1), (.resumeCont f, 2), (.resumeKill f, 3), (.resumePark f, 4),
      (.resumeAbort f, 5)] → Ready i s h → releaseSteps s h 3 none = .done s1 → InOrder h →
    let v := rdG s1 h f.sa
    let feats : W64 := BitVec.ofNat 64 (bitsN f.imm 0 10)
    (f.imm.getLsbD 23 = false → exec i s = .next (retire h
      (wrG h f.dst (BitVec.ofNat 64 (resumeOne s1 h fn feats v).2) (resumeOne s1 h fn feats v).1))) ∧
    (f.imm.getLsbD 23 = true →
      -- the tasks of the launch that RESIDENCY suspended on the die, in ascending ordinal; .abort acts on the first
      let ts := residTasks s1 h v
      let out := resumeEach h fn feats (if fn = 5 then ts.take 1 else ts) s1
      exec i s = .next (retire h (wrG h f.dst (if out.2 = true then 0 else 1) out.1)) ∧
      ts.Pairwise (fun a b => a.toNat ≤ b.toNat) ∧
      (∀ tid, tid ∈ ts ↔ ∃ c t r, (c, t) ∈ tasksOn s1 (v.extractLsb' 47 17) ∧ t.taskId = tid ∧ t.pid = h.t.pid ∧
        coreSlab c = coreSlab h.core ∧ bitsN t.crew.lseq 0 24 = bitsN v 23 24 ∧ t.susp = some r ∧ r.cls = 16))) ∧
  (∀ (s : State) (h : Here) (fn : Nat) (feats tid : W64) (ts : List W64),
    let one := resumeOne s h fn feats tid
    let rest := resumeEach h fn feats ts one.1
    resumeEach h fn feats [] s = (s, false) ∧ resumeEach h fn feats (tid :: ts) s = (rest.1, decide (one.2 = 0) || rest.2)) ∧
  (∀ (s1 : State) (h : Here) (fn : Nat) (feats tid : W64), fn ≤ 5 →
    let pid := h.t.pid
    let gives := fun (st : Nat) (t : State) => resumeOne s1 h fn feats tid = (t, st)
    (findTask s1 pid (coreSlab h.core) tid = none → gives 1 s1) ∧
    (∀ c t r, findTask s1 pid (coreSlab h.core) tid = some (.susp c t r) →
      let cl := CoreId.cluster c
      let clean := fun (silent : Bool) => discardHalted s1 cl pid tid silent
      -- the latest record of the task or of its launch has class RESIDENCY (R152)
      let resid := lastResid s1 pid t.crew.lseq (some r)
      let crew := (clusterAt s1 cl).crews.find? fun x => x.pid == pid && x.tids.contains tid
      (fn = 0 → gives 0 (goOn (clean false) c id)) ∧
      (fn = 1 → gives 0 (goOn (clean false) c (skipStrand r))) ∧
      (fn = 2 → r.cls ≠ 18 → gives 2 s1) ∧
      (fn = 2 → r.cls = 18 → gives 0 (goOn (discardHalted (runAgain s1 cl pid tid) cl pid tid true) c id)) ∧
      (fn = 3 → gives 0 (reapCrews (noteStatus (killTask (clean true) c) pid t.crew.lseq (if resid = true then 11 else 8)) cl)) ∧
      (fn = 4 → crew = none → gives 2 s1) ∧
      (fn = 4 → ∀ cr, crew = some cr → freeSlots s1 (coreSlab h.core) = 0 → gives 3 s1) ∧
      (fn = 4 → ∀ cr, crew = some cr → freeSlots s1 (coreSlab h.core) ≠ 0 →
        let cr1 := { cr with info := { cr.info with feat := cr.info.feat ||| feats } }
        gives 0 (beginCapture (modCrew s1 cl pid cr.info fun _ => cr1) cl cr1 4)) ∧
      (fn = 5 → gives 0 (abortLaunch s1 pid t.crew.lseq (if resid = true then 11 else 9)))) ∧
    (∀ sl im t, findTask s1 pid (coreSlab h.core) tid = some (.parked sl im t) →
      let resid := lastResid s1 pid t.crew.lseq t.susp
      (fn = 0 → gives 0 (retryParked s1 sl im tid)) ∧
      (fn = 1 ∨ fn = 2 → gives 2 s1) ∧
      (fn = 3 → gives 0 (noteStatus (killParked s1 sl im t) pid t.crew.lseq
        (if resid = true then 11 else if t.susp.isSome = true then 8 else 9))) ∧
      (fn = 4 → gives 0 (modImage s1 sl im fun y => { y with info := { y.info with feat := y.info.feat ||| feats } })) ∧
      (fn = 5 → gives 0 (abortLaunch s1 pid t.crew.lseq (if resid = true then 11 else 9)))) ∧
    (∀ cl lseq, findTask s1 pid (coreSlab h.core) tid = some (.ended cl lseq) →
      let again := ∃ e ∈ haltedOf s1 pid (coreSlab h.core) tid, e.stop = 18
      let resid := lastResid s1 pid lseq none
      (fn = 0 ∨ fn = 1 → gives 0 (reapCrews (discardHalted s1 cl pid tid false) cl)) ∧
      (fn = 2 → again → gives 0 (reapCrews (discardHalted (runAgain s1 cl pid tid) cl pid tid true) cl)) ∧
      (fn = 2 → ¬ again → gives 2 s1) ∧
      (fn = 3 → gives 0 (reapCrews (noteStatus (discardTask (discardHalted s1 cl pid tid true) pid tid) pid lseq
        (if resid = true then 11 else 8)) cl)) ∧
      (fn = 4 → gives 2 s1) ∧
      (fn = 5 → gives 0 (abortLaunch s1 pid lseq (if resid = true then 11 else 9)))))

namespace Sys2Proof.Claims

/-- The LDONE record of a launch: its class, LTAG and LSEQ (R306). -/
def LdoneRec (l : Launch) (r : BitVec 256) : Prop :=
  bitsN r 56 8 = 1 ∧ bitsN r 64 64 = bitsN l.packet 960 32 ∧ bitsN r 192 64 = l.lseq.toNat
/-- The partition's launch `l` with number `n`. -/
def HasLaunch (s : State) (pid n : BitVec 32) (p : Part) (l : Launch) : Prop := partAt s pid = some p ∧ lkp p.launches n = some l
/-- The loop entries of a packet (R132, R133): the kind and the COUNT of level i, the levels of a kind, and the product of their
COUNTs. Kind 3 is DIES and kind 2 CORES. -/
def kindOf (l : Launch) (i : Nat) : Nat := bitsN l.packet (512 + 64 * i + 62) 2
def countOf (l : Launch) (i : Nat) : Nat := bitsN l.packet (512 + 64 * i) 32
def kindLevels (l : Launch) (kind : Nat) : List Nat := (List.range 6).filter fun i => kindOf l i = kind
def indices (l : Launch) (kind : Nat) : Nat := ((kindLevels l kind).map (countOf l)).prod
/-- The index of level i in an index of its kind: mixed radix, the outermost level most significant (R133). -/
def radix (l : Launch) (i idx : Nat) : Nat :=
  idx / (((kindLevels l (kindOf l i)).filter fun j => i < j).map (countOf l)).prod % countOf l i
/-- The die at position k of m owns DIES index i: blocks in order, or every m-th where a DIES level has its bit CYC (R138). -/
def Owns (l : Launch) (m k i : Nat) : Prop :=
  let b := indices l 3 / m
  let r := indices l 3 % m
  i < indices l 3 ∧
  (if ∃ j ∈ kindLevels l 3, bitsN l.packet (512 + 64 * j + 61) 1 = 1 then i % m = k
   else if k < r then k * (b + 1) ≤ i ∧ i < (k + 1) * (b + 1) else k * b + r ≤ i ∧ i < (k + 1) * b + r)

end Sys2Proof.Claims

open Sys2Proof.Claims in
/-- R137, R138 (the share of a die and the crews of its stratum), R141 and R142, for packets of a task and of the host. That a die evaluates
after the dies before it in the list and behind every earlier outstanding packet (`packetAt`) is the model's reading (log 84), and that the
live bits are those of the state at acceptance its choice (log 58). -/
def Obligations.LaunchAcceptance : Prop :=
  (∀ (s : State) (pid : BitVec 32) (p : Part) (x : Sub) (xs : List Sub), partAt s pid = some p → p.subs = x :: xs → p.action = none →
    let room := p.out < p.limit ∨ (x.packet.getLsbD 1021 = true ∧ p.out < p.limit + 32)
    let device := fun (e : Entry) => x.issuer = some e ∧ x.qp = none ∧ (e.wv = true → e.wcnt ≤ (semAt s (CoreId.cluster e.core) e.wsem).toNat)
    -- a LAUNCH without room receives QFULL; a packet of the host waits
    (∀ e, device e → ¬ room → exec (.launchAccept pid) s = .next (returnStatus (setPart s pid { p with subs := xs }) pid none x.ctag
      (some e) 6 0 (x.packet.extractLsb' 960 32))) ∧
    (x.issuer = none → ¬ room → xs = [] → exec (.launchAccept pid) s = .next s) ∧
    ((∃ e, device e) ∨ x.issuer = none → room → p.launches.length < 2 ^ 20 → ∃ n l,
      let t := setPart s pid { p with subs := xs, out := p.out + 1, next := n + 1, launches := p.launches ++ [(n, l)] }
      -- the command leaves the head of its queue pair, which goes on with the next one (R355)
      exec (.launchAccept pid) s = .next (match x.qp with | some q => settle (popCmd t q) q | none => t) ∧
      bitsN n 0 24 ≠ 0 ∧ (∀ y ∈ p.launches, bitsN y.1 0 24 ≠ bitsN n 0 24) ∧
      l.lseq = n ∧ l.packet = x.packet ∧ l.kcap = x.kcap ∧ l.acap = x.acap ∧ l.issuer = x.issuer ∧ l.qp = x.qp ∧ l.ctag = x.ctag ∧
      l.evaluated = false ∧ l.strata = [] ∧
      ∀ d, d ∈ l.dies ↔ d ∈ p.dies ∧ (dieAt s d).live = true ∧ inBox d (x.packet.extractLsb' 912 17) (x.packet.extractLsb' 929 17) = true ∧
        x.packet.getLsbD (946 + ldie d) = true)) ∧
  (∀ (s : State) (pid n : BitVec 32) (die : DieId) (p : Part) (l : Launch), HasLaunch s pid n p l → die ∈ p.dies →
    lkp l.strata die = none →
    (packetAt p die n l = false → exec (.launchEvaluate pid die n) s = .next s) ∧
    (packetAt p die n l = true →
      -- the verdict of the die that evaluated first, which the others take over (R137)
      let v := if l.evaluated = true then some (0, l.header) else verdict s pid p die l
      (v = none → exec (.launchEvaluate pid die n) s = .next s) ∧
      (∀ st hdr, v = some (st, hdr) → st ≠ 0 → exec (.launchEvaluate pid die n) s = .next (rejectLaunch s pid l st)) ∧
      (∀ hdr, v = some (0, hdr) →
        let crew := bitsN hdr 280 3
        ∃ t p' l' st, exec (.launchEvaluate pid die n) s = .next t ∧ HasLaunch t pid n p' l' ∧ lkp l'.strata die = some st ∧
          l'.header = hdr ∧ l'.evaluated = true ∧ l'.packet = l.packet ∧
          st.owned.Pairwise (· < ·) ∧ (die ∉ l.dies → st.owned = []) ∧
          (∀ k : Nat, l.dies[k]? = some die → die ∉ l.dies.take k → ∀ i, i ∈ st.owned ↔ Owns l l.dies.length k i) ∧
          st.left = st.owned.length * indices l 2 ∧ st.crews = st.owned.length * ((indices l 2 + crew - 1) / crew) ∧
          st.nextCrew = 0 ∧ st.reported = false ∧
          -- a stratum with tasks is held in the lode, or the overflow area, of each of the partition's slabs on the die (R141)
          (st.owned ≠ [] → ∀ sl ∈ dieSlabs s pid die,
            (∃ e ∈ (slabAt t sl).lode, e.lseq = l.lseq) ∨ (∃ e ∈ (slabAt t sl).overflow, e.1 = l.lseq))))) ∧
  (∀ (s : State) (sl : SlabId) (n : BitVec 32) (i : Nat) (p : Part) (l : Launch), HasLaunch s (slabAt s sl).pid n p l → i < 4 →
    depMet s (pkDep l i) sl.die = true →
    ∃ t, exec (.dependenceReport sl n i) s = .next t ∧ (slabAt t sl).lode.length = (slabAt s sl).lode.length ∧
      ∀ e e', ∀ k : Nat, (slabAt s sl).lode[k]? = some e → (slabAt t sl).lode[k]? = some e' →
        (e.lseq ≠ n → e' = e) ∧
        (e.lseq = n → e' = { e with deps := e.deps.set i true, ready := e'.ready } ∧
          (e.ready = none → (∀ b ∈ e.deps.set i true, b = true) → e'.ready = some s.ck)))

namespace Sys2Proof.Claims

/-- The scheduler's choice of R145. Step 2: the candidates are the ready launches of the lode with a crew left, in the order of effective
class (3 where the bucket does not cover TOKENS for each task, R144), earliest ready, lower LSEQ. -/
def CandidateOrder : Prop :=
  ∀ (s : State) (sl : SlabId) (p : Part), partAt s (slabAt s sl).pid = some p →
    (candidates s sl).Pairwise (fun a b => a.cls < b.cls ∨ (a.cls = b.cls ∧ (a.at1 < b.at1 ∨ (a.at1 = b.at1 ∧ a.l.lseq.toNat ≤ b.l.lseq.toNat)))) ∧
    ∀ x, x ∈ candidates s sl ↔ x.ent ∈ (slabAt s sl).lode ∧ x.ent.ready = some x.at1 ∧ lkp p.launches x.ent.lseq = some x.l ∧
      lkp x.l.strata sl.die = some x.st ∧ nextCrewOf x.st = some x.crew ∧
      x.cls = if pkClass x.l < 3 ∧ pkTokens x.l * (crewPos x.l x.st x.crew).length ≤ (slabAt s sl).buckets.getD (pkClass x.l) 0
        then pkClass x.l else 3
/-- Step 3: the cluster is one that the crew fits, of the least load, and of those the lowest logical number. That the load counts the cores
that hold or will hold a task is the model's reading (log 46). -/
def ClusterChoice : Prop :=
  (∀ (s : State) (pid : BitVec 32) (i : CrewInfo) (need : Nat) (l : List ClusterId),
    (bestCluster s pid i need l = none ↔ ∀ c ∈ l, fits s pid i need c = false) ∧
    (∀ c, bestCluster s pid i need l = some c → c ∈ l ∧ fits s pid i need c = true ∧
      ∀ c' ∈ l, fits s pid i need c' = true → loadOf s c ≤ loadOf s c' ∧
        (l.Pairwise (fun a b => a.clus < b.clus) → loadOf s c' = loadOf s c → c.clus ≤ c'.clus))) ∧
  (∀ (s : State) (pid : BitVec 32) (sl : SlabId), (partSlabs s pid).Nodup →
    ((dieClusters s pid sl.die).filter fun c => clusterSlab c == sl).Pairwise (fun a b => a.clus < b.clus))
/-- A dispatch puts the crew on free cores of the cluster, charges TOKENS for each task to its class's bucket, none to class 3, and ends the
launch's skipping (R140, R143, R144, R145). -/
def DispatchEffect : Prop :=
  ∀ (s : State) (pid : BitVec 32) (sl : SlabId) (x : Cand) (c : ClusterId), sl ∈ dieSlabs s pid sl.die → (slabAt s sl).buckets.length = 3 →
    let t := dispatch s pid sl x c
    let pos := crewPos x.l x.st x.crew
    (∀ k : Nat, k < 3 → (slabAt t sl).buckets.getD k 0 =
      (slabAt s sl).buckets.getD k 0 - if k = x.cls then pkTokens x.l * pos.length else 0) ∧
    (∀ e ∈ (slabAt t sl).lode, e.lseq = x.l.lseq → e.skipped = none ∧ e.blocking = false) ∧
    ∃ cr ∈ (clusterAt t c).crews, cr.pid = pid ∧ cr.info = crewInfo x.l x.crew ∧ cr.cls = x.cls ∧
      cr.cores = (freeCores s c (crewInfo x.l x.crew).feat).take pos.length ∧
      cr.unstarted = pos.map (fun j => (j, crewFirst x.l x.crew + j)) ∧ cr.tids = pos.map (fun j => tidOf c.die x.l.lseq (crewFirst x.l x.crew + j))
/-- Steps 4 and 5: a first candidate that fits nothing is skipped from its first such turn on; the next one is placed, unless the skipped
one blocks. A co-resident stratum is placed whole or not at all. -/
def SkippedCandidate : Prop :=
  ∀ (s : State) (sl : SlabId) (x : Cand) (r : List Cand),
    let pid := (slabAt s sl).pid
    (slabAt s sl).fence = false → (∀ im ∈ eligibleImages s sl, imageFits s pid sl.die im = none) → candidates s sl = x :: r →
    let s1 := modSlab s sl fun b =>
      { b with lode := b.lode.map fun e => if e.lseq = x.l.lseq then { e with skipped := some (e.skipped.getD s.ck) } else e }
    (hCoresid x.l = false → (placeCand s pid sl x = none ↔ ownCluster s pid sl x.l x.crew = none)) ∧
    (∀ t, hCoresid x.l = true → placeCand s pid sl x = some t → exec (.crewPlace sl) s = .next t) ∧
    (placeCand s pid sl x = none →
      (x.ent.blocking = true ∨ r = [] → exec (.crewPlace sl) s = .next s1) ∧
      (∀ y ys c, x.ent.blocking = false → r = y :: ys → hCoresid y.l = false → ownCluster s1 pid sl y.l y.crew = some c →
        contended s1 pid sl y = false → exec (.crewPlace sl) s = .next (dispatch s1 pid sl y c)))

end Sys2Proof.Claims

open Sys2Proof.Claims in
/-- R145 with R139, R140, R141, R143 and R144. What `eligibleImages` puts first, yielded crews among them, is the model's reading (log 48),
as is the load of a cluster (log 46) and which scheduler places a crew of a launch that both hold (R141). -/
def Obligations.CrewPlacementAndStart : Prop :=
  CandidateOrder ∧ ClusterChoice ∧ DispatchEffect ∧ SkippedCandidate ∧
  (∀ (s : State) (sl : SlabId), let pid := (slabAt s sl).pid
    (slabAt s sl).fence = false → (∀ im ∈ eligibleImages s sl, imageFits s pid sl.die im = none) →
    (candidates s sl = [] → exec (.crewPlace sl) s = .next s) ∧
    (∀ x xs c, candidates s sl = x :: xs → hCoresid x.l = false →
      bestCluster s pid (crewInfo x.l x.crew) (hCrew x.l) ((dieClusters s pid sl.die).filter fun c => clusterSlab c == sl) = some c →
      fits s pid (crewInfo x.l x.crew) (hCrew x.l) c = true ∧
      -- where the die's other scheduler would place a crew of the same launch they take turns (R141)
      (contended s pid sl x = false → exec (.crewPlace sl) s = .next (dispatch s pid sl x c)) ∧
      (contended s pid sl x = true → x.st.turn ≠ sl.slab → exec (.crewPlace sl) s = .next s) ∧
      (contended s pid sl x = true → x.st.turn = sl.slab → exec (.crewPlace sl) s = .next
        (modLaunch (dispatch s pid sl x c) pid x.l.lseq (modStratum sl.die fun st => { st with turn := 1 - sl.slab }))))) ∧
  (∀ (s : State) (cl : ClusterId) (n : BitVec 32) (k : Nat) (cr : CrewRes) (p : Part) (l : Launch) (st : Stratum),
    (clusterAt s cl).crews.find? (fun c => c.info.lseq == n && c.info.index == k && !c.unstarted.isEmpty) = some cr →
    HasLaunch s cr.pid n p l → lkp l.strata cl.die = some st →
    let want := fun (b : Nat) => if cr.info.scrm.getLsbD b then Mode.scratch else Mode.fifo
    let declared := fun (b : Nat) => (cr.info.scrm ||| cr.info.fifom).getLsbD b = true
    let was := fun (b : Nat) => bankAt (clusterAt s cl) b
    let stands := fun (b : Nat) => (was b).transit = none ∧ (was b).mode = want b
    -- while a declared bank is not in its mode, those that are in no change start theirs (R80, R143)
    ((∃ b : Nat, b < 48 ∧ declared b ∧ ¬ stands b) → ∃ t, exec (.taskStart cl n k) s = .next t ∧ t.cores = s.cores ∧
      ∀ b : Nat, b < 48 → bankAt (clusterAt t cl) b = if declared b ∧ (was b).transit = none ∧ (was b).mode ≠ want b
        then { was b with transit := some { target := want b, sem := none, since := s.ck } } else was b) ∧
    ((∀ b : Nat, b < 48 → declared b → stands b) → cr.cores.Nodup → cr.unstarted.length ≤ cr.cores.length →
      ∃ t, exec (.taskStart cl n k) s = .next t ∧ ∀ j : Nat, ∀ u core, cr.unstarted[j]? = some u → cr.cores[j]? = some core →
        ∃ tk, (coreAt t ⟨cl.die, 4 * cl.clus + core⟩).task = some tk ∧ tk.pid = cr.pid ∧ tk.taskId = cr.tids.getD j 0 ∧ tk.crew = cr.info ∧
          tk.pos = u.1 ∧ tk.ord = u.2 ∧ tk.as.pc = l.header.extractLsb' 0 64 ∧ tk.xs.pc = l.header.extractLsb' 64 64 ∧
          rdC tk 1 = l.acap ∧ rdC tk 2 = l.kcap ∧ tk.kcap = l.kcap ∧
          -- level i in register i + 1: COUNT on a TEMPORAL level, the task's index on a CORES or DIES level, else 0 (R133, R139)
          (∀ i : Nat, i < 6 → lkpD tk.a (i + 1) 0 = BitVec.ofNat 64 (match kindOf l i with
            | 1 => countOf l i | 2 => radix l i (u.2 % indices l 2) | 3 => radix l i (st.owned.getD (u.2 / indices l 2) 0) | _ => 0)) ∧
          lkpD tk.a 7 0 = BitVec.ofNat 64 u.1 ∧
          lkpD tk.a 8 0 = BitVec.ofNat 64 u.2 ∧ tk.x = tk.a ∧ (∀ r : Nat, 8 < r → lkpD tk.a r 0 = 0) ∧
          tk.remBase = 1024 * bitsN l.header 224 32 ∧ tk.remAt = s.ck ∧ tk.susp = none ∧ tk.as.loops = [] ∧ tk.q0 = [] ∧ tk.etag = 1)) ∧
  (∀ (s : State) (sl : SlabId), let b := slabAt s sl
    (s.ck < b.refillAt → exec (.tokenRefill sl) s = .next s) ∧
    (b.refillAt ≤ s.ck → ∃ t, exec (.tokenRefill sl) s = .next t ∧ (slabAt t sl).prioNow = b.prio ∧
      (slabAt t sl).refillAt = b.refillAt + 1024 * 2 ^ bitsN b.prio 60 4 ∧ ∀ c : Nat, c < 3 →
        (slabAt t sl).buckets.getD c 0 = min (bitsN b.prio (20 * c + 10) 10) (b.buckets.getD c 0 + bitsN b.prio (20 * c) 10))) ∧
  (∀ (s : State) (sl : SlabId) (n : BitVec 32), ∃ t, exec (.skipBlock sl n) s = .next t ∧ ∀ e e', ∀ k : Nat,
    (slabAt s sl).lode[k]? = some e → (slabAt t sl).lode[k]? = some e' →
      (e.lseq = n ∧ (∃ c, e.skipped = some c ∧ c + 65536 ≤ s.ck) → e' = { e with blocking := true }) ∧
      (e.lseq ≠ n ∨ (∀ c, e.skipped = some c → s.ck < c + 65536) → e' = e))

namespace Sys2Proof.Claims

/-- A kill (R327): the core is free, the task's records and unpublished words go with its ownership in every L1, so do its queued and armed
entries, memory stays, and its stratum has one task fewer. -/
def KillEffect : Prop :=
  ∀ (s : State) (c : CoreId) (tk : Task), (coreAt s c).task = some tk →
    let t := killTask s c
    (coreAt t c).task = none ∧ t.mem = s.mem ∧
    (∀ kl ∈ t.l2, kl.1.pid = tk.pid → (∀ r ∈ kl.2.recs, r.task ≠ tk.taskId) ∧ ∀ p ∈ kl.2.pend, p.task ≠ tk.taskId) ∧
    (∀ d, ∀ kl ∈ (clusterAt t d).l1, kl.1.pid = tk.pid → ∀ o ∈ kl.2.own, o.task ≠ tk.taskId) ∧
    (∀ q, ∀ e ∈ queueAt t q, e.st = .queued → e.pid ≠ tk.pid ∨ e.taskId ≠ tk.taskId) ∧
    (∀ sl, ∀ e ∈ (slabAt t sl).armed, e.pid ≠ tk.pid ∨ e.taskId ≠ tk.taskId) ∧
    (∀ p l st, HasLaunch s tk.pid tk.crew.lseq p l → lkp l.strata c.die = some st →
      ∃ p' l' st', HasLaunch t tk.pid tk.crew.lseq p' l' ∧ lkp l'.strata c.die = some st' ∧ st'.left = st.left - 1)
/-- .abort, and every other end of a whole launch (R324, R327): no task of it is resident or saved, no crew of it is still to start, no entry of
it is queued, no cluster is reserved for it (log 103), and its status is the first of 10, 11, 9, 8, 7 among its own and the new one (R152). -/
def AbortEffect : Prop :=
  ∀ (s : State) (pid n : BitVec 32) (st : Nat),
    let t := abortLaunch s pid n st
    (∀ c tk, (coreAt t c).task = some tk → tk.pid ≠ pid ∨ tk.crew.lseq ≠ n) ∧
    (∀ sl, ∀ im ∈ (slabAt t sl).images, im.pid ≠ pid ∨ im.info.lseq ≠ n) ∧
    (∀ c, ∀ cr ∈ (clusterAt t c).crews, cr.pid = pid → cr.info.lseq = n → cr.unstarted = []) ∧
    (∀ c, holdsSlab s pid (clusterSlab c) = true → (clusterAt t c).reserved ≠ some n) ∧
    (∀ q, ∀ e ∈ queueAt t q, e.pid = pid → e.lseq = n → e.st ≠ .queued) ∧
    (∀ p l, HasLaunch s pid n p l → ∃ p' l', HasLaunch t pid n p' l' ∧ l'.ending = true ∧ l'.packet = l.packet ∧
      (∀ x, x ∈ [10, 11, 9, 8, 7] → x = l.status ∨ x = st →
        (∀ y, y = l.status ∨ y = st → y ∈ [10, 11, 9, 8, 7] → [10, 11, 9, 8, 7].idxOf x ≤ [10, 11, 9, 8, 7].idxOf y) → l'.status = x) ∧
      ∀ d x, lkp l'.strata d = some x → x.left = 0 ∧ x.nextCrew = x.crews ∧ x.restartq = [])

end Sys2Proof.Claims

open Sys2Proof.Claims in
/-- R152, with the lode of R141 and the LDONE record of R306; R324 and R327 for the kill of a task and the end of a launch. What becomes of a
reservation when its launch ends is the model's choice (log 103), as is a completion at a full queue (log 83). -/
def Obligations.LaunchEnd : Prop :=
  KillEffect ∧ AbortEffect ∧
  (∀ (s : State) (pid n : BitVec 32) (die : DieId) (p : Part) (l : Launch) (st : Stratum), HasLaunch s pid n p l →
    lkp l.strata die = some st → st.reported = false → st.left = 0 → die ∈ l.dies → launchBusy s pid die n = false →
    (∀ c ∈ dieClusters s pid die, ∀ cr ∈ (clusterAt s c).crews, cr.pid ≠ pid ∨ cr.info.lseq ≠ n) →
    let l1 := { l with reported := l.reported + 1, strata := ins l.strata die { st with reported := true } }
    exec (.stratumEnd pid die n) s = .next ((dieSlabs s pid die).foldl (fun acc sl => freeLode acc pid sl n)
      (signalCompl (setPart s pid { p with launches := ins p.launches n l1 }) l die))) ∧
  (∀ (s : State) (pid n : BitVec 32) (p : Part) (l : Launch), HasLaunch s pid n p l →
    p.dies.length ≤ l.strata.length → l.dies.length ≤ l.reported →
    let gone := dropImages (setPart s pid { p with launches := del p.launches n, out := p.out - 1 }) pid n
    (l.packet.getLsbD 1020 = false → exec (.launchComplete pid n) s = .next gone) ∧
    (l.packet.getLsbD 1020 = true → l.issuer = none → ∀ q, l.qp = some q → (qpAt s q).cq.length < 1024 →
      ∃ t c, exec (.launchComplete pid n) s = .next t ∧
      (qpAt t q).cq = (qpAt s q).cq ++ [c] ∧ bitsN c 248 8 = 1 ∧ bitsN c 240 8 = l.status % 256 ∧ c.extractLsb' 208 32 = l.ctag ∧
      c.extractLsb' 176 32 = n ∧ bitsN c 128 1 = 1) ∧
    (l.packet.getLsbD 1020 = true → ∀ e c tk, l.issuer = some e → coreOfTask s pid e.taskId = some c →
      (coreAt s c).task = some tk →
      (tk.evq.length < 64 → ∃ r, exec (.launchComplete pid n) s = .next (modTask gone c (postEvent r)) ∧ LdoneRec l r) ∧
      -- the record alone waits for room in the issuer's event queue
      (64 ≤ tk.evq.length → exec (.launchComplete pid n) s = .next (modPart gone pid fun q => { q with done := ins q.done n l })))) ∧
  (∀ (s : State) (pid n : BitVec 32) (p : Part) (l : Launch) (e : Entry) (c : CoreId) (tk : Task), partAt s pid = some p →
    lkp p.launches n = none → lkp p.done n = some l → l.packet.getLsbD 1020 = true → l.issuer = some e →
    coreOfTask s pid e.taskId = some c → (coreAt s c).task = some tk →
    (tk.evq.length < 64 → ∃ r, exec (.launchComplete pid n) s =
      .next (modTask (setPart s pid { p with done := del p.done n }) c (postEvent r)) ∧ LdoneRec l r) ∧
    (64 ≤ tk.evq.length → exec (.launchComplete pid n) s = .next s))

namespace Sys2Proof.Claims

/-- Clusters of a slab that PREEMPT may reserve for a candidate: not reserved, with no suspended task, no crew under capture or
co-resident, some crew of a lower class, and room once those are gone (R330). -/
def victims (s : State) (sl : SlabId) (x : Cand) : List ClusterId :=
  let pid := (slabAt s sl).pid
  let lower := fun (c : ClusterId) (cr : CrewRes) => decide (x.cls < crewClass s c cr)
  ((dieClusters s pid sl.die).filter fun c => clusterSlab c == sl).filter fun c =>
    (clusterAt s c).reserved.isNone &&
    !((List.range 4).any fun j => match (coreAt s ⟨c.die, 4 * c.clus + j⟩).task with | some t => t.susp.isSome | none => false) &&
    !((clusterAt s c).crews.any fun cr => decide (3 ≤ cr.choice) || cr.info.coresid) && (clusterAt s c).crews.any (lower c) &&
    fits (withoutCrews s c (lower c)) pid (crewInfo x.l x.crew) (hCrew x.l) c
/-- The sum of SYS.REMAIN over the tasks that would leave a cluster. -/
def departCost (s : State) (x : Cand) (c : ClusterId) : Nat :=
  ((clusterAt s c).crews.filter fun cr => decide (x.cls < crewClass s c cr)).foldl (fun a cr =>
    (crewTasks s c cr).foldl (fun b y => b + remainOf s y.2) a) 0

end Sys2Proof.Claims

open Sys2Proof.Claims in
/-- R150, R151, R330, R331 and R332; which launches deadlock together (log 15), and that a co-resident stratum's record goes to the
lowest of the partition's slabs on the die (log 51), are the model's reading; that PREEMPT looks at its own slab's clusters (log 102) is its
choice. -/
def Obligations.PreemptionAndResidency : Prop :=
  (∀ (s : State) (pid n : BitVec 32) (die : DieId) (p : Part) (l : Launch), HasLaunch s pid n p l → hCoresid l = false →
    let mine := fun (c : CoreId) (tk : Task) => c.die = die ∧ (coreAt s c).task = some tk ∧ tk.pid = pid ∧ tk.crew.lseq = n
    -- each launch of several that block each other is reported, once (R150)
    (∀ t0, lkp l.watch die = some t0 → t0 + 65536 ≤ s.ck → (∃ x ∈ residNow s pid p die, x.lseq = n) →
      (∃ x ∈ tasksOn s die, x.2.pid = pid ∧ x.2.crew.lseq = n ∧ x.2.susp = none) →
      ∃ t, exec (.residency pid die n) s = .next t ∧ ∀ c tk, mine c tk → tk.susp = none →
        ∃ tk' r, (coreAt t c).task = some tk' ∧ tk'.susp = some r ∧ r.cls = 16 ∧ r.susp = true ∧ r.lseq = l.lseq ∧
          (strandOf tk' .as).pc = (strandOf tk .as).pc ∧ (strandOf tk' .xs).pc = (strandOf tk .xs).pc) ∧
    ((∃ c tk, mine c tk) → (∀ x ∈ tasksOn s die, x.2.pid = pid → x.2.crew.lseq = n → x.2.susp ≠ none) →
      exec (.residency pid die n) s = .next s) ∧
    (lkp l.watch die = none → exec (.residency pid die n) s = .next s) ∧
    (∀ t0, lkp l.watch die = some t0 → s.ck < t0 + 65536 → exec (.residency pid die n) s = .next s)) ∧
  (∀ (s : State) (pid n : BitVec 32) (die : DieId) (p : Part) (l : Launch) (st : Stratum), HasLaunch s pid n p l →
    hCoresid l = true → lkp l.strata die = some st → die ∉ l.raised → 0 < st.crews → st.nextCrew = 0 → capacity s pid die l true < st.crews →
    lkp l.watch die = none → ∃ t r, exec (.residency pid die n) s = .next t ∧ r.cls = 16 ∧ r.susp = false ∧ r.lseq = l.lseq ∧
      (slabAt t (slabOnDie s pid die)).pending = (slabAt s (slabOnDie s pid die)).pending ++ [r] ∧ t.cores = s.cores) ∧
  (∀ (s : State) (sl : SlabId) (n : BitVec 32) (x : Cand) (c : ClusterId),
    (candidates s sl).find? (fun y => y.l.lseq == n) = some x → x.cls < 3 →
    (∀ d ∈ dieClusters s (slabAt s sl).pid sl.die, clusterSlab d = sl →
      fits s (slabAt s sl).pid (crewInfo x.l x.crew) (hCrew x.l) d = false ∧ (clusterAt s d).reserved ≠ some n) →
    c ∈ victims s sl x → (∀ d ∈ victims s sl x, d ≠ c → departCost s x c < departCost s x d) →
    exec (.preempt sl n) s = .next (((clusterAt s c).crews.filter fun cr => decide (x.cls < crewClass s c cr)).foldl
      (fun acc cr => departCrew acc c cr false) (modCluster s c fun k => { k with reserved := some n }))) ∧
  (∀ (s : State) (cl : ClusterId) (n : BitVec 32) (k : Nat) (cr : CrewRes), crewAt s cl n k = some cr →
    (∀ w, cr.choice = 1 → cr.drainBy = some w →
      (w ≤ s.ck → exec (.drainWindowExpiry cl n k) s = .next (departCrew s cl cr true)) ∧
      (s.ck < w → exec (.drainWindowExpiry cl n k) s = .next s)) ∧
    (3 ≤ cr.choice → captureReady s cl cr = true → slotOf s cr.pid cr.info = none → freeSlots s (clusterSlab cl) ≠ 0 →
      ∃ t im, exec (.checkpoint cl n k) s = .next t ∧ im ∈ (slabAt t (clusterSlab cl)).images ∧ im.info = cr.info ∧ im.pid = cr.pid ∧
        im.away = true ∧ im.tasks = (crewTasks s cl cr).map (fun x => savedTask s x.2) ∧
        im.harmed = false ∧
        im.sems = (List.range cr.info.semn).map (fun i => (cr.info.semlo + i, semAt s cl (cr.info.semlo + i))) ∧
        ∀ x ∈ crewTasks s cl cr, (coreAt t x.1).task = none)) ∧
  (∀ (s : State) (sl : SlabId) (im : Image) (c : ClusterId), (slabAt s sl).fence = false →
    (eligibleImages s sl).findSome? (fun y => (imageFits s y.pid sl.die y).map fun c => (y, c)) = some (im, c) →
    (∀ b ∈ im.banks, (bankAt (clusterAt s c) b.idx).transit = none) →
    ∃ t cr, exec (.crewRestore sl) s = .next t ∧ cr ∈ (clusterAt t c).crews ∧ cr.info = im.info ∧ cr.pid = im.pid ∧
      cr.tids = im.tasks.map (·.taskId) ++
        ((im.entries.map (·.taskId)).filter fun t => !im.tasks.any fun x => x.taskId == t) ∧
      ∀ y ∈ (slabAt t ⟨sl.die, im.slab⟩).images, y ≠ im)

open Sys2Proof.Claims in
/-- R325, R329 with R310, and R323; the address at which a restarted supervisor starts (log 6), and that it does not while its core is
fenced (log 89), are the model's choice. -/
def Obligations.FaultDelivery : Prop :=
  (∀ (s : State) (c : CoreId) (x : Strand) (tk : Task) (hd : Held), (coreAt s c).task = some tk → (strandOf tk x).held = some hd →
    tk.susp = none →
    let lim := 1024 * bitsN (slabAt s (coreSlab c)).wdog 0 32
    let h : Here := { core := c, x := x, k := coreAt s c, t := tk }
    (watched hd.why = true → lim ≠ 0 → hd.since + lim ≤ s.ck →
      exec (.watchdog c x) s = .next (takeFault s h 20 0 (BitVec.ofNat 64 ((s.ck - hd.since) / 1024)))) ∧
    (watched hd.why = false ∨ lim = 0 ∨ s.ck < hd.since + lim → exec (.watchdog c x) s = .next s)) ∧
  (∀ (s : State) (q : QueueId) (e : Entry), nextEntry s q = some e → e.st ≠ .halted → e.done = false →
    let lim := 1024 * bitsN (slabAt s (coreSlab e.core)).wdog 0 32
    (e.reported = false → lim ≠ 0 → e.since + lim ≤ s.ck → ∃ r, r.cls = 20 ∧ r.susp = false ∧ r.src = srcCode q.q ∧
      r.d0 = e.tag.setWidth 64 ∧ exec (.watchdogEngine q) s =
        .next (postRec (modEntry s q e.serial fun y => { y with reported := true }) (coreSlab e.core) r)) ∧
    (e.reported = true → exec (.watchdogEngine q) s = .next s)) ∧
  (∀ (s : State) (sl : SlabId) (r : FaultRec) (rest : List FaultRec), let b := slabAt s sl
    b.pending = r :: rest → recReady s sl r = true → b.fbuf = [] →
    (ringBase s b.pid sl b.fq 64 = none → ∃ t, exec (.faultRecordPost sl) s = .next t ∧ (slabAt t sl).pending = rest ∧
      (slabAt t sl).fbuf = [r]) ∧
    (∀ base n, ringBase s b.pid sl b.fq 64 = some (base, n) → b.fring.length < n →
      ∃ t, exec (.faultRecordPost sl) s = .next t ∧ (slabAt t sl).pending = rest ∧ (slabAt t sl).fring = b.fring ++ [r] ∧
        (slabAt t sl).causeTail = b.causeTail + 1 ∧
        (MemoryOk s → ∀ i : Nat, i < 64 → physByte t (ringAddr s b.pid sl b.fq (64 * (b.causeTail.toNat % n)) + i) = (recBits r).extractLsb' (8 * i) 8) ∧
        (b.fq.getLsbD 8 = true → semAt t ⟨sl.die, 5 * sl.slab + 4⟩ (bitsN b.fq 0 8) =
          semAt s ⟨sl.die, 5 * sl.slab + 4⟩ (bitsN b.fq 0 8) + 1)) ∧
    (∀ base n, ringBase s b.pid sl b.fq 64 = some (base, n) → n ≤ b.fring.length → exec (.faultRecordPost sl) s = .next s)) ∧
  (∀ (s : State) (sl : SlabId), (slabAt s sl).supst = 1 → (dieAt s sl.die).live = true → (slabAt s sl).fence = false →
    (coreAt s ⟨sl.die, 20 * sl.slab + 19⟩).fenced = false → (clusterAt s (CoreId.cluster ⟨sl.die, 20 * sl.slab + 19⟩)).fenced = false → ∃ t tk, exec (.supervisorRestart sl) s = .next t ∧ (slabAt t sl).supst = 0 ∧
    (coreAt t ⟨sl.die, 20 * sl.slab + 19⟩).task = some tk ∧ tk.crew.lseq = 0 ∧ tk.susp = none ∧ tk.as.pc = 0 ∧
    tk.pid = (slabAt s sl).pid ∧ tk.ord = 0x7FFFFE + sl.slab) ∧
  (∀ (s : State) (sl : SlabId), (slabAt s sl).supst ≠ 1 ∨ (dieAt s sl.die).live = false ∨ (slabAt s sl).fence = true ∨
      (coreAt s ⟨sl.die, 20 * sl.slab + 19⟩).fenced = true →
    exec (.supervisorRestart sl) s = .next s)

open Sys2Proof.Claims in
/-- R75, R90, R92, R93 and R98 to R100; that a replay to another die stays in the side log, marked sent, until it is answered (log 53),
and which line leaves a full set (log 70), are the model's. -/
def Obligations.MemorySystemEvents : Prop :=
  (∀ (s : State) (c : CoreId) (oid : BitVec 32) (facet : DieId) (ext : Nat) (h : Here), hereOf s c .as = some h →
    ∃ t e, exec (.walkComplete c oid facet ext) s = .next t ∧ xlate s (whoOf h) ⟨oid, facet, ext⟩ = (t, e) ∧ MemSame s t ∧
      t.mem = s.mem ∧ t.l2 = s.l2) ∧
  (∀ (s : State) (c : CoreId) (x : Strand) (h : Here) (n : Nat), hereOf s c x = some h →
    (strandOf h.t x).held = some ⟨.extent, n⟩ ∨ (strandOf h.t x).held = some ⟨.moving, n⟩ ∨
      (strandOf h.t x).held = some ⟨.fetch, n⟩ ∨ (strandOf h.t x).held = some ⟨.sidelogLoad, n⟩ ∨ (∃ m, (strandOf h.t x).held = some ⟨.movingAt m, n⟩) →
    exec (.heldAccessProceed c x) s = .next { s with cur := some { core := c, x := x } }) ∧
  (∀ (s s1 : State) (c : CoreId) (h : Here) (e : SideEnt) (es : List SideEnt) (r : Res), hereOf s c .as = some h →
    h.t.side = e :: es → e.sent = false → locate s (whoOf h) e.loc = (s1, some r) →
    let w := whoOf h
    let mask := (writeOp 0 0 (r.loc.byte % 256) e.op).2.2
    (r.home.die = c.die → (∀ x ∈ es, x.sent = false) →
      (∀ b, e.op = .bytes b → homeRefuses s1 r.home r.pa = none →
        conflicts w (homeLine s1 r) (mask &&& ~~~ myMask w (homeLine s1 r)) false = false →
        exec (.sideLogReplay c) s = .next (modTask (storeLocal s1 h r e.op id) h.core (sideDone e.tag))) ∧
      (∀ why, homeRefuses s1 r.home r.pa = some why → exec (.sideLogReplay c) s = .next (replayRefused s1 h e why))) ∧
    (r.home.die = c.die → (∃ x ∈ es, x.sent = true) → exec (.sideLogReplay c) s = .next s1) ∧
    -- the cluster's copy of the line takes the store's bytes (R208)
    (r.home.die ≠ c.die → exec (.sideLogReplay c) s = .next (modTask
      (l1Posted (noFill (sendPkt s1 c.die r.home.die e.tag (.write h.t.pid c h.t.taskId r e.op e.ord)) (CoreId.cluster c)
        fun q => q.key == r.key) h r e.op) c fun t => noteSent r.home.die e.ord { t with side := t.side.map fun x => if x = e then { x with sent := true } else x }))) ∧
  (∀ (s : State) (k : LineKey) (e : TEntry), partAt s k.pid ≠ none → lkp s.l2 k = none →
    walk s k.pid (hwWho s k.pid k.facet).die ⟨k.oid, k.facet, k.line / 8192⟩ = e → extV e.ext = true → wState e.word0 = 1 → e.wf = true →
    let r := resOf (hwWho s k.pid k.facet) k.oid k.facet (256 * k.line) e
    homeRefuses s r.home r.pa = none → badExt s k.pid e r = false →
    (HasRoom s r → ∃ t, exec (.lineFill k none) s = .next t ∧ lkp t.l2 k = some (homeLine s r) ∧ t.mem = s.mem) ∧
    -- a line that no open registration holds may make room
    (∀ v l, lkp s.l2 v = some l → l.recs = [] → l.marks = [] → l.pend = [] →
      exec (.lineFill k (some v)) s = .next (bring (evictLine s v l) r))) ∧
  (∀ (s : State) (pid oid : BitVec 32) (ext : Nat) (dest : BitVec 64) (p : Part) (d : DieId) (n sl : Nat) (mk : Option SlabId),
    partAt s pid = some p → lkpD p.follow ⟨oid, 0, ext⟩ (0, 0, 0) = (d, n, sl) → lkp p.moving ⟨oid, 0, ext⟩ = mk → mk ≠ none ∨ 64 ≤ n →
    let k : TKey := ⟨oid, 0, ext⟩
    let e := walk s pid (p.dies.headD 0) k
    let a := extAddr s pid (p.dies.headD 0) k
    let tgt := mk.getD ⟨d, sl⟩
    let s1 := setPart s pid { p with follow := del p.follow k, moving := ins p.moving k tgt }
    wHome e.word0 = 2 → wDist e.word0 = false → wState e.word0 = 1 → extV e.ext = true →
    (mk = none → bitsN e.ext 5 3 = 4 → exec (.extentMigration pid oid ext dest) s = .next
      (addPin (physWrite (setPart s pid { p with follow := del p.follow k }) a (bytesOf 8 (setBits e.ext 8 1 1).toNat)) pid oid)) ∧
    (bitsN e.ext 5 3 < 4 → dest.toNat % 4096 = 0 → paSlab dest.toNat = tgt → tgt ∈ p.slabs →
      -- marked as moving until its lines are closed and no access is under its old translation (R99)
      (quietExt s1 pid k = false → ∃ t, exec (.extentMigration pid oid ext dest) s = .next t ∧
        partAt t pid = some { p with follow := del p.follow k, moving := ins p.moving k tgt } ∧ extMoving t pid k = true) ∧
      (quietExt s1 pid k = true → ∃ t, exec (.extentMigration pid oid ext dest) s = .next t ∧
        (MemoryOk s → let v := BitVec.ofNat 64 (physRead t a 8)
          bitsN v 12 52 = dest.toNat / 4096 ∧ bitsN v 5 3 = bitsN e.ext 5 3 + 1 ∧ extV v = true)))) ∧
  (∀ (s : State) (pid : BitVec 32) (p : Part), partAt s pid = some p →
    (p.windowAt + 120000 ≤ s.ck → ∃ t, exec (.migrationWindow pid) s = .next t ∧
      partAt t pid = some { p with windowAt := p.windowAt + 120000, windowed := [] }) ∧
    (s.ck < p.windowAt + 120000 → ∃ t, exec (.migrationWindow pid) s = .next t ∧ partAt t pid = some p))

namespace Sys2Proof.Claims

/-- The sequenced types of packets (R346), numbered for these statements; a WRITE of a strand and one of an engine entry arrive at
the same event. -/
def sortOf (b : Body) : Nat :=
  match b with
  | .write .. | .ewrite .. => 1 | .read .. => 2 | .rdata .. => 3 | .atomic .. => 4 | .aresp .. => 5 | .flag .. => 6 | .semadd .. => 7
  | .forward .. => 8 | .stream .. => 9 | .mgmt .. => 10 | .refuse .. => 11 | .demand .. => 12 | .grant .. => 13
  | .ack .. | .busy .. | .reserved => 0
/-- `i` is the event of the table at which a sequenced packet arrives (R346). -/
def arrival (src dst : DieId) (b : Body) (i : Instr) : Prop :=
  match sortOf b with
  | 1 => i = .write src dst | 2 => i = .read src dst | 3 => i = .rdata src dst | 4 => i = .atomic src dst
  | 5 => i = .aresp src dst | 6 => i = .flag src dst | 7 => i = .semadd src dst | 8 => i = .forward src dst
  | 9 => i = .stream src dst | 10 => i = .mgmt src dst | 11 => i = .refuse src dst | 12 => i = .demand src dst
  | 13 => i = .grant src dst | _ => False
/-- Every packet on the wire from `src` to `dst` is well formed (R346). -/
def WireOk (s : State) (src dst : DieId) : Prop := ∀ q ∈ (pairAt s src dst).flight, malformed q = false
/-- `p` is the first packet of its type on the wire from `src` to `dst`, and `i` the event at which that type arrives. -/
def Comes (s : State) (src dst : DieId) (p : Packet) (i : Instr) : Prop :=
  WireOk s src dst ∧ arrival src dst p.body i ∧
  (pairAt s src dst).flight.find? (fun q => sortOf q.body == sortOf p.body) = some p
/-- It passes authentication, is the next in order and finds a buffer (R348 to R350). -/
def Taken (s : State) (src dst : DieId) (p : Packet) (i : Instr) : Prop :=
  Comes s src dst p i ∧ authentic s src dst p = true ∧ p.seq = (pairAt s src dst).expect ∧ bufferFull s src dst p.body = false

end Sys2Proof.Claims

open Sys2Proof.Claims in
/-- R346 to R348, R350 and R352, with the homes' rules of R77, R115, R127, R128, R215 and R219. The model's own: a packet accepted
before is answered again (log 14); a packet of an entry that is gone is acknowledged and dropped, as is the store of a task that is
gone (log 11); a SEND completes with its FLAG or SEMADD (log 62); a FORWARD at a die that is not the partition's is refused with
reason 1 (log 81). -/
def Obligations.PacketsAtTheirDestinations : Prop :=
  ∀ (s : State) (src dst : DieId) (q : Packet) (i : Instr),
    let port := arrivalPort s src dst
    -- a packet of type 15 or with a nonzero zero field is dropped and counted (R346, R361)
    (∀ b, arrival src dst b i → (pairAt s src dst).flight ≠ [] → (∀ x ∈ (pairAt s src dst).flight, malformed x = true) →
      ∃ t, exec i s = .next t ∧ (pairAt t src dst).flight = [] ∧
        (linkAt t dst port).drop = (linkAt s dst port).drop + BitVec.ofNat 32 (pairAt s src dst).flight.length) ∧
    (Comes s src dst q i →
      (authentic s src dst q = false →
        exec i s = .next (modLink (takeOff s src dst q) dst port fun l => { l with authFail := l.authFail + 1 })) ∧
      (authentic s src dst q = true → q.seq ≠ (pairAt s src dst).expect → behind (pairAt s src dst) q.seq = true →
        exec i s = .next (if refusalKept s src dst q.seq then takeOff s src dst q
          else sendAck (takeOff s src dst q) src dst q 0 (ackEntry q.body))) ∧
      -- out of order, or with its buffer or the transit buffer of a turn full (R350)
      (authentic s src dst q = true →
        (q.seq ≠ (pairAt s src dst).expect ∧ behind (pairAt s src dst) q.seq = false) ∨
          (q.seq = (pairAt s src dst).expect ∧ bufferFull s src dst q.body = true) →
        (q.circ = false → exec i s = .next
          (modPair (takeOff s src dst q) src dst fun x => { x with flight := x.flight ++ [{ q with circ := true }] })) ∧
        (q.circ = true → exec i s = .next
          (modLink (launchPkt (takeOff s src dst q) dst src q.tag (.busy (bodyPid q.body) q.seq)) dst port fun l =>
            { l with returns := l.returns + 1 })))) ∧
    (Taken s src dst q i → ∀ s2,
      let ack := fun (t : State) (task : W64) (e : Option (QueueId × Nat)) => exec i s = .next (acceptAck t src dst q task e)
      let reply := fun (t : State) (task : W64) (b : Body) =>
        exec i s = .next (sendPkt (acceptAck t src dst q task none) dst src q.tag b)
      let refuse := fun (pid : BitVec 32) (c : CoreId) (task : W64) (loc : Where) (reason : Nat) (o : W64) (posted : Bool) =>
        exec i s = .next (refusePkt s src dst q pid c task loc reason o posted)
      -- the entry completes with its flag when that is all that it waits for
      let flagged := fun (t : State) (e : QueueId) (n : Nat) =>
        (entryAt s e n = none → ack t 0 none) ∧
        (∀ x, entryAt s e n = some x →
          (x.st = .running → x.done = true → x.acks = 1 → ack (completeEntry t e x) 0 none) ∧
          (x.st ≠ .running ∨ x.done = false ∨ x.acks ≠ 1 → ack t 0 (some (e, x.serial))))
      let turnBack := fun (pid : BitVec 32) (reason : Nat) (o : W64) (byte : Option Nat) (e : QueueId) (n : Nat) =>
        exec i s = .next (refuseEntry s src dst q pid reason o byte e n)
      (∀ pid c task r op ord, q.body = .write pid c task r op ord →
        let w := remoteWho pid ((coreOfTask s pid task).getD c) task
        -- the store of a task that is gone has no effect left (R327)
        (deadStore s pid task op = true → ack s task none) ∧
        (deadStore s pid task op = false → holdsSlab s pid r.home = false → refuse pid c task r.loc 1 0 true) ∧
        (deadStore s pid task op = false → holdsSlab s pid r.home = true →
          (homeStore s w r op ord = .ok s2 () → ack s2 task none) ∧
          (∀ o, homeStore s w r op ord = .conflict o → refuse pid c task r.loc 0 o true) ∧
          (∀ why, homeStore s w r op ord = .refused why → refuse pid c task r.loc why 0 true))) ∧
      (∀ pid r data e n, q.body = .ewrite pid r data e n →
        (entryAt s e n = none → ack s 0 none) ∧
        (∀ x, entryAt s e n = some x → holdsSlab s pid r.home = false → turnBack pid 1 0 (some r.loc.byte) e n) ∧
        (∀ x, entryAt s e n = some x → holdsSlab s pid r.home = true →
          entStoreAt (entWho e x) x data.length (ofBytes data) s r = .ok s2 () → ack s2 0 (some (e, n)))) ∧
      (∀ pid c task r n v sync, q.body = .read pid c task r n v sync → holdsSlab s pid r.home = false → refuse pid c task r.loc 1 0 false) ∧
      (∀ pid c task r n sync, q.body = .read pid c task r n false sync → holdsSlab s pid r.home = true →
        (∀ d tg, homeLoad s (remoteWho pid c task) r n sync = .ok s2 (d, tg) → reply s2 task (.rdata pid c task d tg 0 false)) ∧
        (∀ o, homeLoad s (remoteWho pid c task) r n sync = .conflict o → refuse pid c task r.loc 0 o false) ∧
        (∀ w, homeLoad s (remoteWho pid c task) r n sync = .refused w → refuse pid c task r.loc w 0 false)) ∧
      (∀ pid c task r n sync, q.body = .read pid c task r n true sync → holdsSlab s pid r.home = true →
        (∀ d v o, homeVersioned s (remoteWho pid c task) r = .ok s2 (d, v, o) → reply s2 task (.rdata pid c task d 0 v o)) ∧
        (∀ w, homeVersioned s (remoteWho pid c task) r = .refused w → refuse pid c task r.loc w 0 false)) ∧
      (∀ pid c task r fn ty b e kind ord, q.body = .atomic pid c task r fn ty b e kind ord →
        let lacks := atomicFeature fn ty kind &&& ~~~ dieFeature s pid dst ≠ 0
        (lacks → reply s task (.aresp pid c task 0 0 false true)) ∧
        (¬ lacks → holdsSlab s pid r.home = false → refuse pid c task r.loc 1 0 false) ∧
        (¬ lacks → holdsSlab s pid r.home = true →
          (∀ v ver ok, homeAtomic s (remoteWho pid c task) r fn ty b e kind ord = .ok s2 (v, ver, ok) →
            reply s2 task (.aresp pid c task v ver ok false)) ∧
          (∀ o, homeAtomic s (remoteWho pid c task) r fn ty b e kind ord = .conflict o → refuse pid c task r.loc 0 o false) ∧
          (∀ w, homeAtomic s (remoteWho pid c task) r fn ty b e kind ord = .refused w → refuse pid c task r.loc w 0 false))) ∧
      (∀ pid c sem e n, q.body = .semadd pid c sem e n →
        let shut := (clusterAt s ⟨dst, c⟩).fenced = true ∨ (slabAt s (clusterSlab ⟨dst, c⟩)).fence = true ∨
          (slabAt s (clusterSlab ⟨dst, c⟩)).pid ≠ pid
        (reaches s src dst = true → ¬ shut → flagged (hearSem (addSem s ⟨dst, c⟩ sem 1) ⟨dst, c⟩ sem) e n) ∧
        (reaches s src dst = true → shut → turnBack pid 1 0 none e n) ∧ (reaches s src dst = false → turnBack pid 3 0 none e n)) ∧
      (∀ pid r e n, q.body = .flag pid r e n →
        (entryAt s e n = none → ack s 0 none) ∧
        (∀ x, entryAt s e n = some x → holdsSlab s pid r.home = false → turnBack pid 1 0 (some r.loc.byte) e n) ∧
        (∀ x, entryAt s e n = some x → holdsSlab s pid r.home = true →
          (∀ v, flagAt s (entWho e x) r = .ok s2 v → flagged s2 e n) ∧
          (∀ o, flagAt s (entWho e x) r = .conflict o → turnBack pid 0 o (some r.loc.byte) e n) ∧
          (∀ w, flagAt s (entWho e x) r = .refused w → turnBack pid w 0 (some r.loc.byte) e n))) ∧
      (∀ pid c task d tg v o, q.body = .rdata pid c task d tg v o →
        ack (answer s pid task q.tag fun r fill => .line r fill d tg v o) 0 none) ∧
      (∀ pid c task v ver ok un, q.body = .aresp pid c task v ver ok un →
        ack (answer s pid task q.tag fun r _ => if un then .unsupported r src else .old r v ver ok) 0 none) ∧
      (∀ pid oid byte data rest sem cl e n place, q.body = .forward pid oid byte data rest sem cl e n place →
        (entryAt s e n = none → ack s 0 none) ∧
        (∀ x, entryAt s e n = some x →
          let cutOff := ∃ m, x.cut = some m ∧ m ≤ place
          let refuses := fun (why : Nat) => exec i s = .next (refuseChain s src dst q e x (packetRefused x why 0 (some byte)) place)
          -- a die at this place or before it refused an earlier packet of the chain (R290)
          (cutOff → exec i s = .next (entryAck (acceptAck s src dst q 0 none) e n)) ∧
          (¬ cutOff → reaches s src dst = false → refuses 3) ∧
          (¬ cutOff → reaches s src dst = true → dieInPart s x.pid dst = false → refuses 1) ∧
          (¬ cutOff → reaches s src dst = true → dieInPart s x.pid dst = true →
            (forwardAt e x oid byte data sem cl place dst rest s = .ok s2 () → ack s2 0 none) ∧
            (∀ fi, forwardAt e x oid byte data sem cl place dst rest s = .fault s2 fi →
              exec i s = .next (refuseChain s2 src dst q e x fi ((entryAt s2 e n).bind (·.cut) |>.getD place)))))) ∧
      (∀ pid c port data e n byte, q.body = .stream pid c port data e n byte →
        (reaches s src dst = false → turnBack pid 3 0 (some byte) e n) ∧
        (reaches s src dst = true → semRefuses s pid ⟨dst, c⟩ = true → turnBack pid 1 0 (some byte) e n) ∧
        (reaches s src dst = true → semRefuses s pid ⟨dst, c⟩ = false →
          ack (modDie s dst fun d => { d with streams := upd d.streams (c, port) [] (· ++ data) }) 0 (some (e, n)))) ∧
      (∀ m, q.body = .mgmt m → ack s 0 none))

open Sys2Proof.Claims in
/-- R349 (with R118 and R93), R350 and R351; that ACK and BUSY carry no sequence number of their own is the model's choice (log 14). `src`
sends the answer, `dst` had sent the packet. -/
def Obligations.AcknowledgementsAndGrants : Prop :=
  (∀ (s : State) (src dst : DieId) (p : Packet), WireOk s src dst → authentic s src dst p = true →
    let wire := (pairAt s src dst).flight
    let off := takeOff s src dst p
    let kept := fun (off : State) (n : BitVec 24) => ((pairAt off dst src).kept.find? fun k => k.1.seq == n).map (·.1)
    (bufferFull s src dst p.body = false →
      (wire.find? (fun q => match q.body with | .ack .. => true | _ => false) = some p → ∀ pd n task e, p.body = .ack pd (some n) task e →
        let s1 := (unkeep off dst src (some n)).1
        ∃ t, exec (.ack src dst) s = .next t ∧ (∀ k ∈ (pairAt t dst src).kept, k.1.seq ≠ n) ∧
          (∀ k ∈ (pairAt off dst src).kept, k.1.seq ≠ n → k ∈ (pairAt t dst src).kept) ∧
          (∀ k pid core tid r op ord, kept off n = some k → e = none → k.body = .write pid core tid r op ord →
            t = modTaskId s1 pid tid fun x => sideAcked k.tag (noteAcked src ord k.tag x)) ∧
          (∀ k q m, kept off n = some k → e = some (q, m) → (∀ pid core tid r op ord, k.body ≠ .write pid core tid r op ord) →
            t = entryAck s1 q m)) ∧
      (wire.find? (fun q => match q.body with | .busy .. => true | _ => false) = some p → ∀ pd n, p.body = .busy pd n →
        (∃ k ∈ (pairAt off dst src).kept, k.1.seq = n) →
        exec (.busy src dst) s = .next (modPair off dst src fun q => { q with resendAt := some (match q.resendAt with
          | none => (n, s.ck + 256)
          -- the earliest packet returned, at the time of the first return
          | some (m, t) => if (m - n).toNat < 2 ^ 23 then (n, t) else (m, t)) }))) ∧
    (bufferFull s src dst p.body = true → ∀ i, (i = .ack src dst ∧ wire.find? (fun q => match q.body with | .ack .. => true | _ => false) = some p) ∨
        (i = .busy src dst ∧ wire.find? (fun q => match q.body with | .busy .. => true | _ => false) = some p) →
      exec i s = .next (modPair off src dst fun x => { x with flight := x.flight ++ [{ p with circ := true }] }))) ∧
  -- REFUSE, DEMAND and GRANT are numbered, kept and acknowledged
  (∀ (s : State) (src dst : DieId) (p : Packet) (i : Instr), Taken s src dst p i →
    let off := acceptAck s src dst p 0 none
    (∀ pd n task core reason owner byte posted e place, p.body = .refuse pd (some n) task core reason owner byte posted e place →
      let s1 := (unkeep off dst src (some n)).1
      (∀ k, ((pairAt off dst src).kept.find? fun k => k.1.seq == n).map (·.1) = some k → e = none →
        (∀ pid c tid r op ord, k.body = .write pid c tid r op ord →
          exec i s = .next (storeRefused s1 src pid c tid k.tag reason r op ord)) ∧
        ((∀ pid c tid r op ord, k.body ≠ .write pid c tid r op ord) →
          exec i s = .next (answer s1 (pd.getD 0) task p.tag fun r _ => .refused r reason owner))) ∧
      (∀ q m x, e = some (q, m) → entryAt s1 q m = some x →
        (x.st ≠ .halted → exec i s = .next (engFault (entryAck s1 q m) q x (packetRefused x reason owner byte))) ∧
        (x.st = .halted → exec i s = .next (entryAck s1 q m)))) ∧
    (∀ pd n, p.body = .demand pd n → exec i s = .next
      (launchPkt (modPair off src dst fun q => { q with grants := q.grants ++ [(min 64 n, s.ck)] }) dst src 0 (.grant pd (min 64 n)))) ∧
    ((∃ pd n, p.body = .grant pd n) → (pairAt off dst src).resendAt = none →
      ((pairAt off dst src).grants.filter (fun g => decide (s.ck < g.2 + 4096)) = [] → exec i s = .next (askFor off dst src)) ∧
      ∀ g gs, (pairAt off dst src).grants.filter (fun g => decide (s.ck < g.2 + 4096)) = g :: gs →
      let s1 := modPair off dst src fun q => { q with grants := q.grants.erase g }
      let out := drain dst src (pairAt off dst src).waiting g.1 s1
      exec i s = .next (askFor (modPair out.1 dst src fun q => { q with waiting := out.2 }) dst src))) ∧
  (∀ (s : State) (src dst : DieId),
    (∀ n c, (pairAt s src dst).resendAt = some (n, c) → c ≤ s.ck → exec (.busyResend src dst) s = .next (resend s src dst n)) ∧
    ((pairAt s src dst).resendAt = none → ∀ k c, (pairAt s src dst).kept.find? (fun k => decide (k.2 + 65536 ≤ s.ck)) = some (k, c) →
      exec (.busyResend src dst) s = .next (resend s src dst k.seq)) ∧
    (∃ t, exec (.grantExpiry src dst) s = .next t ∧ (∀ g ∈ (pairAt t dst src).grants, s.ck < g.2 + 4096) ∧
      ∀ g ∈ (pairAt s dst src).grants, s.ck < g.2 + 4096 → g ∈ (pairAt t dst src).grants))

namespace Sys2Proof.Claims

/-- The pair can act on a command at once: its port is up, it is assigned, in no error state and nothing waits (R354, R355). -/
def QueueOpen (s : State) (n : Nat) : Prop :=
  portUp s (qpPkg n) = true ∧ (qpAt s n).error = false ∧ (qpAt s n).pid ≠ 0 ∧ (qpAt s n).waiting = []
/-- The state with the command at the head of the pair's queue. -/
def arrived (s : State) (n : Nat) (h : BitVec 256) (body : BitVec 2048) : State :=
  modQp s n fun q => { q with waiting := [{ hdr := h, body := body }], sqTail := q.sqTail + 1 }

end Sys2Proof.Claims

open Sys2Proof.Claims in
/-- R354 to R357, R360 and R361 for each event of the host. The model's own: any command on a pair of no partition is NAKed (log 23); a REGMR
length or a PACT ACT outside its range is a header that is not well formed (log 17); which parts of a summary are of one state (log 58); a
completion at a full queue (log 83); a DEREGMR of another oid (log 106); SGEN at a RESYNC that fails (log 108). -/
def Obligations.HostCommands : Prop :=
  (∀ (s : State) (n : Nat) (h : BitVec 256), QueueOpen s n →
    let s1 := arrived s n h 0
    let pid := (qpAt s n).pid
    let ends := fun (i : Instr) (t : State) => exec i s = .next (popCmd t n)
    (cmdOk h = true →
      (bitsN h 248 8 = 7 → ends (.nop n h) (postCq s1 n (completion 7 0 (h.extractLsb' 208 32) 0 0 0))) ∧
      (bitsN h 248 8 = 2 → truncRuns s1 (h.extractLsb' 191 17) (bitsN h 185 6) = false →
        let a := frameAt s1 pid (h.extractLsb' 191 17) (bitsN h 185 6) (h.extractLsb' 153 32) (h.extractLsb' 121 32)
        ends (.frame n h) (postCq a.1 n (completion 2 a.2 (h.extractLsb' 208 32) 0 0 0))) ∧
      (bitsN h 248 8 = 2 → truncRuns s1 (h.extractLsb' 191 17) (bitsN h 185 6) = true → exec (.frame n h) s = .next s1) ∧
      (bitsN h 248 8 = 3 → ends (.regmr n h) (regmr s1 n pid h)) ∧
      (bitsN h 248 8 = 4 → copyNames s1 pid (h.extractLsb' 176 32) = false → ends (.deregmr n h) (deregmr s1 n pid h)) ∧
      (bitsN h 248 8 = 4 → copyNames s1 pid (h.extractLsb' 176 32) = true → exec (.deregmr n h) s = .next s1) ∧
      (bitsN h 248 8 = 6 → ∀ pkg, ends (.resync (some n) pkg h) (resync s1 (some n) (qpPkg n) h)) ∧
      (bitsN h 248 8 = 1 → ∀ body p, partAt s pid = some p → (∀ x ∈ p.subs, x.qp ≠ some n) →
        ∃ t sub, exec (.hostLaunch n h body) s = .next t ∧ t = modPart (arrived s n h body) pid (fun p => { p with subs := p.subs ++ [sub] }) ∧
          sub.packet = body ∧ sub.qp = some n ∧ sub.ctag = h.extractLsb' 208 32 ∧ sub.issuer = none)) ∧
    -- a malformed LAUNCH's completion carries its packet's LTAG
    (cmdOk h = false → ∀ c : BitVec 2304, c.extractLsb' 0 256 = h → let body : BitVec 2048 := c.extractLsb' 256 2048
      ends (.unknownOp n c) (postCq (arrived s n h body) n (completion (bitsN h 248 8) 0xFF
      (h.extractLsb' 208 32) 0 (if bitsN h 248 8 = 1 then body.extractLsb' 960 32 else 0) 0)))) ∧
  -- a command on a pair of no partition
  (∀ (s : State) (n : Nat) (h : BitVec 256), portUp s (qpPkg n) = true → (qpAt s n).pid = 0 →
    let nak := fun (i : Instr) => exec i s = .next (modQp s n fun q => { q with error := true, naks := q.naks + 1 })
    (cmdOk h = true → ∀ i body pkg, (i, bitsN h 248 8) ∈ [(Instr.hostLaunch n h body, 1), (.frame n h, 2), (.regmr n h, 3), (.deregmr n h, 4),
      (.resync (some n) pkg h, 6), (.nop n h, 7)] → nak i) ∧
    (cmdOk h = true → bitsN h 248 8 = 5 → ∀ i pkg, (i, bitsN h 204 4) ∈ [(Instr.pactCreate (some n) pkg h, 1),
      (.pactResize (some n) pkg h, 2), (.pactCoreReset (some n) pkg h, 3), (.pactUncoreReset (some n) pkg h, 4),
      (.pactDestroy (some n) pkg h, 5)] → nak i) ∧
    (cmdOk h = false → ∀ c : BitVec 2304, c.extractLsb' 0 256 = h → nak (.unknownOp n c))) ∧
  (∀ (s : State) (pkg : DieId) (k : Nat), let n := qpOf pkg k
    (portUp s pkg = true →
      exec (.invalidRequest pkg k) s = .next (modQp s n fun q => { q with error := true, naks := q.naks + 1 })) ∧
    (portUp s pkg = true → ∃ t, exec (.cnp pkg k) s = .next t ∧
      ((qpAt s n).rate ≠ 0 → (qpAt t n).rate < (qpAt s n).rate) ∧ (qpAt t n).cq = (qpAt s n).cq ∧ (qpAt t n).pid = (qpAt s n).pid) ∧
    ((pkgAt s pkg).session = true → (pkgAt s pkg).fwstate ≠ 2 → exec (.markAdmin pkg k) s = .next (modQp s n fun q => { q with admin := true })) ∧
    ((pkgAt s pkg).session = false ∨ (pkgAt s pkg).fwstate = 2 → exec (.markAdmin pkg k) s = .next s) ∧
    (∀ cert, exec (.securedSessionOpen pkg cert) s = .next
      (if Config.certChains cert = true then setPkg s pkg { pkgAt s pkg with session := true } else s))) ∧
  (∀ (s : State) (pkg : DieId) (h : BitVec 256), (pkgAt s pkg).session = true → (pkgAt s pkg).fwstate ≠ 2 → cmdOk h = true →
    bitsN h 248 8 = 6 → ∃ t, exec (.resync none pkg h) s = .next t ∧ (pkgAt t pkg).sgen = (pkgAt s pkg).sgen + 1 ∧
      (pkgAt t pkg).summary = summaryOf s pkg ((pkgAt s pkg).sgen + 1) ∧
      (pkgAt t pkg).answers = (pkgAt s pkg).answers ++ [.resync ((pkgAt s pkg).sgen + 1)])

namespace Sys2Proof.Claims

/-- A request's answer: a completion on its queue pair, or an answer of the management port (R357, R358, R360). -/
def Answered (s t : State) (qp : Option Nat) (pkg : DieId) (h : BitVec 256) (st : Nat) : Prop :=
  match qp with
  | some n => t = postCq s n (completion 5 st (h.extractLsb' 208 32) 0 0 0)
  | none => t = modPkg s pkg fun k => { k with answers := k.answers ++ [.pact st (h.extractLsb' 208 32)] }
/-- The statuses of R358 other than 0: 1 shape, 2 busy, 3 HOMED, 4 a slab taken or not held, 5 a wrap, 6 queue pairs, 7 denied. Their order is
the model's choice (log 24). -/
def PactRefusals : Prop :=
  ∀ (s : State) (qp : Option Nat) (pkg : DieId) (h : BitVec 256),
    let pid : BitVec 32 := h.extractLsb' 171 32
    let act := bitsN h 204 4
    let shape := shapeOf pkg (hLo h) (hHi h) (hMask h)
    let no := Answered s (pact s qp pkg h) qp pkg h
    let mine := fun (p : BitVec 32) => ∀ n, qp = some n → (qpAt s n).pid = p
    (act = 1 →
      let may := pid ≠ 0 ∧ partAt s pid = none ∧ ∀ n, qp = some n → (qpAt s n).admin = true
      (¬ may → no 7) ∧ (may → shape = none → no 1) ∧
      (∀ x, may → shape = some x →
        (breaksWrap s x = true → no 5) ∧
        (breaksWrap s x = false → (∃ sl ∈ x.slabs, inAction s sl = true) → no 2) ∧
        (breaksWrap s x = false → (∀ sl ∈ x.slabs, inAction s sl = false) →
          ((∃ sl ∈ x.slabs, slabTaken s sl = true) → no 4) ∧
          ((∀ sl ∈ x.slabs, slabTaken s sl = false) → (freePairs s pkg).length < hNqp h → no 6)))) ∧
    (act = 2 →
      (¬ mine pid ∨ partAt s pid = none → no 7) ∧
      (∀ p, mine pid → partAt s pid = some p → (shape = none → no 1) ∧
        (∀ x, shape = some x →
          let free := p.action = none ∧ ∀ sl ∈ p.slabs ++ x.slabs, inAction s sl = false
          let joins := ∀ sl ∈ x.slabs, sl ∉ p.slabs → slabTaken s sl = false
          (breaksWrap s x = true → no 5) ∧ (breaksWrap s x = false → ¬ free → no 2) ∧
          (breaksWrap s x = false → free → (¬ joins → no 4) ∧
            (joins → homed s pid (p.slabs.filter fun sl => !x.slabs.contains sl) = true → no 3))))) ∧
    (act = 3 →
      let pid := resetPid s qp pkg h
      (¬ mine pid ∨ partAt s pid = none → no 7) ∧
      (∀ p, mine pid → partAt s pid = some p →
        let l := if bitsN h 121 16 = 0 then p.slabs else maskSlabs pkg (bitsN h 121 16)
        ((∃ sl ∈ l, inAction s sl = true) → no 2) ∧
        ((∀ sl ∈ l, inAction s sl = false) → (∃ sl ∈ l, sl ∉ p.slabs) → no 4))) ∧
    (act = 4 ∨ act = 5 →
      let pid := if act = 4 then resetPid s qp pkg h else pid
      (¬ mine pid ∨ partAt s pid = none → no 7) ∧ (∀ p, mine pid → partAt s pid = some p → p.action ≠ none → no 2))
/-- A PACT that comes to an empty send queue acts at once and leaves the queue (R355, R358); one of an administrative pair may create a
partition, as the management port may. -/
def PactOnPair : Prop :=
  ∀ (s : State) (n : Nat) (pkg : DieId) (h : BitVec 256) (i : Instr) (act : Nat),
    (i, act) ∈ [(Instr.pactCreate (some n) pkg h, 1), (.pactResize (some n) pkg h, 2), (.pactCoreReset (some n) pkg h, 3),
      (.pactUncoreReset (some n) pkg h, 4), (.pactDestroy (some n) pkg h, 5)] → bitsN h 204 4 = act → bitsN h 248 8 = 5 → cmdOk h = true →
    (pkgAt s (qpPkg n)).fwstate = 0 → (pkgAt s (qpPkg n)).tripped = false → (qpAt s n).pid ≠ 0 → (qpAt s n).error = false →
    (qpAt s n).waiting = [] →
    let s1 := modQp s n fun q => { q with waiting := [{ hdr := h, body := 0 }], sqTail := q.sqTail + 1 }
    exec i s = .next (popCmd (pact s1 (some n) (qpPkg n) h) n) ∧
    (act = 1 → (qpAt s n).admin = true → hPid h ≠ 0 → partAt s1 (hPid h) = none → hKill h = false →
      ∀ x, shapeOf (qpPkg n) (hLo h) (hHi h) (hMask h) = some x → breaksWrap s1 x = false →
      (∀ sl ∈ x.slabs, inAction s1 sl = false ∧ slabTaken s1 sl = false) → hNqp h ≤ (freePairs s1 (qpPkg n)).length →
      ∃ p a, partAt (pact s1 (some n) (qpPkg n) h) (hPid h) = some p ∧ p.action = some a ∧ a.act = 1 ∧ a.slabs = x.slabs ∧ a.qp = some n)
/-- What a core reset leaves (R31): the slab's cores and clusters as after power-on, its engine queues empty, the registrations of its cores
and the marks of its entries gone, versions and memory as they were; then each launch that had a task or crew there ends with status 10,
and the supervisor starts anew (log 18). -/
def CoreResetEffect : Prop :=
  ∀ (s : State) (sl : SlabId),
    let u := clearCores s sl
    (∀ c, coreAt u c = if coreSlab c = sl then {} else coreAt s c) ∧
    (∀ c, clusterAt u c = if clusterSlab c = sl then {} else clusterAt s c) ∧
    slabAt u sl = { slabAt s sl with queues := [], armed := [], fired := [] } ∧
    (∀ x, x ≠ sl → slabAt u x = slabAt s x) ∧ u.mem = s.mem ∧ u.memTags = s.memTags ∧ u.parts = s.parts ∧
    (∀ k l, lkp s.l2 k = some l → ∃ l', lkp u.l2 k = some l' ∧ l'.ver = l.ver ∧ l'.home = l.home ∧
      (∀ r, r ∈ l'.recs ↔ r ∈ l.recs ∧ ¬ (r.die = sl.die ∧ slabOfClus r.clus = sl.slab ∧ savedAway s k.pid r.task = false)) ∧
      (∀ m, m ∈ l'.marks ↔ m ∈ l.marks ∧ queueInSlab sl m.q = false)) ∧
    ∃ ends : List (BitVec 32), ends.Nodup ∧
      (∀ n, n ∈ ends ↔ n ≠ 0 ∧ ((∃ c t, c ∈ coresOfSlab sl ∧ (coreAt s c).task = some t ∧ t.crew.lseq = n) ∨
        (∃ c ∈ clustersOfSlab sl, ∃ cr ∈ (clusterAt s c).crews, cr.info.lseq = n))) ∧
      let pid := (slabAt s sl).pid
      let lifted := (fencedCores s sl).map (fun i => (0, i)) ++ (fencedClusters s sl).map fun i => (1, i)
      let v := ends.foldl (fun acc n => abortLaunch acc pid n 10) (logUnits u sl 4 lifted)
      coreReset s sl = if pid ≠ 0 ∧ (dieAt v sl.die).live = true then startSup v pid sl else v
/-- What the scrub of R32 leaves of a slab: its HBM reads 0 without tags, no line of it is resident, its registers are those after reset, and
its half of the die's barriers and stream records is gone. That SYS.PRIO and SYS.OTBASE stay is the model's choice (log 18). -/
def ScrubEffect : Prop :=
  ∀ (s : State) (sl : SlabId),
    let t := scrubSlab s sl
    let b := slabAt s sl
    let c := slabAt t sl
    (∀ a, inSlabHbm sl a = true → memByte t.mem a = 0) ∧ (∀ g ∈ t.memTags, inSlabHbm sl (32 * g) = false) ∧
    (∀ kl ∈ t.l2, kl.2.home ≠ sl) ∧
    c.pid = b.pid ∧ c.otbase = b.otbase ∧ c.prio = b.prio ∧ c.prioNow = b.prio ∧ c.fence = b.fence ∧ c.drain = 20000 ∧ c.wdog = 0x4000 ∧
    c.fq = 0 ∧ c.flog = 0 ∧ c.save = 0 ∧ c.images = [] ∧ c.pending = [] ∧ c.lode = [] ∧ c.queues = [] ∧ c.shcache = [] ∧
    c.fencedSlices = [] ∧ c.fencedChans = [] ∧ (∀ k : Nat, k < 3 → c.buckets.getD k 0 = bitsN b.prio (20 * k + 10) 10) ∧
    (∀ x ∈ (dieAt t sl.die).barriers, x.1 / 32 ≠ sl.slab) ∧ (∀ x ∈ (dieAt t sl.die).recs, x.1 / 32 ≠ sl.slab)

end Sys2Proof.Claims

open Sys2Proof.Claims in
/-- R33 with R27, R31, R32, R34 and R35; R358, R372 and R373, for requests of the management port and of a queue pair. That a core reset acts at once
whatever its KILL bit is the model's choice (log 18), and that a mask of 0 names every slab of the partition (log 24). -/
def Obligations.PartitionActions : Prop :=
  PactRefusals ∧ PactOnPair ∧ CoreResetEffect ∧ ScrubEffect ∧
  (∀ (s : State) (pkg : DieId) (h : BitVec 256), (pkgAt s pkg).session = true → (pkgAt s pkg).fwstate = 0 → cmdOk h = true →
    bitsN h 248 8 = 5 →
    let pid : BitVec 32 := h.extractLsb' 171 32
    let kill := h.getLsbD 203
    let begun := fun (t : State) (p : Part) (a : Action) => setPart t pid { p with action := some a }
    (bitsN h 204 4 = 1 → pid ≠ 0 → partAt s pid = none → ∀ x, shapeOf pkg (hLo h) (hHi h) (hMask h) = some x → breaksWrap s x = false →
      (∀ sl ∈ x.slabs, inAction s sl = false ∧ slabTaken s sl = false) → hNqp h ≤ (freePairs s pkg).length → kill = false →
      ∃ t p a, exec (.pactCreate none pkg h) s = .next t ∧ partAt t pid = some p ∧ p.action = some a ∧ a.act = 1 ∧ a.step = 1 ∧
        a.slabs = x.slabs ∧ a.newSlabs = x.slabs ∧ p.slabs = [] ∧ p.launches = [] ∧ p.shape = x.shape ∧
        ∀ j ∈ (freePairs s pkg).take (hNqp h), (lkpD (pkgAt t pkg).qps j {}).pid = pid) ∧
    (∀ p, pid ≠ 0 → partAt s pid = some p → p.action = none →
      (bitsN h 204 4 = 2 → ∀ x, shapeOf pkg (hLo h) (hHi h) (hMask h) = some x → breaksWrap s x = false →
        (∀ sl ∈ p.slabs ++ x.slabs, inAction s sl = false) → (∀ sl ∈ x.slabs, sl ∉ p.slabs → slabTaken s sl = false) →
        homed s pid (p.slabs.filter fun sl => !x.slabs.contains sl) = false → kill = false →
        ∃ a, exec (.pactResize none pkg h) s = .next (begun s p a) ∧ a.act = 2 ∧ a.step = 1 ∧ a.newSlabs = x.slabs ∧
          ∀ sl, sl ∈ a.slabs ↔ (sl ∈ p.slabs ∧ sl ∉ x.slabs) ∨ (sl ∈ x.slabs ∧ sl ∉ p.slabs)) ∧
      (∀ i act, (i, act) ∈ [(Instr.pactUncoreReset none pkg h, 4), (.pactDestroy none pkg h, 5)] → bitsN h 204 4 = act →
        ∃ a, a.act = act ∧ a.step = 1 ∧ a.slabs = p.slabs ∧ a.newSlabs = p.slabs ∧
          exec i s = .next (if kill then killAll (begun s p a) pid else begun s p a)) ∧
      (bitsN h 204 4 = 3 →
        let l := if bitsN h 121 16 = 0 then p.slabs else maskSlabs pkg (bitsN h 121 16)
        (∀ sl ∈ l, inAction s sl = false ∧ sl ∈ p.slabs) → exec (.pactCoreReset none pkg h) s = .next
          (modPkg (l.foldl coreReset s) pkg fun k => { k with answers := k.answers ++ [.pact 0 (h.extractLsb' 208 32)] })))) ∧
  (∀ (s : State) (pid : BitVec 32) (p : Part) (a : Action), partAt s pid = some p → p.action = some a →
    (a.step = 1 → p.launches = [] → ∃ t, exec (.partitionDrainDone pid) s = .next t ∧
      partAt t pid = some { p with action := some { a with step := 2 } } ∧ ∀ sl ∈ a.slabs, (slabAt t sl).fence = true) ∧
    (a.step = 1 → p.launches ≠ [] → exec (.partitionDrainDone pid) s = .next s) ∧
    (a.step = 2 → ∀ r, s.agenda = .partStep pid :: r →
      step s = .next (settled (setPart { s with agenda := r } pid { p with action := some { a with step := 3 } }))) ∧
    (a.step = 3 → ∀ secret,
      let scrubbed := a.slabs.foldl (fun acc sl => scrubSlab (clearCores acc sl) sl) s
      ∃ p1, exec (.scrubComplete pid secret) s = .next (setPart scrubbed pid p1) ∧ p1.secret = secret ∧
        p1.action = some { a with step := 4 } ∧ (a.act = 1 → p1.epoch = 1) ∧
        (a.act ≠ 1 → p1.epoch = if p.epoch = 63 then 1 else p.epoch + 1) ∧ p1.launches = p.launches ∧ p1.slabs = p.slabs) ∧
    (a.step = 4 → ∀ r, s.agenda = .partStep pid :: r →
      let s0 := { s with agenda := r }
      (a.act = 5 → ∃ t, step s = .next (settled t) ∧ t.parts = del s.parts pid ∧
        (pid ≠ 0 → ∀ k ∈ t.pkgs, (∀ q ∈ k.2.qps, q.2.pid ≠ pid) ∧ ∀ r ∈ k.2.regions, r.pid ≠ pid)) ∧
      (a.act ≠ 5 →
        (a.qp = none → step s = .next (settled (modPkg (reassign s0 pid p a) a.pkg fun k => { k with answers := k.answers ++ [.pact 0 a.ctag] }))) ∧
        (∀ n, a.qp = some n → step s = .next (settled (postCq (reassign s0 pid p a) n (completion 5 0 a.ctag 0 0 0)))))))

open Sys2Proof.Claims in
/-- R365 to R368, R363, R333, R370, R371, R374 to R376. The model's own: the 50 MHz rise of POWER_CAP_TICK (log 20); the inputs of a
boot, the turn in which a boot goes on, and a delivery's transfer (log 97, log 109); the value of a report (log 98); that unit 3 index 32 is the
expander and fences both slabs (log 28); that a trip counts and empties the queues (log 29); identities (log 100). -/
def Obligations.FirmwareErrorsAndPower : Prop :=
  (∀ (s : State) (pkg : DieId) (k : Pkg), pkgAt s pkg = k →
    let dead := fun (t : State) => ∀ j : Nat, j < 8 → (dieAt t (dieOfPkg pkg j)).live = false
    -- the dies that authenticate with the controller, whose certificates chain to the fused root (R369, R371)
    let alive := fun (t : State) (fails : BitVec 8) => ∀ j : Nat, j < 8 →
      (dieAt t (dieOfPkg pkg j)).live = (certOk k k.root j && certOk k k.root 8 && !fails.getLsbD j)
    -- steps 5 to 7 of R363
    let booted := fun (t : State) (fails : BitVec 8) =>
      (pkgAt t pkg).fwstate = 0 ∧ (pkgAt t pkg).booting = false ∧ (pkgAt t pkg).cxlOff = k.boot.cxlFail ∧ alive t fails
    -- the links train until a later turn
    let trains := fun (t : State) => (pkgAt t pkg).fwstate = 1 ∧ (pkgAt t pkg).booting = true ∧ dead t
    (k.session = true → ∀ img,
      let written : Pkg := { k with staging := .image img, transfer := none }
      let committed : Pkg := { k with active := .image img, staging := k.active, selector := !k.selector, transfer := none }
      (k.transfer = none ∨ k.transfer = some img →
        (imageOk k img = false → exec (.firmwareDelivery pkg img) s = .next (setPkg s pkg written)) ∧
        (imageOk k img = true → k.fwstate = 0 ∨ k.booting = true → exec (.firmwareDelivery pkg img) s = .next (setPkg s pkg committed)) ∧
        -- a package that recovers, or waits for redelivery, resets itself
        (imageOk k img = true → k.fwstate ≠ 0 → k.booting = false → exec (.firmwareDelivery pkg img) s =
          exec (.packageReset pkg k.boot.wrap k.boot.dieFail) (setPkg s pkg committed))) ∧
      (∀ other, k.transfer = some other → other ≠ img →
        exec (.firmwareDelivery pkg img) s = .next (setPkg s pkg { k with answers := k.answers ++ [.busy] })) ∧
      (∀ r, s.agenda = .transfer pkg img :: r → k.transfer = none →
        step s = .next (settled (setPkg { s with agenda := r } pkg { k with transfer := some img, staging := .empty })))) ∧
    (k.session = false → ∀ img, exec (.firmwareDelivery pkg img) s = .next s) ∧
    (∀ svn,
      (k.session = true → k.fwstate ≠ 2 → svn = k.svn → k.svnFloor < svn.toNat → svn.toNat ≤ 63 →
        exec (.svnFloorRaise pkg svn) s = .next (setPkg s pkg { k with svnFloor := svn.toNat })) ∧
      (k.session = false ∨ k.fwstate = 2 ∨ svn ≠ k.svn ∨ svn.toNat ≤ k.svnFloor ∨ 63 < svn.toNat →
        exec (.svnFloorRaise pkg svn) s = .next s)) ∧
    -- the outcome of the links and of the expanders at the next boot
    (∀ r lf cf pf w, s.agenda = .training pkg lf cf pf w :: r → step s = .next (settled (setPkg { s with agenda := r } pkg
      { k with boot := { k.boot with linkFail := lf, cxlFail := cf, pmcFail := pf, pause := w } }))) ∧
    (∀ w dieFail, ∃ t, exec (.packageReset pkg w dieFail) s = .next t ∧
      (pkgAt t pkg).wrap = w ∧ (pkgAt t pkg).mhz = 1200 ∧ (pkgAt t pkg).session = false ∧ (pkgAt t pkg).regions = [] ∧
      (pkgAt t pkg).resetAt = s.ck ∧ (pkgAt t pkg).svnFloor = k.svnFloor ∧ (pkgAt t pkg).tripped = false ∧ (pkgAt t pkg).transfer = none ∧
      (copyOk k k.active = true → (k.boot.pause = false → booted t dieFail) ∧ (k.boot.pause = true → trains t)) ∧
      (copyOk k k.active = false → (pkgAt t pkg).fwstate = 1 ∧ (pkgAt t pkg).booting = false ∧ dead t)) ∧
    -- links that have trained end the boot (R363); a recovering package verifies its other copy (R368)
    (∀ r, s.agenda = .boot pkg :: r → k.fwstate = 1 →
      (k.booting = true → ∃ t, step s = .next (settled t) ∧ booted t k.boot.dieFail) ∧
      (k.booting = false → copyOk k k.staging = true → ∃ t, step s = .next (settled t) ∧ (pkgAt t pkg).active = k.staging ∧
        (pkgAt t pkg).staging = k.active ∧ (pkgAt t pkg).selector = !k.selector ∧
        (k.boot.pause = false → booted t k.boot.dieFail) ∧ (k.boot.pause = true → trains t)) ∧
      (k.booting = false → copyOk k k.staging = false → step s = .next (settled (setPkg { s with agenda := r } pkg { k with fwstate := 2 })))) ∧
    (∀ watts, (k.session = true → k.fwstate ≠ 2 → 2000 ≤ watts → watts ≤ 4600 →
        exec (.powerCap pkg watts) s = .next (setPkg s pkg { k with cap := watts })) ∧
      (k.session = false ∨ k.fwstate = 2 ∨ watts < 2000 ∨ 4600 < watts → exec (.powerCap pkg watts) s = .next s)) ∧
    (∀ drawn, ∃ t, exec (.powerCapTick pkg drawn) s = .next t ∧ (pkgAt t pkg).drawn = drawn ∧
      (k.cap < drawn → (pkgAt t pkg).ownMhz = max 600 (k.ownMhz - 50)) ∧
      (drawn ≤ k.cap → k.celsius ≤ 105 → (pkgAt t pkg).ownMhz = min 1200 (k.ownMhz + 50)) ∧
      (drawn ≤ k.cap → 105 < k.celsius → (pkgAt t pkg).ownMhz = k.ownMhz) ∧ (pkgAt t pkg).mhz ≤ (pkgAt t pkg).ownMhz ∧
      ∀ o ∈ k.others, sharePart s pkg o.1 = true → (pkgAt t pkg).mhz ≤ o.2) ∧
    (∀ other mhz,
      -- neighbours report over the session of their controllers (R369)
      let speaks := linksTo s pkg other = [] ∨ pmcSession s pkg other = true
      (sharePart s pkg other = true → mhz = clockFor s other → speaks → ∃ t, exec (.clockReport pkg other mhz) s = .next t ∧
        lkp (pkgAt t pkg).others other = some mhz ∧ (pkgAt t pkg).mhz ≤ mhz) ∧
      (sharePart s pkg other = false ∨ mhz ≠ clockFor s other ∨ ¬ speaks → exec (.clockReport pkg other mhz) s = .next s)) ∧
    -- the lowest clock that a package needs among those linked to it by shared partitions
    ((∀ x ∈ pkg :: chainOf s pkg, clockFor s pkg ≤ (pkgAt s x).ownMhz) ∧ (∃ x ∈ pkg :: chainOf s pkg, clockFor s pkg = (pkgAt s x).ownMhz) ∧
      ∀ x, sharePart s pkg x = true → x ∈ chainOf s pkg) ∧
    (∀ c low, (115 < c ∨ low = true → ∃ t, exec (.thermalTrip pkg c low) s = .next t ∧ (pkgAt t pkg).tripped = true ∧
        (pkgAt t pkg).trips = k.trips + 1 ∧ dead t ∧ ∀ sl ∈ pkgSlabs pkg, (slabAt t sl).fence = true ∧ (slabAt t sl).queues = []) ∧
      (105 < c → c ≤ 115 → low = false → ∃ t, exec (.thermalTrip pkg c low) s = .next t ∧
        (pkgAt t pkg).ownMhz = max 600 (k.ownMhz - 50)) ∧
      (c ≤ 105 → low = false → exec (.thermalTrip pkg c low) s = .next (setPkg s pkg { k with celsius := c })))) ∧
  (∀ (s : State) (die : DieId) (unit index : Nat),
    (∃ t, exec (.correctedError die unit index) s = .next t ∧
      lkpD (dieAt t die).corrected (unit, index) 0 = lkpD (dieAt s die).corrected (unit, index) 0 + 1) ∧
    ∃ t, exec (.uncorrectableError die unit index) s = .next t ∧
      (unit = 0 → ∀ j, logicalCluster (index / 4) = some j → (coreAt t ⟨die, 4 * j + index % 4⟩).fenced = true ∧
        (coreAt t ⟨die, 4 * j + index % 4⟩).task = none) ∧
      (unit = 1 → ∀ j, logicalCluster index = some j → (clusterAt t ⟨die, j⟩).fenced = true) ∧
      (unit = 2 → index < 160 → index % 80 ∈ (slabAt t ⟨die, index / 80⟩).fencedSlices) ∧
      -- a channel of a slab's HBM by its physical index, or the die's expander where it has one (R24, R359)
      (unit = 3 → index < 32 → index % 16 ^^^ chxOf (Config.posOf (ldie die)) ∈ (slabAt t ⟨die, index / 16⟩).fencedChans) ∧
      (unit = 3 → index = 32 → hasExpander s die = true → 16 ∈ (slabAt t ⟨die, 0⟩).fencedChans ∧ 16 ∈ (slabAt t ⟨die, 1⟩).fencedChans) ∧
      (unit = 4 → ∀ port, (portsOf (Config.posOf (ldie die))).findIdx? (· == index) = some port → port ∈ (dieAt t die).fencedPorts) ∧
      (unit = 5 → (dieAt t die).fencedRouter = true))
end

