-- ==== Sys2Proof/Laws/Codes.lean ====
section
/-! SUPPORT. The eight formats (R157 to R165): a word holds its major and gives back its fields, and a word is the word of
its major and fields. -/

namespace Sys2Proof

theorem extract_append_hi {m n : Nat} (a : BitVec m) (b : BitVec n) (k w : Nat) (h : n ≤ k) :
    (a ++ b).extractLsb' k w = a.extractLsb' (k - n) w := by
  ext i hi
  have : ¬ k + i < n := by omega
  simp [BitVec.getLsbD_append, this, show k + i - n = k - n + i by omega]
theorem extract_append_lo {m n : Nat} (a : BitVec m) (b : BitVec n) (k w : Nat) (h : k + w ≤ n) :
    (a ++ b).extractLsb' k w = b.extractLsb' k w := by
  ext i hi
  simp [BitVec.getLsbD_append, show k + i < n by omega]
theorem extract_all {n : Nat} (a : BitVec n) : a.extractLsb' 0 n = a := by
  ext i hi; simp
theorem append_extract (w : W64) (k m n : Nat) :
    w.extractLsb' (k + n) m ++ w.extractLsb' k n = w.extractLsb' k (m + n) := by
  ext i hi
  simp only [BitVec.getElem_append, BitVec.getElem_extractLsb']
  split
  · rfl
  · congr 1; omega

theorem FmtR.major_toWord (m : BitVec 8) (f : FmtR) : (f.toWord m).extractLsb' 56 8 = m :=
  (extract_append_hi (m := 8) (n := 56) _ _ 56 8 (by omega)).trans <| extract_all _
theorem FmtR.ofWord_toWord (m : BitVec 8) (f : FmtR) : FmtR.ofWord (f.toWord m) = f := by
  cases f
  simp only [FmtR.ofWord, FmtR.mk.injEq]
  exact ⟨(extract_append_lo (m := 8) (n := 56) _ _ 50 6 (by omega)).trans <| (extract_append_hi (m := 6) (n := 50) _ _ 50 6 (by omega)).trans <| extract_all _,
    (extract_append_lo (m := 8) (n := 56) _ _ 44 6 (by omega)).trans <| (extract_append_lo (m := 6) (n := 50) _ _ 44 6 (by omega)).trans <| (extract_append_hi (m := 6) (n := 44) _ _ 44 6 (by omega)).trans <| extract_all _,
    (extract_append_lo (m := 8) (n := 56) _ _ 38 6 (by omega)).trans <| (extract_append_lo (m := 6) (n := 50) _ _ 38 6 (by omega)).trans <| (extract_append_lo (m := 6) (n := 44) _ _ 38 6 (by omega)).trans <| (extract_append_hi (m := 6) (n := 38) _ _ 38 6 (by omega)).trans <| extract_all _,
    (extract_append_lo (m := 8) (n := 56) _ _ 32 6 (by omega)).trans <| (extract_append_lo (m := 6) (n := 50) _ _ 32 6 (by omega)).trans <| (extract_append_lo (m := 6) (n := 44) _ _ 32 6 (by omega)).trans <| (extract_append_lo (m := 6) (n := 38) _ _ 32 6 (by omega)).trans <| (extract_append_hi (m := 6) (n := 32) _ _ 32 6 (by omega)).trans <| extract_all _,
    (extract_append_lo (m := 8) (n := 56) _ _ 24 8 (by omega)).trans <| (extract_append_lo (m := 6) (n := 50) _ _ 24 8 (by omega)).trans <| (extract_append_lo (m := 6) (n := 44) _ _ 24 8 (by omega)).trans <| (extract_append_lo (m := 6) (n := 38) _ _ 24 8 (by omega)).trans <| (extract_append_lo (m := 6) (n := 32) _ _ 24 8 (by omega)).trans <| (extract_append_hi (m := 8) (n := 24) _ _ 24 8 (by omega)).trans <| extract_all _,
    (extract_append_lo (m := 8) (n := 56) _ _ 20 4 (by omega)).trans <| (extract_append_lo (m := 6) (n := 50) _ _ 20 4 (by omega)).trans <| (extract_append_lo (m := 6) (n := 44) _ _ 20 4 (by omega)).trans <| (extract_append_lo (m := 6) (n := 38) _ _ 20 4 (by omega)).trans <| (extract_append_lo (m := 6) (n := 32) _ _ 20 4 (by omega)).trans <| (extract_append_lo (m := 8) (n := 24) _ _ 20 4 (by omega)).trans <| (extract_append_hi (m := 4) (n := 20) _ _ 20 4 (by omega)).trans <| extract_all _,
    (extract_append_lo (m := 8) (n := 56) _ _ 0 20 (by omega)).trans <| (extract_append_lo (m := 6) (n := 50) _ _ 0 20 (by omega)).trans <| (extract_append_lo (m := 6) (n := 44) _ _ 0 20 (by omega)).trans <| (extract_append_lo (m := 6) (n := 38) _ _ 0 20 (by omega)).trans <| (extract_append_lo (m := 6) (n := 32) _ _ 0 20 (by omega)).trans <| (extract_append_lo (m := 8) (n := 24) _ _ 0 20 (by omega)).trans <| (extract_append_lo (m := 4) (n := 20) _ _ 0 20 (by omega)).trans <| extract_all _⟩
theorem FmtR.toWord_ofWord (w : W64) : (FmtR.ofWord w).toWord (w.extractLsb' 56 8) = w := by
  simp only [FmtR.toWord, FmtR.ofWord]
  rw [append_extract w 0 4 20, append_extract w 0 8 24, append_extract w 0 6 32, append_extract w 0 6 38, append_extract w 0 6 44, append_extract w 0 6 50, append_extract w 0 8 56]
  exact extract_all w

theorem FmtI.major_toWord (m : BitVec 8) (f : FmtI) : (f.toWord m).extractLsb' 56 8 = m :=
  (extract_append_hi (m := 8) (n := 56) _ _ 56 8 (by omega)).trans <| extract_all _
theorem FmtI.ofWord_toWord (m : BitVec 8) (f : FmtI) : FmtI.ofWord (f.toWord m) = f := by
  cases f
  simp only [FmtI.ofWord, FmtI.mk.injEq]
  exact ⟨(extract_append_lo (m := 8) (n := 56) _ _ 50 6 (by omega)).trans <| (extract_append_hi (m := 6) (n := 50) _ _ 50 6 (by omega)).trans <| extract_all _,
    (extract_append_lo (m := 8) (n := 56) _ _ 44 6 (by omega)).trans <| (extract_append_lo (m := 6) (n := 50) _ _ 44 6 (by omega)).trans <| (extract_append_hi (m := 6) (n := 44) _ _ 44 6 (by omega)).trans <| extract_all _,
    (extract_append_lo (m := 8) (n := 56) _ _ 40 4 (by omega)).trans <| (extract_append_lo (m := 6) (n := 50) _ _ 40 4 (by omega)).trans <| (extract_append_lo (m := 6) (n := 44) _ _ 40 4 (by omega)).trans <| (extract_append_hi (m := 4) (n := 40) _ _ 40 4 (by omega)).trans <| extract_all _,
    (extract_append_lo (m := 8) (n := 56) _ _ 32 8 (by omega)).trans <| (extract_append_lo (m := 6) (n := 50) _ _ 32 8 (by omega)).trans <| (extract_append_lo (m := 6) (n := 44) _ _ 32 8 (by omega)).trans <| (extract_append_lo (m := 4) (n := 40) _ _ 32 8 (by omega)).trans <| (extract_append_hi (m := 8) (n := 32) _ _ 32 8 (by omega)).trans <| extract_all _,
    (extract_append_lo (m := 8) (n := 56) _ _ 0 32 (by omega)).trans <| (extract_append_lo (m := 6) (n := 50) _ _ 0 32 (by omega)).trans <| (extract_append_lo (m := 6) (n := 44) _ _ 0 32 (by omega)).trans <| (extract_append_lo (m := 4) (n := 40) _ _ 0 32 (by omega)).trans <| (extract_append_lo (m := 8) (n := 32) _ _ 0 32 (by omega)).trans <| extract_all _⟩
theorem FmtI.toWord_ofWord (w : W64) : (FmtI.ofWord w).toWord (w.extractLsb' 56 8) = w := by
  simp only [FmtI.toWord, FmtI.ofWord]
  rw [append_extract w 0 8 32, append_extract w 0 4 40, append_extract w 0 6 44, append_extract w 0 6 50, append_extract w 0 8 56]
  exact extract_all w

theorem FmtB.major_toWord (m : BitVec 8) (f : FmtB) : (f.toWord m).extractLsb' 56 8 = m :=
  (extract_append_hi (m := 8) (n := 56) _ _ 56 8 (by omega)).trans <| extract_all _
theorem FmtB.ofWord_toWord (m : BitVec 8) (f : FmtB) : FmtB.ofWord (f.toWord m) = f := by
  cases f
  simp only [FmtB.ofWord, FmtB.mk.injEq]
  exact ⟨(extract_append_lo (m := 8) (n := 56) _ _ 50 6 (by omega)).trans <| (extract_append_hi (m := 6) (n := 50) _ _ 50 6 (by omega)).trans <| extract_all _,
    (extract_append_lo (m := 8) (n := 56) _ _ 44 6 (by omega)).trans <| (extract_append_lo (m := 6) (n := 50) _ _ 44 6 (by omega)).trans <| (extract_append_hi (m := 6) (n := 44) _ _ 44 6 (by omega)).trans <| extract_all _,
    (extract_append_lo (m := 8) (n := 56) _ _ 38 6 (by omega)).trans <| (extract_append_lo (m := 6) (n := 50) _ _ 38 6 (by omega)).trans <| (extract_append_lo (m := 6) (n := 44) _ _ 38 6 (by omega)).trans <| (extract_append_hi (m := 6) (n := 38) _ _ 38 6 (by omega)).trans <| extract_all _,
    (extract_append_lo (m := 8) (n := 56) _ _ 34 4 (by omega)).trans <| (extract_append_lo (m := 6) (n := 50) _ _ 34 4 (by omega)).trans <| (extract_append_lo (m := 6) (n := 44) _ _ 34 4 (by omega)).trans <| (extract_append_lo (m := 6) (n := 38) _ _ 34 4 (by omega)).trans <| (extract_append_hi (m := 4) (n := 34) _ _ 34 4 (by omega)).trans <| extract_all _,
    (extract_append_lo (m := 8) (n := 56) _ _ 32 2 (by omega)).trans <| (extract_append_lo (m := 6) (n := 50) _ _ 32 2 (by omega)).trans <| (extract_append_lo (m := 6) (n := 44) _ _ 32 2 (by omega)).trans <| (extract_append_lo (m := 6) (n := 38) _ _ 32 2 (by omega)).trans <| (extract_append_lo (m := 4) (n := 34) _ _ 32 2 (by omega)).trans <| (extract_append_hi (m := 2) (n := 32) _ _ 32 2 (by omega)).trans <| extract_all _,
    (extract_append_lo (m := 8) (n := 56) _ _ 0 32 (by omega)).trans <| (extract_append_lo (m := 6) (n := 50) _ _ 0 32 (by omega)).trans <| (extract_append_lo (m := 6) (n := 44) _ _ 0 32 (by omega)).trans <| (extract_append_lo (m := 6) (n := 38) _ _ 0 32 (by omega)).trans <| (extract_append_lo (m := 4) (n := 34) _ _ 0 32 (by omega)).trans <| (extract_append_lo (m := 2) (n := 32) _ _ 0 32 (by omega)).trans <| extract_all _⟩
theorem FmtB.toWord_ofWord (w : W64) : (FmtB.ofWord w).toWord (w.extractLsb' 56 8) = w := by
  simp only [FmtB.toWord, FmtB.ofWord]
  rw [append_extract w 0 2 32, append_extract w 0 4 34, append_extract w 0 6 38, append_extract w 0 6 44, append_extract w 0 6 50, append_extract w 0 8 56]
  exact extract_all w

theorem FmtM.major_toWord (m : BitVec 8) (f : FmtM) : (f.toWord m).extractLsb' 56 8 = m :=
  (extract_append_hi (m := 8) (n := 56) _ _ 56 8 (by omega)).trans <| extract_all _
theorem FmtM.ofWord_toWord (m : BitVec 8) (f : FmtM) : FmtM.ofWord (f.toWord m) = f := by
  cases f
  simp only [FmtM.ofWord, FmtM.mk.injEq]
  exact ⟨(extract_append_lo (m := 8) (n := 56) _ _ 50 6 (by omega)).trans <| (extract_append_hi (m := 6) (n := 50) _ _ 50 6 (by omega)).trans <| extract_all _,
    (extract_append_lo (m := 8) (n := 56) _ _ 44 6 (by omega)).trans <| (extract_append_lo (m := 6) (n := 50) _ _ 44 6 (by omega)).trans <| (extract_append_hi (m := 6) (n := 44) _ _ 44 6 (by omega)).trans <| extract_all _,
    (extract_append_lo (m := 8) (n := 56) _ _ 38 6 (by omega)).trans <| (extract_append_lo (m := 6) (n := 50) _ _ 38 6 (by omega)).trans <| (extract_append_lo (m := 6) (n := 44) _ _ 38 6 (by omega)).trans <| (extract_append_hi (m := 6) (n := 38) _ _ 38 6 (by omega)).trans <| extract_all _,
    (extract_append_lo (m := 8) (n := 56) _ _ 34 4 (by omega)).trans <| (extract_append_lo (m := 6) (n := 50) _ _ 34 4 (by omega)).trans <| (extract_append_lo (m := 6) (n := 44) _ _ 34 4 (by omega)).trans <| (extract_append_lo (m := 6) (n := 38) _ _ 34 4 (by omega)).trans <| (extract_append_hi (m := 4) (n := 34) _ _ 34 4 (by omega)).trans <| extract_all _,
    (extract_append_lo (m := 8) (n := 56) _ _ 32 2 (by omega)).trans <| (extract_append_lo (m := 6) (n := 50) _ _ 32 2 (by omega)).trans <| (extract_append_lo (m := 6) (n := 44) _ _ 32 2 (by omega)).trans <| (extract_append_lo (m := 6) (n := 38) _ _ 32 2 (by omega)).trans <| (extract_append_lo (m := 4) (n := 34) _ _ 32 2 (by omega)).trans <| (extract_append_hi (m := 2) (n := 32) _ _ 32 2 (by omega)).trans <| extract_all _,
    (extract_append_lo (m := 8) (n := 56) _ _ 29 3 (by omega)).trans <| (extract_append_lo (m := 6) (n := 50) _ _ 29 3 (by omega)).trans <| (extract_append_lo (m := 6) (n := 44) _ _ 29 3 (by omega)).trans <| (extract_append_lo (m := 6) (n := 38) _ _ 29 3 (by omega)).trans <| (extract_append_lo (m := 4) (n := 34) _ _ 29 3 (by omega)).trans <| (extract_append_lo (m := 2) (n := 32) _ _ 29 3 (by omega)).trans <| (extract_append_hi (m := 3) (n := 29) _ _ 29 3 (by omega)).trans <| extract_all _,
    (extract_append_lo (m := 8) (n := 56) _ _ 24 5 (by omega)).trans <| (extract_append_lo (m := 6) (n := 50) _ _ 24 5 (by omega)).trans <| (extract_append_lo (m := 6) (n := 44) _ _ 24 5 (by omega)).trans <| (extract_append_lo (m := 6) (n := 38) _ _ 24 5 (by omega)).trans <| (extract_append_lo (m := 4) (n := 34) _ _ 24 5 (by omega)).trans <| (extract_append_lo (m := 2) (n := 32) _ _ 24 5 (by omega)).trans <| (extract_append_lo (m := 3) (n := 29) _ _ 24 5 (by omega)).trans <| (extract_append_hi (m := 5) (n := 24) _ _ 24 5 (by omega)).trans <| extract_all _,
    (extract_append_lo (m := 8) (n := 56) _ _ 0 24 (by omega)).trans <| (extract_append_lo (m := 6) (n := 50) _ _ 0 24 (by omega)).trans <| (extract_append_lo (m := 6) (n := 44) _ _ 0 24 (by omega)).trans <| (extract_append_lo (m := 6) (n := 38) _ _ 0 24 (by omega)).trans <| (extract_append_lo (m := 4) (n := 34) _ _ 0 24 (by omega)).trans <| (extract_append_lo (m := 2) (n := 32) _ _ 0 24 (by omega)).trans <| (extract_append_lo (m := 3) (n := 29) _ _ 0 24 (by omega)).trans <| (extract_append_lo (m := 5) (n := 24) _ _ 0 24 (by omega)).trans <| extract_all _⟩
theorem FmtM.toWord_ofWord (w : W64) : (FmtM.ofWord w).toWord (w.extractLsb' 56 8) = w := by
  simp only [FmtM.toWord, FmtM.ofWord]
  rw [append_extract w 0 5 24, append_extract w 0 3 29, append_extract w 0 2 32, append_extract w 0 4 34, append_extract w 0 6 38, append_extract w 0 6 44, append_extract w 0 6 50, append_extract w 0 8 56]
  exact extract_all w

theorem FmtV.major_toWord (m : BitVec 8) (f : FmtV) : (f.toWord m).extractLsb' 56 8 = m :=
  (extract_append_hi (m := 8) (n := 56) _ _ 56 8 (by omega)).trans <| extract_all _
theorem FmtV.ofWord_toWord (m : BitVec 8) (f : FmtV) : FmtV.ofWord (f.toWord m) = f := by
  cases f
  simp only [FmtV.ofWord, FmtV.mk.injEq]
  exact ⟨(extract_append_lo (m := 8) (n := 56) _ _ 50 6 (by omega)).trans <| (extract_append_hi (m := 6) (n := 50) _ _ 50 6 (by omega)).trans <| extract_all _,
    (extract_append_lo (m := 8) (n := 56) _ _ 44 6 (by omega)).trans <| (extract_append_lo (m := 6) (n := 50) _ _ 44 6 (by omega)).trans <| (extract_append_hi (m := 6) (n := 44) _ _ 44 6 (by omega)).trans <| extract_all _,
    (extract_append_lo (m := 8) (n := 56) _ _ 38 6 (by omega)).trans <| (extract_append_lo (m := 6) (n := 50) _ _ 38 6 (by omega)).trans <| (extract_append_lo (m := 6) (n := 44) _ _ 38 6 (by omega)).trans <| (extract_append_hi (m := 6) (n := 38) _ _ 38 6 (by omega)).trans <| extract_all _,
    (extract_append_lo (m := 8) (n := 56) _ _ 32 6 (by omega)).trans <| (extract_append_lo (m := 6) (n := 50) _ _ 32 6 (by omega)).trans <| (extract_append_lo (m := 6) (n := 44) _ _ 32 6 (by omega)).trans <| (extract_append_lo (m := 6) (n := 38) _ _ 32 6 (by omega)).trans <| (extract_append_hi (m := 6) (n := 32) _ _ 32 6 (by omega)).trans <| extract_all _,
    (extract_append_lo (m := 8) (n := 56) _ _ 27 5 (by omega)).trans <| (extract_append_lo (m := 6) (n := 50) _ _ 27 5 (by omega)).trans <| (extract_append_lo (m := 6) (n := 44) _ _ 27 5 (by omega)).trans <| (extract_append_lo (m := 6) (n := 38) _ _ 27 5 (by omega)).trans <| (extract_append_lo (m := 6) (n := 32) _ _ 27 5 (by omega)).trans <| (extract_append_hi (m := 5) (n := 27) _ _ 27 5 (by omega)).trans <| extract_all _,
    (extract_append_lo (m := 8) (n := 56) _ _ 24 3 (by omega)).trans <| (extract_append_lo (m := 6) (n := 50) _ _ 24 3 (by omega)).trans <| (extract_append_lo (m := 6) (n := 44) _ _ 24 3 (by omega)).trans <| (extract_append_lo (m := 6) (n := 38) _ _ 24 3 (by omega)).trans <| (extract_append_lo (m := 6) (n := 32) _ _ 24 3 (by omega)).trans <| (extract_append_lo (m := 5) (n := 27) _ _ 24 3 (by omega)).trans <| (extract_append_hi (m := 3) (n := 24) _ _ 24 3 (by omega)).trans <| extract_all _,
    (extract_append_lo (m := 8) (n := 56) _ _ 20 4 (by omega)).trans <| (extract_append_lo (m := 6) (n := 50) _ _ 20 4 (by omega)).trans <| (extract_append_lo (m := 6) (n := 44) _ _ 20 4 (by omega)).trans <| (extract_append_lo (m := 6) (n := 38) _ _ 20 4 (by omega)).trans <| (extract_append_lo (m := 6) (n := 32) _ _ 20 4 (by omega)).trans <| (extract_append_lo (m := 5) (n := 27) _ _ 20 4 (by omega)).trans <| (extract_append_lo (m := 3) (n := 24) _ _ 20 4 (by omega)).trans <| (extract_append_hi (m := 4) (n := 20) _ _ 20 4 (by omega)).trans <| extract_all _,
    (extract_append_lo (m := 8) (n := 56) _ _ 17 3 (by omega)).trans <| (extract_append_lo (m := 6) (n := 50) _ _ 17 3 (by omega)).trans <| (extract_append_lo (m := 6) (n := 44) _ _ 17 3 (by omega)).trans <| (extract_append_lo (m := 6) (n := 38) _ _ 17 3 (by omega)).trans <| (extract_append_lo (m := 6) (n := 32) _ _ 17 3 (by omega)).trans <| (extract_append_lo (m := 5) (n := 27) _ _ 17 3 (by omega)).trans <| (extract_append_lo (m := 3) (n := 24) _ _ 17 3 (by omega)).trans <| (extract_append_lo (m := 4) (n := 20) _ _ 17 3 (by omega)).trans <| (extract_append_hi (m := 3) (n := 17) _ _ 17 3 (by omega)).trans <| extract_all _,
    (extract_append_lo (m := 8) (n := 56) _ _ 12 5 (by omega)).trans <| (extract_append_lo (m := 6) (n := 50) _ _ 12 5 (by omega)).trans <| (extract_append_lo (m := 6) (n := 44) _ _ 12 5 (by omega)).trans <| (extract_append_lo (m := 6) (n := 38) _ _ 12 5 (by omega)).trans <| (extract_append_lo (m := 6) (n := 32) _ _ 12 5 (by omega)).trans <| (extract_append_lo (m := 5) (n := 27) _ _ 12 5 (by omega)).trans <| (extract_append_lo (m := 3) (n := 24) _ _ 12 5 (by omega)).trans <| (extract_append_lo (m := 4) (n := 20) _ _ 12 5 (by omega)).trans <| (extract_append_lo (m := 3) (n := 17) _ _ 12 5 (by omega)).trans <| (extract_append_hi (m := 5) (n := 12) _ _ 12 5 (by omega)).trans <| extract_all _,
    (extract_append_lo (m := 8) (n := 56) _ _ 0 12 (by omega)).trans <| (extract_append_lo (m := 6) (n := 50) _ _ 0 12 (by omega)).trans <| (extract_append_lo (m := 6) (n := 44) _ _ 0 12 (by omega)).trans <| (extract_append_lo (m := 6) (n := 38) _ _ 0 12 (by omega)).trans <| (extract_append_lo (m := 6) (n := 32) _ _ 0 12 (by omega)).trans <| (extract_append_lo (m := 5) (n := 27) _ _ 0 12 (by omega)).trans <| (extract_append_lo (m := 3) (n := 24) _ _ 0 12 (by omega)).trans <| (extract_append_lo (m := 4) (n := 20) _ _ 0 12 (by omega)).trans <| (extract_append_lo (m := 3) (n := 17) _ _ 0 12 (by omega)).trans <| (extract_append_lo (m := 5) (n := 12) _ _ 0 12 (by omega)).trans <| extract_all _⟩
theorem FmtV.toWord_ofWord (w : W64) : (FmtV.ofWord w).toWord (w.extractLsb' 56 8) = w := by
  simp only [FmtV.toWord, FmtV.ofWord]
  rw [append_extract w 0 5 12, append_extract w 0 3 17, append_extract w 0 4 20, append_extract w 0 3 24, append_extract w 0 5 27, append_extract w 0 6 32, append_extract w 0 6 38, append_extract w 0 6 44, append_extract w 0 6 50, append_extract w 0 8 56]
  exact extract_all w

theorem FmtT.major_toWord (m : BitVec 8) (f : FmtT) : (f.toWord m).extractLsb' 56 8 = m :=
  (extract_append_hi (m := 8) (n := 56) _ _ 56 8 (by omega)).trans <| extract_all _
theorem FmtT.ofWord_toWord (m : BitVec 8) (f : FmtT) : FmtT.ofWord (f.toWord m) = f := by
  cases f
  simp only [FmtT.ofWord, FmtT.mk.injEq]
  exact ⟨(extract_append_lo (m := 8) (n := 56) _ _ 50 6 (by omega)).trans <| (extract_append_hi (m := 6) (n := 50) _ _ 50 6 (by omega)).trans <| extract_all _,
    (extract_append_lo (m := 8) (n := 56) _ _ 44 6 (by omega)).trans <| (extract_append_lo (m := 6) (n := 50) _ _ 44 6 (by omega)).trans <| (extract_append_hi (m := 6) (n := 44) _ _ 44 6 (by omega)).trans <| extract_all _,
    (extract_append_lo (m := 8) (n := 56) _ _ 38 6 (by omega)).trans <| (extract_append_lo (m := 6) (n := 50) _ _ 38 6 (by omega)).trans <| (extract_append_lo (m := 6) (n := 44) _ _ 38 6 (by omega)).trans <| (extract_append_hi (m := 6) (n := 38) _ _ 38 6 (by omega)).trans <| extract_all _,
    (extract_append_lo (m := 8) (n := 56) _ _ 32 6 (by omega)).trans <| (extract_append_lo (m := 6) (n := 50) _ _ 32 6 (by omega)).trans <| (extract_append_lo (m := 6) (n := 44) _ _ 32 6 (by omega)).trans <| (extract_append_lo (m := 6) (n := 38) _ _ 32 6 (by omega)).trans <| (extract_append_hi (m := 6) (n := 32) _ _ 32 6 (by omega)).trans <| extract_all _,
    (extract_append_lo (m := 8) (n := 56) _ _ 27 5 (by omega)).trans <| (extract_append_lo (m := 6) (n := 50) _ _ 27 5 (by omega)).trans <| (extract_append_lo (m := 6) (n := 44) _ _ 27 5 (by omega)).trans <| (extract_append_lo (m := 6) (n := 38) _ _ 27 5 (by omega)).trans <| (extract_append_lo (m := 6) (n := 32) _ _ 27 5 (by omega)).trans <| (extract_append_hi (m := 5) (n := 27) _ _ 27 5 (by omega)).trans <| extract_all _,
    (extract_append_lo (m := 8) (n := 56) _ _ 23 4 (by omega)).trans <| (extract_append_lo (m := 6) (n := 50) _ _ 23 4 (by omega)).trans <| (extract_append_lo (m := 6) (n := 44) _ _ 23 4 (by omega)).trans <| (extract_append_lo (m := 6) (n := 38) _ _ 23 4 (by omega)).trans <| (extract_append_lo (m := 6) (n := 32) _ _ 23 4 (by omega)).trans <| (extract_append_lo (m := 5) (n := 27) _ _ 23 4 (by omega)).trans <| (extract_append_hi (m := 4) (n := 23) _ _ 23 4 (by omega)).trans <| extract_all _,
    (extract_append_lo (m := 8) (n := 56) _ _ 19 4 (by omega)).trans <| (extract_append_lo (m := 6) (n := 50) _ _ 19 4 (by omega)).trans <| (extract_append_lo (m := 6) (n := 44) _ _ 19 4 (by omega)).trans <| (extract_append_lo (m := 6) (n := 38) _ _ 19 4 (by omega)).trans <| (extract_append_lo (m := 6) (n := 32) _ _ 19 4 (by omega)).trans <| (extract_append_lo (m := 5) (n := 27) _ _ 19 4 (by omega)).trans <| (extract_append_lo (m := 4) (n := 23) _ _ 19 4 (by omega)).trans <| (extract_append_hi (m := 4) (n := 19) _ _ 19 4 (by omega)).trans <| extract_all _,
    (extract_append_lo (m := 8) (n := 56) _ _ 16 3 (by omega)).trans <| (extract_append_lo (m := 6) (n := 50) _ _ 16 3 (by omega)).trans <| (extract_append_lo (m := 6) (n := 44) _ _ 16 3 (by omega)).trans <| (extract_append_lo (m := 6) (n := 38) _ _ 16 3 (by omega)).trans <| (extract_append_lo (m := 6) (n := 32) _ _ 16 3 (by omega)).trans <| (extract_append_lo (m := 5) (n := 27) _ _ 16 3 (by omega)).trans <| (extract_append_lo (m := 4) (n := 23) _ _ 16 3 (by omega)).trans <| (extract_append_lo (m := 4) (n := 19) _ _ 16 3 (by omega)).trans <| (extract_append_hi (m := 3) (n := 16) _ _ 16 3 (by omega)).trans <| extract_all _,
    (extract_append_lo (m := 8) (n := 56) _ _ 0 16 (by omega)).trans <| (extract_append_lo (m := 6) (n := 50) _ _ 0 16 (by omega)).trans <| (extract_append_lo (m := 6) (n := 44) _ _ 0 16 (by omega)).trans <| (extract_append_lo (m := 6) (n := 38) _ _ 0 16 (by omega)).trans <| (extract_append_lo (m := 6) (n := 32) _ _ 0 16 (by omega)).trans <| (extract_append_lo (m := 5) (n := 27) _ _ 0 16 (by omega)).trans <| (extract_append_lo (m := 4) (n := 23) _ _ 0 16 (by omega)).trans <| (extract_append_lo (m := 4) (n := 19) _ _ 0 16 (by omega)).trans <| (extract_append_lo (m := 3) (n := 16) _ _ 0 16 (by omega)).trans <| extract_all _⟩
theorem FmtT.toWord_ofWord (w : W64) : (FmtT.ofWord w).toWord (w.extractLsb' 56 8) = w := by
  simp only [FmtT.toWord, FmtT.ofWord]
  rw [append_extract w 0 3 16, append_extract w 0 4 19, append_extract w 0 4 23, append_extract w 0 5 27, append_extract w 0 6 32, append_extract w 0 6 38, append_extract w 0 6 44, append_extract w 0 6 50, append_extract w 0 8 56]
  exact extract_all w

theorem FmtE.major_toWord (m : BitVec 8) (f : FmtE) : (f.toWord m).extractLsb' 56 8 = m :=
  (extract_append_hi (m := 8) (n := 56) _ _ 56 8 (by omega)).trans <| extract_all _
theorem FmtE.ofWord_toWord (m : BitVec 8) (f : FmtE) : FmtE.ofWord (f.toWord m) = f := by
  cases f
  simp only [FmtE.ofWord, FmtE.mk.injEq]
  exact ⟨(extract_append_lo (m := 8) (n := 56) _ _ 50 6 (by omega)).trans <| (extract_append_hi (m := 6) (n := 50) _ _ 50 6 (by omega)).trans <| extract_all _,
    (extract_append_lo (m := 8) (n := 56) _ _ 44 6 (by omega)).trans <| (extract_append_lo (m := 6) (n := 50) _ _ 44 6 (by omega)).trans <| (extract_append_hi (m := 6) (n := 44) _ _ 44 6 (by omega)).trans <| extract_all _,
    (extract_append_lo (m := 8) (n := 56) _ _ 38 6 (by omega)).trans <| (extract_append_lo (m := 6) (n := 50) _ _ 38 6 (by omega)).trans <| (extract_append_lo (m := 6) (n := 44) _ _ 38 6 (by omega)).trans <| (extract_append_hi (m := 6) (n := 38) _ _ 38 6 (by omega)).trans <| extract_all _,
    (extract_append_lo (m := 8) (n := 56) _ _ 32 6 (by omega)).trans <| (extract_append_lo (m := 6) (n := 50) _ _ 32 6 (by omega)).trans <| (extract_append_lo (m := 6) (n := 44) _ _ 32 6 (by omega)).trans <| (extract_append_lo (m := 6) (n := 38) _ _ 32 6 (by omega)).trans <| (extract_append_hi (m := 6) (n := 32) _ _ 32 6 (by omega)).trans <| extract_all _,
    (extract_append_lo (m := 8) (n := 56) _ _ 31 1 (by omega)).trans <| (extract_append_lo (m := 6) (n := 50) _ _ 31 1 (by omega)).trans <| (extract_append_lo (m := 6) (n := 44) _ _ 31 1 (by omega)).trans <| (extract_append_lo (m := 6) (n := 38) _ _ 31 1 (by omega)).trans <| (extract_append_lo (m := 6) (n := 32) _ _ 31 1 (by omega)).trans <| (extract_append_hi (m := 1) (n := 31) _ _ 31 1 (by omega)).trans <| extract_all _,
    (extract_append_lo (m := 8) (n := 56) _ _ 30 1 (by omega)).trans <| (extract_append_lo (m := 6) (n := 50) _ _ 30 1 (by omega)).trans <| (extract_append_lo (m := 6) (n := 44) _ _ 30 1 (by omega)).trans <| (extract_append_lo (m := 6) (n := 38) _ _ 30 1 (by omega)).trans <| (extract_append_lo (m := 6) (n := 32) _ _ 30 1 (by omega)).trans <| (extract_append_lo (m := 1) (n := 31) _ _ 30 1 (by omega)).trans <| (extract_append_hi (m := 1) (n := 30) _ _ 30 1 (by omega)).trans <| extract_all _,
    (extract_append_lo (m := 8) (n := 56) _ _ 22 8 (by omega)).trans <| (extract_append_lo (m := 6) (n := 50) _ _ 22 8 (by omega)).trans <| (extract_append_lo (m := 6) (n := 44) _ _ 22 8 (by omega)).trans <| (extract_append_lo (m := 6) (n := 38) _ _ 22 8 (by omega)).trans <| (extract_append_lo (m := 6) (n := 32) _ _ 22 8 (by omega)).trans <| (extract_append_lo (m := 1) (n := 31) _ _ 22 8 (by omega)).trans <| (extract_append_lo (m := 1) (n := 30) _ _ 22 8 (by omega)).trans <| (extract_append_hi (m := 8) (n := 22) _ _ 22 8 (by omega)).trans <| extract_all _,
    (extract_append_lo (m := 8) (n := 56) _ _ 14 8 (by omega)).trans <| (extract_append_lo (m := 6) (n := 50) _ _ 14 8 (by omega)).trans <| (extract_append_lo (m := 6) (n := 44) _ _ 14 8 (by omega)).trans <| (extract_append_lo (m := 6) (n := 38) _ _ 14 8 (by omega)).trans <| (extract_append_lo (m := 6) (n := 32) _ _ 14 8 (by omega)).trans <| (extract_append_lo (m := 1) (n := 31) _ _ 14 8 (by omega)).trans <| (extract_append_lo (m := 1) (n := 30) _ _ 14 8 (by omega)).trans <| (extract_append_lo (m := 8) (n := 22) _ _ 14 8 (by omega)).trans <| (extract_append_hi (m := 8) (n := 14) _ _ 14 8 (by omega)).trans <| extract_all _,
    (extract_append_lo (m := 8) (n := 56) _ _ 10 4 (by omega)).trans <| (extract_append_lo (m := 6) (n := 50) _ _ 10 4 (by omega)).trans <| (extract_append_lo (m := 6) (n := 44) _ _ 10 4 (by omega)).trans <| (extract_append_lo (m := 6) (n := 38) _ _ 10 4 (by omega)).trans <| (extract_append_lo (m := 6) (n := 32) _ _ 10 4 (by omega)).trans <| (extract_append_lo (m := 1) (n := 31) _ _ 10 4 (by omega)).trans <| (extract_append_lo (m := 1) (n := 30) _ _ 10 4 (by omega)).trans <| (extract_append_lo (m := 8) (n := 22) _ _ 10 4 (by omega)).trans <| (extract_append_lo (m := 8) (n := 14) _ _ 10 4 (by omega)).trans <| (extract_append_hi (m := 4) (n := 10) _ _ 10 4 (by omega)).trans <| extract_all _,
    (extract_append_lo (m := 8) (n := 56) _ _ 0 10 (by omega)).trans <| (extract_append_lo (m := 6) (n := 50) _ _ 0 10 (by omega)).trans <| (extract_append_lo (m := 6) (n := 44) _ _ 0 10 (by omega)).trans <| (extract_append_lo (m := 6) (n := 38) _ _ 0 10 (by omega)).trans <| (extract_append_lo (m := 6) (n := 32) _ _ 0 10 (by omega)).trans <| (extract_append_lo (m := 1) (n := 31) _ _ 0 10 (by omega)).trans <| (extract_append_lo (m := 1) (n := 30) _ _ 0 10 (by omega)).trans <| (extract_append_lo (m := 8) (n := 22) _ _ 0 10 (by omega)).trans <| (extract_append_lo (m := 8) (n := 14) _ _ 0 10 (by omega)).trans <| (extract_append_lo (m := 4) (n := 10) _ _ 0 10 (by omega)).trans <| extract_all _⟩
theorem FmtE.toWord_ofWord (w : W64) : (FmtE.ofWord w).toWord (w.extractLsb' 56 8) = w := by
  simp only [FmtE.toWord, FmtE.ofWord]
  rw [append_extract w 0 4 10, append_extract w 0 8 14, append_extract w 0 8 22, append_extract w 0 1 30, append_extract w 0 1 31, append_extract w 0 6 32, append_extract w 0 6 38, append_extract w 0 6 44, append_extract w 0 6 50, append_extract w 0 8 56]
  exact extract_all w

theorem FmtS.major_toWord (m : BitVec 8) (f : FmtS) : (f.toWord m).extractLsb' 56 8 = m :=
  (extract_append_hi (m := 8) (n := 56) _ _ 56 8 (by omega)).trans <| extract_all _
theorem FmtS.ofWord_toWord (m : BitVec 8) (f : FmtS) : FmtS.ofWord (f.toWord m) = f := by
  cases f
  simp only [FmtS.ofWord, FmtS.mk.injEq]
  exact ⟨(extract_append_lo (m := 8) (n := 56) _ _ 50 6 (by omega)).trans <| (extract_append_hi (m := 6) (n := 50) _ _ 50 6 (by omega)).trans <| extract_all _,
    (extract_append_lo (m := 8) (n := 56) _ _ 44 6 (by omega)).trans <| (extract_append_lo (m := 6) (n := 50) _ _ 44 6 (by omega)).trans <| (extract_append_hi (m := 6) (n := 44) _ _ 44 6 (by omega)).trans <| extract_all _,
    (extract_append_lo (m := 8) (n := 56) _ _ 32 12 (by omega)).trans <| (extract_append_lo (m := 6) (n := 50) _ _ 32 12 (by omega)).trans <| (extract_append_lo (m := 6) (n := 44) _ _ 32 12 (by omega)).trans <| (extract_append_hi (m := 12) (n := 32) _ _ 32 12 (by omega)).trans <| extract_all _,
    (extract_append_lo (m := 8) (n := 56) _ _ 29 3 (by omega)).trans <| (extract_append_lo (m := 6) (n := 50) _ _ 29 3 (by omega)).trans <| (extract_append_lo (m := 6) (n := 44) _ _ 29 3 (by omega)).trans <| (extract_append_lo (m := 12) (n := 32) _ _ 29 3 (by omega)).trans <| (extract_append_hi (m := 3) (n := 29) _ _ 29 3 (by omega)).trans <| extract_all _,
    (extract_append_lo (m := 8) (n := 56) _ _ 27 2 (by omega)).trans <| (extract_append_lo (m := 6) (n := 50) _ _ 27 2 (by omega)).trans <| (extract_append_lo (m := 6) (n := 44) _ _ 27 2 (by omega)).trans <| (extract_append_lo (m := 12) (n := 32) _ _ 27 2 (by omega)).trans <| (extract_append_lo (m := 3) (n := 29) _ _ 27 2 (by omega)).trans <| (extract_append_hi (m := 2) (n := 27) _ _ 27 2 (by omega)).trans <| extract_all _,
    (extract_append_lo (m := 8) (n := 56) _ _ 24 3 (by omega)).trans <| (extract_append_lo (m := 6) (n := 50) _ _ 24 3 (by omega)).trans <| (extract_append_lo (m := 6) (n := 44) _ _ 24 3 (by omega)).trans <| (extract_append_lo (m := 12) (n := 32) _ _ 24 3 (by omega)).trans <| (extract_append_lo (m := 3) (n := 29) _ _ 24 3 (by omega)).trans <| (extract_append_lo (m := 2) (n := 27) _ _ 24 3 (by omega)).trans <| (extract_append_hi (m := 3) (n := 24) _ _ 24 3 (by omega)).trans <| extract_all _,
    (extract_append_lo (m := 8) (n := 56) _ _ 0 24 (by omega)).trans <| (extract_append_lo (m := 6) (n := 50) _ _ 0 24 (by omega)).trans <| (extract_append_lo (m := 6) (n := 44) _ _ 0 24 (by omega)).trans <| (extract_append_lo (m := 12) (n := 32) _ _ 0 24 (by omega)).trans <| (extract_append_lo (m := 3) (n := 29) _ _ 0 24 (by omega)).trans <| (extract_append_lo (m := 2) (n := 27) _ _ 0 24 (by omega)).trans <| (extract_append_lo (m := 3) (n := 24) _ _ 0 24 (by omega)).trans <| extract_all _⟩
theorem FmtS.toWord_ofWord (w : W64) : (FmtS.ofWord w).toWord (w.extractLsb' 56 8) = w := by
  simp only [FmtS.toWord, FmtS.ofWord]
  rw [append_extract w 0 3 24, append_extract w 0 2 27, append_extract w 0 3 29, append_extract w 0 12 32, append_extract w 0 6 44, append_extract w 0 6 50, append_extract w 0 8 56]
  exact extract_all w

end Sys2Proof
end

