-- ==== Sys2Proof/Laws/Maps.lean ====
section
/-! SUPPORT. Finite maps: reading after setting and after deleting a key. -/

namespace Sys2Proof.Machine

variable {κ α : Type} [DecidableEq κ]

@[simp] theorem lkp_ins_same (m : AMap κ α) (k : κ) (v : α) : lkp (ins m k v) k = some v := by
  induction m with
  | nil => simp [ins, lkp]
  | cons x r ih => obtain ⟨k', v'⟩ := x; by_cases h : k' = k <;> simp [ins, lkp, h, ih]
theorem lkp_ins_ne (m : AMap κ α) {k j : κ} (v : α) (h : j ≠ k) : lkp (ins m k v) j = lkp m j := by
  induction m with
  | nil => simp [ins, lkp, h.symm]
  | cons x r ih =>
    obtain ⟨k', v'⟩ := x
    by_cases h' : k' = k
    · subst h'; simp [ins, lkp, h.symm]
    · simp [ins, lkp, h', ih]
theorem lkp_ins (m : AMap κ α) (k j : κ) (v : α) : lkp (ins m k v) j = if j = k then some v else lkp m j := by
  split
  · subst_vars; exact lkp_ins_same m _ v
  · exact lkp_ins_ne m v ‹_›
@[simp] theorem lkpD_ins_same (m : AMap κ α) (k : κ) (v d : α) : lkpD (ins m k v) k d = v := by simp [lkpD]
theorem lkpD_ins_ne (m : AMap κ α) {k j : κ} (v d : α) (h : j ≠ k) : lkpD (ins m k v) j d = lkpD m j d := by
  simp [lkpD, lkp_ins_ne m v h]
theorem lkp_del_ne (m : AMap κ α) {k j : κ} (h : j ≠ k) : lkp (del m k) j = lkp m j := by
  induction m with
  | nil => rfl
  | cons x r ih =>
    obtain ⟨k', v'⟩ := x
    by_cases h' : k' = k
    · subst h'; simp [del, lkp, h.symm]
    · simp [del, lkp, h', ih]

end Sys2Proof.Machine
end

