-- ==== Sys2Proof/Laws/State.lean ====
section
/-! SUPPORT. What each named update leaves alone: one lemma per field per update. -/

namespace Sys2Proof.Machine

@[simp] theorem setCore_ck (s : State) (c : CoreId) (k : Core) : (setCore s c k).ck = s.ck := rfl
@[simp] theorem setCore_mem (s : State) (c : CoreId) (k : Core) : (setCore s c k).mem = s.mem := rfl
@[simp] theorem setCore_memTags (s : State) (c : CoreId) (k : Core) : (setCore s c k).memTags = s.memTags := rfl
@[simp] theorem setCore_hostMem (s : State) (c : CoreId) (k : Core) : (setCore s c k).hostMem = s.hostMem := rfl
@[simp] theorem setCore_l2 (s : State) (c : CoreId) (k : Core) : (setCore s c k).l2 = s.l2 := rfl
@[simp] theorem setCore_clusters (s : State) (c : CoreId) (k : Core) : (setCore s c k).clusters = s.clusters := rfl
@[simp] theorem setCore_slabs (s : State) (c : CoreId) (k : Core) : (setCore s c k).slabs = s.slabs := rfl
@[simp] theorem setCore_dies (s : State) (c : CoreId) (k : Core) : (setCore s c k).dies = s.dies := rfl
@[simp] theorem setCore_parts (s : State) (c : CoreId) (k : Core) : (setCore s c k).parts = s.parts := rfl
@[simp] theorem setCore_pkgs (s : State) (c : CoreId) (k : Core) : (setCore s c k).pkgs = s.pkgs := rfl
@[simp] theorem setCore_net (s : State) (c : CoreId) (k : Core) : (setCore s c k).net = s.net := rfl
@[simp] theorem setCore_agenda (s : State) (c : CoreId) (k : Core) : (setCore s c k).agenda = s.agenda := rfl
@[simp] theorem setCore_cur (s : State) (c : CoreId) (k : Core) : (setCore s c k).cur = s.cur := rfl
@[simp] theorem setCore_free (s : State) (c : CoreId) (k : Core) : (setCore s c k).free = s.free := rfl
@[simp] theorem setCore_serial (s : State) (c : CoreId) (k : Core) : (setCore s c k).serial = s.serial := rfl
@[simp] theorem setCluster_ck (s : State) (c : ClusterId) (k : Cluster) : (setCluster s c k).ck = s.ck := rfl
@[simp] theorem setCluster_mem (s : State) (c : ClusterId) (k : Cluster) : (setCluster s c k).mem = s.mem := rfl
@[simp] theorem setCluster_memTags (s : State) (c : ClusterId) (k : Cluster) : (setCluster s c k).memTags = s.memTags := rfl
@[simp] theorem setCluster_hostMem (s : State) (c : ClusterId) (k : Cluster) : (setCluster s c k).hostMem = s.hostMem := rfl
@[simp] theorem setCluster_l2 (s : State) (c : ClusterId) (k : Cluster) : (setCluster s c k).l2 = s.l2 := rfl
@[simp] theorem setCluster_cores (s : State) (c : ClusterId) (k : Cluster) : (setCluster s c k).cores = s.cores := rfl
@[simp] theorem setCluster_slabs (s : State) (c : ClusterId) (k : Cluster) : (setCluster s c k).slabs = s.slabs := rfl
@[simp] theorem setCluster_dies (s : State) (c : ClusterId) (k : Cluster) : (setCluster s c k).dies = s.dies := rfl
@[simp] theorem setCluster_parts (s : State) (c : ClusterId) (k : Cluster) : (setCluster s c k).parts = s.parts := rfl
@[simp] theorem setCluster_pkgs (s : State) (c : ClusterId) (k : Cluster) : (setCluster s c k).pkgs = s.pkgs := rfl
@[simp] theorem setCluster_net (s : State) (c : ClusterId) (k : Cluster) : (setCluster s c k).net = s.net := rfl
@[simp] theorem setCluster_agenda (s : State) (c : ClusterId) (k : Cluster) : (setCluster s c k).agenda = s.agenda := rfl
@[simp] theorem setCluster_cur (s : State) (c : ClusterId) (k : Cluster) : (setCluster s c k).cur = s.cur := rfl
@[simp] theorem setCluster_free (s : State) (c : ClusterId) (k : Cluster) : (setCluster s c k).free = s.free := rfl
@[simp] theorem setCluster_serial (s : State) (c : ClusterId) (k : Cluster) : (setCluster s c k).serial = s.serial := rfl
@[simp] theorem setSlab_ck (s : State) (c : SlabId) (k : Slab) : (setSlab s c k).ck = s.ck := rfl
@[simp] theorem setSlab_mem (s : State) (c : SlabId) (k : Slab) : (setSlab s c k).mem = s.mem := rfl
@[simp] theorem setSlab_memTags (s : State) (c : SlabId) (k : Slab) : (setSlab s c k).memTags = s.memTags := rfl
@[simp] theorem setSlab_hostMem (s : State) (c : SlabId) (k : Slab) : (setSlab s c k).hostMem = s.hostMem := rfl
@[simp] theorem setSlab_l2 (s : State) (c : SlabId) (k : Slab) : (setSlab s c k).l2 = s.l2 := rfl
@[simp] theorem setSlab_cores (s : State) (c : SlabId) (k : Slab) : (setSlab s c k).cores = s.cores := rfl
@[simp] theorem setSlab_clusters (s : State) (c : SlabId) (k : Slab) : (setSlab s c k).clusters = s.clusters := rfl
@[simp] theorem setSlab_dies (s : State) (c : SlabId) (k : Slab) : (setSlab s c k).dies = s.dies := rfl
@[simp] theorem setSlab_parts (s : State) (c : SlabId) (k : Slab) : (setSlab s c k).parts = s.parts := rfl
@[simp] theorem setSlab_pkgs (s : State) (c : SlabId) (k : Slab) : (setSlab s c k).pkgs = s.pkgs := rfl
@[simp] theorem setSlab_net (s : State) (c : SlabId) (k : Slab) : (setSlab s c k).net = s.net := rfl
@[simp] theorem setSlab_agenda (s : State) (c : SlabId) (k : Slab) : (setSlab s c k).agenda = s.agenda := rfl
@[simp] theorem setSlab_cur (s : State) (c : SlabId) (k : Slab) : (setSlab s c k).cur = s.cur := rfl
@[simp] theorem setSlab_free (s : State) (c : SlabId) (k : Slab) : (setSlab s c k).free = s.free := rfl
@[simp] theorem setSlab_serial (s : State) (c : SlabId) (k : Slab) : (setSlab s c k).serial = s.serial := rfl
@[simp] theorem setDie_ck (s : State) (d : DieId) (k : Die) : (setDie s d k).ck = s.ck := rfl
@[simp] theorem setDie_mem (s : State) (d : DieId) (k : Die) : (setDie s d k).mem = s.mem := rfl
@[simp] theorem setDie_memTags (s : State) (d : DieId) (k : Die) : (setDie s d k).memTags = s.memTags := rfl
@[simp] theorem setDie_hostMem (s : State) (d : DieId) (k : Die) : (setDie s d k).hostMem = s.hostMem := rfl
@[simp] theorem setDie_l2 (s : State) (d : DieId) (k : Die) : (setDie s d k).l2 = s.l2 := rfl
@[simp] theorem setDie_cores (s : State) (d : DieId) (k : Die) : (setDie s d k).cores = s.cores := rfl
@[simp] theorem setDie_clusters (s : State) (d : DieId) (k : Die) : (setDie s d k).clusters = s.clusters := rfl
@[simp] theorem setDie_slabs (s : State) (d : DieId) (k : Die) : (setDie s d k).slabs = s.slabs := rfl
@[simp] theorem setDie_parts (s : State) (d : DieId) (k : Die) : (setDie s d k).parts = s.parts := rfl
@[simp] theorem setDie_pkgs (s : State) (d : DieId) (k : Die) : (setDie s d k).pkgs = s.pkgs := rfl
@[simp] theorem setDie_net (s : State) (d : DieId) (k : Die) : (setDie s d k).net = s.net := rfl
@[simp] theorem setDie_agenda (s : State) (d : DieId) (k : Die) : (setDie s d k).agenda = s.agenda := rfl
@[simp] theorem setDie_cur (s : State) (d : DieId) (k : Die) : (setDie s d k).cur = s.cur := rfl
@[simp] theorem setDie_free (s : State) (d : DieId) (k : Die) : (setDie s d k).free = s.free := rfl
@[simp] theorem setDie_serial (s : State) (d : DieId) (k : Die) : (setDie s d k).serial = s.serial := rfl
@[simp] theorem setPkg_ck (s : State) (p : DieId) (k : Pkg) : (setPkg s p k).ck = s.ck := rfl
@[simp] theorem setPkg_mem (s : State) (p : DieId) (k : Pkg) : (setPkg s p k).mem = s.mem := rfl
@[simp] theorem setPkg_memTags (s : State) (p : DieId) (k : Pkg) : (setPkg s p k).memTags = s.memTags := rfl
@[simp] theorem setPkg_hostMem (s : State) (p : DieId) (k : Pkg) : (setPkg s p k).hostMem = s.hostMem := rfl
@[simp] theorem setPkg_l2 (s : State) (p : DieId) (k : Pkg) : (setPkg s p k).l2 = s.l2 := rfl
@[simp] theorem setPkg_cores (s : State) (p : DieId) (k : Pkg) : (setPkg s p k).cores = s.cores := rfl
@[simp] theorem setPkg_clusters (s : State) (p : DieId) (k : Pkg) : (setPkg s p k).clusters = s.clusters := rfl
@[simp] theorem setPkg_slabs (s : State) (p : DieId) (k : Pkg) : (setPkg s p k).slabs = s.slabs := rfl
@[simp] theorem setPkg_dies (s : State) (p : DieId) (k : Pkg) : (setPkg s p k).dies = s.dies := rfl
@[simp] theorem setPkg_parts (s : State) (p : DieId) (k : Pkg) : (setPkg s p k).parts = s.parts := rfl
@[simp] theorem setPkg_net (s : State) (p : DieId) (k : Pkg) : (setPkg s p k).net = s.net := rfl
@[simp] theorem setPkg_agenda (s : State) (p : DieId) (k : Pkg) : (setPkg s p k).agenda = s.agenda := rfl
@[simp] theorem setPkg_cur (s : State) (p : DieId) (k : Pkg) : (setPkg s p k).cur = s.cur := rfl
@[simp] theorem setPkg_free (s : State) (p : DieId) (k : Pkg) : (setPkg s p k).free = s.free := rfl
@[simp] theorem setPkg_serial (s : State) (p : DieId) (k : Pkg) : (setPkg s p k).serial = s.serial := rfl
@[simp] theorem setPart_ck (s : State) (p : BitVec 32) (k : Part) : (setPart s p k).ck = s.ck := rfl
@[simp] theorem setPart_mem (s : State) (p : BitVec 32) (k : Part) : (setPart s p k).mem = s.mem := rfl
@[simp] theorem setPart_memTags (s : State) (p : BitVec 32) (k : Part) : (setPart s p k).memTags = s.memTags := rfl
@[simp] theorem setPart_hostMem (s : State) (p : BitVec 32) (k : Part) : (setPart s p k).hostMem = s.hostMem := rfl
@[simp] theorem setPart_l2 (s : State) (p : BitVec 32) (k : Part) : (setPart s p k).l2 = s.l2 := rfl
@[simp] theorem setPart_cores (s : State) (p : BitVec 32) (k : Part) : (setPart s p k).cores = s.cores := rfl
@[simp] theorem setPart_clusters (s : State) (p : BitVec 32) (k : Part) : (setPart s p k).clusters = s.clusters := rfl
@[simp] theorem setPart_slabs (s : State) (p : BitVec 32) (k : Part) : (setPart s p k).slabs = s.slabs := rfl
@[simp] theorem setPart_dies (s : State) (p : BitVec 32) (k : Part) : (setPart s p k).dies = s.dies := rfl
@[simp] theorem setPart_pkgs (s : State) (p : BitVec 32) (k : Part) : (setPart s p k).pkgs = s.pkgs := rfl
@[simp] theorem setPart_net (s : State) (p : BitVec 32) (k : Part) : (setPart s p k).net = s.net := rfl
@[simp] theorem setPart_agenda (s : State) (p : BitVec 32) (k : Part) : (setPart s p k).agenda = s.agenda := rfl
@[simp] theorem setPart_cur (s : State) (p : BitVec 32) (k : Part) : (setPart s p k).cur = s.cur := rfl
@[simp] theorem setPart_free (s : State) (p : BitVec 32) (k : Part) : (setPart s p k).free = s.free := rfl
@[simp] theorem setPart_serial (s : State) (p : BitVec 32) (k : Part) : (setPart s p k).serial = s.serial := rfl
@[simp] theorem setPair_ck (s : State) (a b : DieId) (k : Pair) : (setPair s a b k).ck = s.ck := rfl
@[simp] theorem setPair_mem (s : State) (a b : DieId) (k : Pair) : (setPair s a b k).mem = s.mem := rfl
@[simp] theorem setPair_memTags (s : State) (a b : DieId) (k : Pair) : (setPair s a b k).memTags = s.memTags := rfl
@[simp] theorem setPair_hostMem (s : State) (a b : DieId) (k : Pair) : (setPair s a b k).hostMem = s.hostMem := rfl
@[simp] theorem setPair_l2 (s : State) (a b : DieId) (k : Pair) : (setPair s a b k).l2 = s.l2 := rfl
@[simp] theorem setPair_cores (s : State) (a b : DieId) (k : Pair) : (setPair s a b k).cores = s.cores := rfl
@[simp] theorem setPair_clusters (s : State) (a b : DieId) (k : Pair) : (setPair s a b k).clusters = s.clusters := rfl
@[simp] theorem setPair_slabs (s : State) (a b : DieId) (k : Pair) : (setPair s a b k).slabs = s.slabs := rfl
@[simp] theorem setPair_dies (s : State) (a b : DieId) (k : Pair) : (setPair s a b k).dies = s.dies := rfl
@[simp] theorem setPair_parts (s : State) (a b : DieId) (k : Pair) : (setPair s a b k).parts = s.parts := rfl
@[simp] theorem setPair_pkgs (s : State) (a b : DieId) (k : Pair) : (setPair s a b k).pkgs = s.pkgs := rfl
@[simp] theorem setPair_agenda (s : State) (a b : DieId) (k : Pair) : (setPair s a b k).agenda = s.agenda := rfl
@[simp] theorem setPair_cur (s : State) (a b : DieId) (k : Pair) : (setPair s a b k).cur = s.cur := rfl
@[simp] theorem setPair_free (s : State) (a b : DieId) (k : Pair) : (setPair s a b k).free = s.free := rfl
@[simp] theorem setPair_serial (s : State) (a b : DieId) (k : Pair) : (setPair s a b k).serial = s.serial := rfl
@[simp] theorem modCore_ck (s : State) (c : CoreId) (f : Core → Core) : (modCore s c f).ck = s.ck := rfl
@[simp] theorem modCore_mem (s : State) (c : CoreId) (f : Core → Core) : (modCore s c f).mem = s.mem := rfl
@[simp] theorem modCore_memTags (s : State) (c : CoreId) (f : Core → Core) : (modCore s c f).memTags = s.memTags := rfl
@[simp] theorem modCore_hostMem (s : State) (c : CoreId) (f : Core → Core) : (modCore s c f).hostMem = s.hostMem := rfl
@[simp] theorem modCore_l2 (s : State) (c : CoreId) (f : Core → Core) : (modCore s c f).l2 = s.l2 := rfl
@[simp] theorem modCore_clusters (s : State) (c : CoreId) (f : Core → Core) : (modCore s c f).clusters = s.clusters := rfl
@[simp] theorem modCore_slabs (s : State) (c : CoreId) (f : Core → Core) : (modCore s c f).slabs = s.slabs := rfl
@[simp] theorem modCore_dies (s : State) (c : CoreId) (f : Core → Core) : (modCore s c f).dies = s.dies := rfl
@[simp] theorem modCore_parts (s : State) (c : CoreId) (f : Core → Core) : (modCore s c f).parts = s.parts := rfl
@[simp] theorem modCore_pkgs (s : State) (c : CoreId) (f : Core → Core) : (modCore s c f).pkgs = s.pkgs := rfl
@[simp] theorem modCore_net (s : State) (c : CoreId) (f : Core → Core) : (modCore s c f).net = s.net := rfl
@[simp] theorem modCore_agenda (s : State) (c : CoreId) (f : Core → Core) : (modCore s c f).agenda = s.agenda := rfl
@[simp] theorem modCore_cur (s : State) (c : CoreId) (f : Core → Core) : (modCore s c f).cur = s.cur := rfl
@[simp] theorem modCore_free (s : State) (c : CoreId) (f : Core → Core) : (modCore s c f).free = s.free := rfl
@[simp] theorem modCore_serial (s : State) (c : CoreId) (f : Core → Core) : (modCore s c f).serial = s.serial := rfl
@[simp] theorem modCluster_ck (s : State) (c : ClusterId) (f : Cluster → Cluster) : (modCluster s c f).ck = s.ck := rfl
@[simp] theorem modCluster_mem (s : State) (c : ClusterId) (f : Cluster → Cluster) : (modCluster s c f).mem = s.mem := rfl
@[simp] theorem modCluster_memTags (s : State) (c : ClusterId) (f : Cluster → Cluster) : (modCluster s c f).memTags = s.memTags := rfl
@[simp] theorem modCluster_hostMem (s : State) (c : ClusterId) (f : Cluster → Cluster) : (modCluster s c f).hostMem = s.hostMem := rfl
@[simp] theorem modCluster_l2 (s : State) (c : ClusterId) (f : Cluster → Cluster) : (modCluster s c f).l2 = s.l2 := rfl
@[simp] theorem modCluster_cores (s : State) (c : ClusterId) (f : Cluster → Cluster) : (modCluster s c f).cores = s.cores := rfl
@[simp] theorem modCluster_slabs (s : State) (c : ClusterId) (f : Cluster → Cluster) : (modCluster s c f).slabs = s.slabs := rfl
@[simp] theorem modCluster_dies (s : State) (c : ClusterId) (f : Cluster → Cluster) : (modCluster s c f).dies = s.dies := rfl
@[simp] theorem modCluster_parts (s : State) (c : ClusterId) (f : Cluster → Cluster) : (modCluster s c f).parts = s.parts := rfl
@[simp] theorem modCluster_pkgs (s : State) (c : ClusterId) (f : Cluster → Cluster) : (modCluster s c f).pkgs = s.pkgs := rfl
@[simp] theorem modCluster_net (s : State) (c : ClusterId) (f : Cluster → Cluster) : (modCluster s c f).net = s.net := rfl
@[simp] theorem modCluster_agenda (s : State) (c : ClusterId) (f : Cluster → Cluster) : (modCluster s c f).agenda = s.agenda := rfl
@[simp] theorem modCluster_cur (s : State) (c : ClusterId) (f : Cluster → Cluster) : (modCluster s c f).cur = s.cur := rfl
@[simp] theorem modCluster_free (s : State) (c : ClusterId) (f : Cluster → Cluster) : (modCluster s c f).free = s.free := rfl
@[simp] theorem modCluster_serial (s : State) (c : ClusterId) (f : Cluster → Cluster) : (modCluster s c f).serial = s.serial := rfl
@[simp] theorem modSlab_ck (s : State) (c : SlabId) (f : Slab → Slab) : (modSlab s c f).ck = s.ck := rfl
@[simp] theorem modSlab_mem (s : State) (c : SlabId) (f : Slab → Slab) : (modSlab s c f).mem = s.mem := rfl
@[simp] theorem modSlab_memTags (s : State) (c : SlabId) (f : Slab → Slab) : (modSlab s c f).memTags = s.memTags := rfl
@[simp] theorem modSlab_hostMem (s : State) (c : SlabId) (f : Slab → Slab) : (modSlab s c f).hostMem = s.hostMem := rfl
@[simp] theorem modSlab_l2 (s : State) (c : SlabId) (f : Slab → Slab) : (modSlab s c f).l2 = s.l2 := rfl
@[simp] theorem modSlab_cores (s : State) (c : SlabId) (f : Slab → Slab) : (modSlab s c f).cores = s.cores := rfl
@[simp] theorem modSlab_clusters (s : State) (c : SlabId) (f : Slab → Slab) : (modSlab s c f).clusters = s.clusters := rfl
@[simp] theorem modSlab_dies (s : State) (c : SlabId) (f : Slab → Slab) : (modSlab s c f).dies = s.dies := rfl
@[simp] theorem modSlab_parts (s : State) (c : SlabId) (f : Slab → Slab) : (modSlab s c f).parts = s.parts := rfl
@[simp] theorem modSlab_pkgs (s : State) (c : SlabId) (f : Slab → Slab) : (modSlab s c f).pkgs = s.pkgs := rfl
@[simp] theorem modSlab_net (s : State) (c : SlabId) (f : Slab → Slab) : (modSlab s c f).net = s.net := rfl
@[simp] theorem modSlab_agenda (s : State) (c : SlabId) (f : Slab → Slab) : (modSlab s c f).agenda = s.agenda := rfl
@[simp] theorem modSlab_cur (s : State) (c : SlabId) (f : Slab → Slab) : (modSlab s c f).cur = s.cur := rfl
@[simp] theorem modSlab_free (s : State) (c : SlabId) (f : Slab → Slab) : (modSlab s c f).free = s.free := rfl
@[simp] theorem modSlab_serial (s : State) (c : SlabId) (f : Slab → Slab) : (modSlab s c f).serial = s.serial := rfl
@[simp] theorem modDie_ck (s : State) (d : DieId) (f : Die → Die) : (modDie s d f).ck = s.ck := rfl
@[simp] theorem modDie_mem (s : State) (d : DieId) (f : Die → Die) : (modDie s d f).mem = s.mem := rfl
@[simp] theorem modDie_memTags (s : State) (d : DieId) (f : Die → Die) : (modDie s d f).memTags = s.memTags := rfl
@[simp] theorem modDie_hostMem (s : State) (d : DieId) (f : Die → Die) : (modDie s d f).hostMem = s.hostMem := rfl
@[simp] theorem modDie_l2 (s : State) (d : DieId) (f : Die → Die) : (modDie s d f).l2 = s.l2 := rfl
@[simp] theorem modDie_cores (s : State) (d : DieId) (f : Die → Die) : (modDie s d f).cores = s.cores := rfl
@[simp] theorem modDie_clusters (s : State) (d : DieId) (f : Die → Die) : (modDie s d f).clusters = s.clusters := rfl
@[simp] theorem modDie_slabs (s : State) (d : DieId) (f : Die → Die) : (modDie s d f).slabs = s.slabs := rfl
@[simp] theorem modDie_parts (s : State) (d : DieId) (f : Die → Die) : (modDie s d f).parts = s.parts := rfl
@[simp] theorem modDie_pkgs (s : State) (d : DieId) (f : Die → Die) : (modDie s d f).pkgs = s.pkgs := rfl
@[simp] theorem modDie_net (s : State) (d : DieId) (f : Die → Die) : (modDie s d f).net = s.net := rfl
@[simp] theorem modDie_agenda (s : State) (d : DieId) (f : Die → Die) : (modDie s d f).agenda = s.agenda := rfl
@[simp] theorem modDie_cur (s : State) (d : DieId) (f : Die → Die) : (modDie s d f).cur = s.cur := rfl
@[simp] theorem modDie_free (s : State) (d : DieId) (f : Die → Die) : (modDie s d f).free = s.free := rfl
@[simp] theorem modDie_serial (s : State) (d : DieId) (f : Die → Die) : (modDie s d f).serial = s.serial := rfl
@[simp] theorem modPkg_ck (s : State) (p : DieId) (f : Pkg → Pkg) : (modPkg s p f).ck = s.ck := rfl
@[simp] theorem modPkg_mem (s : State) (p : DieId) (f : Pkg → Pkg) : (modPkg s p f).mem = s.mem := rfl
@[simp] theorem modPkg_memTags (s : State) (p : DieId) (f : Pkg → Pkg) : (modPkg s p f).memTags = s.memTags := rfl
@[simp] theorem modPkg_hostMem (s : State) (p : DieId) (f : Pkg → Pkg) : (modPkg s p f).hostMem = s.hostMem := rfl
@[simp] theorem modPkg_l2 (s : State) (p : DieId) (f : Pkg → Pkg) : (modPkg s p f).l2 = s.l2 := rfl
@[simp] theorem modPkg_cores (s : State) (p : DieId) (f : Pkg → Pkg) : (modPkg s p f).cores = s.cores := rfl
@[simp] theorem modPkg_clusters (s : State) (p : DieId) (f : Pkg → Pkg) : (modPkg s p f).clusters = s.clusters := rfl
@[simp] theorem modPkg_slabs (s : State) (p : DieId) (f : Pkg → Pkg) : (modPkg s p f).slabs = s.slabs := rfl
@[simp] theorem modPkg_dies (s : State) (p : DieId) (f : Pkg → Pkg) : (modPkg s p f).dies = s.dies := rfl
@[simp] theorem modPkg_parts (s : State) (p : DieId) (f : Pkg → Pkg) : (modPkg s p f).parts = s.parts := rfl
@[simp] theorem modPkg_net (s : State) (p : DieId) (f : Pkg → Pkg) : (modPkg s p f).net = s.net := rfl
@[simp] theorem modPkg_agenda (s : State) (p : DieId) (f : Pkg → Pkg) : (modPkg s p f).agenda = s.agenda := rfl
@[simp] theorem modPkg_cur (s : State) (p : DieId) (f : Pkg → Pkg) : (modPkg s p f).cur = s.cur := rfl
@[simp] theorem modPkg_free (s : State) (p : DieId) (f : Pkg → Pkg) : (modPkg s p f).free = s.free := rfl
@[simp] theorem modPkg_serial (s : State) (p : DieId) (f : Pkg → Pkg) : (modPkg s p f).serial = s.serial := rfl
@[simp] theorem modPair_ck (s : State) (a b : DieId) (f : Pair → Pair) : (modPair s a b f).ck = s.ck := rfl
@[simp] theorem modPair_mem (s : State) (a b : DieId) (f : Pair → Pair) : (modPair s a b f).mem = s.mem := rfl
@[simp] theorem modPair_memTags (s : State) (a b : DieId) (f : Pair → Pair) : (modPair s a b f).memTags = s.memTags := rfl
@[simp] theorem modPair_hostMem (s : State) (a b : DieId) (f : Pair → Pair) : (modPair s a b f).hostMem = s.hostMem := rfl
@[simp] theorem modPair_l2 (s : State) (a b : DieId) (f : Pair → Pair) : (modPair s a b f).l2 = s.l2 := rfl
@[simp] theorem modPair_cores (s : State) (a b : DieId) (f : Pair → Pair) : (modPair s a b f).cores = s.cores := rfl
@[simp] theorem modPair_clusters (s : State) (a b : DieId) (f : Pair → Pair) : (modPair s a b f).clusters = s.clusters := rfl
@[simp] theorem modPair_slabs (s : State) (a b : DieId) (f : Pair → Pair) : (modPair s a b f).slabs = s.slabs := rfl
@[simp] theorem modPair_dies (s : State) (a b : DieId) (f : Pair → Pair) : (modPair s a b f).dies = s.dies := rfl
@[simp] theorem modPair_parts (s : State) (a b : DieId) (f : Pair → Pair) : (modPair s a b f).parts = s.parts := rfl
@[simp] theorem modPair_pkgs (s : State) (a b : DieId) (f : Pair → Pair) : (modPair s a b f).pkgs = s.pkgs := rfl
@[simp] theorem modPair_agenda (s : State) (a b : DieId) (f : Pair → Pair) : (modPair s a b f).agenda = s.agenda := rfl
@[simp] theorem modPair_cur (s : State) (a b : DieId) (f : Pair → Pair) : (modPair s a b f).cur = s.cur := rfl
@[simp] theorem modPair_free (s : State) (a b : DieId) (f : Pair → Pair) : (modPair s a b f).free = s.free := rfl
@[simp] theorem modPair_serial (s : State) (a b : DieId) (f : Pair → Pair) : (modPair s a b f).serial = s.serial := rfl
@[simp] theorem modTask_ck (s : State) (c : CoreId) (f : Task → Task) : (modTask s c f).ck = s.ck := rfl
@[simp] theorem modTask_mem (s : State) (c : CoreId) (f : Task → Task) : (modTask s c f).mem = s.mem := rfl
@[simp] theorem modTask_memTags (s : State) (c : CoreId) (f : Task → Task) : (modTask s c f).memTags = s.memTags := rfl
@[simp] theorem modTask_hostMem (s : State) (c : CoreId) (f : Task → Task) : (modTask s c f).hostMem = s.hostMem := rfl
@[simp] theorem modTask_l2 (s : State) (c : CoreId) (f : Task → Task) : (modTask s c f).l2 = s.l2 := rfl
@[simp] theorem modTask_clusters (s : State) (c : CoreId) (f : Task → Task) : (modTask s c f).clusters = s.clusters := rfl
@[simp] theorem modTask_slabs (s : State) (c : CoreId) (f : Task → Task) : (modTask s c f).slabs = s.slabs := rfl
@[simp] theorem modTask_dies (s : State) (c : CoreId) (f : Task → Task) : (modTask s c f).dies = s.dies := rfl
@[simp] theorem modTask_parts (s : State) (c : CoreId) (f : Task → Task) : (modTask s c f).parts = s.parts := rfl
@[simp] theorem modTask_pkgs (s : State) (c : CoreId) (f : Task → Task) : (modTask s c f).pkgs = s.pkgs := rfl
@[simp] theorem modTask_net (s : State) (c : CoreId) (f : Task → Task) : (modTask s c f).net = s.net := rfl
@[simp] theorem modTask_agenda (s : State) (c : CoreId) (f : Task → Task) : (modTask s c f).agenda = s.agenda := rfl
@[simp] theorem modTask_cur (s : State) (c : CoreId) (f : Task → Task) : (modTask s c f).cur = s.cur := rfl
@[simp] theorem modTask_free (s : State) (c : CoreId) (f : Task → Task) : (modTask s c f).free = s.free := rfl
@[simp] theorem modTask_serial (s : State) (c : CoreId) (f : Task → Task) : (modTask s c f).serial = s.serial := rfl
@[simp] theorem postRec_ck (s : State) (sl : SlabId) (r : FaultRec) : (postRec s sl r).ck = s.ck := rfl
@[simp] theorem postRec_mem (s : State) (sl : SlabId) (r : FaultRec) : (postRec s sl r).mem = s.mem := rfl
@[simp] theorem postRec_memTags (s : State) (sl : SlabId) (r : FaultRec) : (postRec s sl r).memTags = s.memTags := rfl
@[simp] theorem postRec_hostMem (s : State) (sl : SlabId) (r : FaultRec) : (postRec s sl r).hostMem = s.hostMem := rfl
@[simp] theorem postRec_l2 (s : State) (sl : SlabId) (r : FaultRec) : (postRec s sl r).l2 = s.l2 := rfl
@[simp] theorem postRec_cores (s : State) (sl : SlabId) (r : FaultRec) : (postRec s sl r).cores = s.cores := rfl
@[simp] theorem postRec_clusters (s : State) (sl : SlabId) (r : FaultRec) : (postRec s sl r).clusters = s.clusters := rfl
@[simp] theorem postRec_dies (s : State) (sl : SlabId) (r : FaultRec) : (postRec s sl r).dies = s.dies := rfl
@[simp] theorem postRec_parts (s : State) (sl : SlabId) (r : FaultRec) : (postRec s sl r).parts = s.parts := rfl
@[simp] theorem postRec_pkgs (s : State) (sl : SlabId) (r : FaultRec) : (postRec s sl r).pkgs = s.pkgs := rfl
@[simp] theorem postRec_net (s : State) (sl : SlabId) (r : FaultRec) : (postRec s sl r).net = s.net := rfl
@[simp] theorem postRec_agenda (s : State) (sl : SlabId) (r : FaultRec) : (postRec s sl r).agenda = s.agenda := rfl
@[simp] theorem postRec_cur (s : State) (sl : SlabId) (r : FaultRec) : (postRec s sl r).cur = s.cur := rfl
@[simp] theorem postRec_free (s : State) (sl : SlabId) (r : FaultRec) : (postRec s sl r).free = s.free := rfl
@[simp] theorem postRec_serial (s : State) (sl : SlabId) (r : FaultRec) : (postRec s sl r).serial = s.serial := rfl
@[simp] theorem physPut_ck (s : State) (a : Nat) (b : Byte) : (physPut s a b).ck = s.ck := rfl
@[simp] theorem physPut_memTags (s : State) (a : Nat) (b : Byte) : (physPut s a b).memTags = s.memTags.filter (· != a / 32) := rfl
@[simp] theorem physPut_hostMem (s : State) (a : Nat) (b : Byte) : (physPut s a b).hostMem = s.hostMem := rfl
@[simp] theorem physPut_cores (s : State) (a : Nat) (b : Byte) : (physPut s a b).cores = s.cores := rfl
@[simp] theorem physPut_clusters (s : State) (a : Nat) (b : Byte) : (physPut s a b).clusters = s.clusters := rfl
@[simp] theorem physPut_slabs (s : State) (a : Nat) (b : Byte) : (physPut s a b).slabs = s.slabs := rfl
@[simp] theorem physPut_dies (s : State) (a : Nat) (b : Byte) : (physPut s a b).dies = s.dies := rfl
@[simp] theorem physPut_parts (s : State) (a : Nat) (b : Byte) : (physPut s a b).parts = s.parts := rfl
@[simp] theorem physPut_pkgs (s : State) (a : Nat) (b : Byte) : (physPut s a b).pkgs = s.pkgs := rfl
@[simp] theorem physPut_net (s : State) (a : Nat) (b : Byte) : (physPut s a b).net = s.net := rfl
@[simp] theorem physPut_agenda (s : State) (a : Nat) (b : Byte) : (physPut s a b).agenda = s.agenda := rfl
@[simp] theorem physPut_cur (s : State) (a : Nat) (b : Byte) : (physPut s a b).cur = s.cur := rfl
@[simp] theorem physPut_free (s : State) (a : Nat) (b : Byte) : (physPut s a b).free = s.free := rfl
@[simp] theorem physPut_serial (s : State) (a : Nat) (b : Byte) : (physPut s a b).serial = s.serial := rfl
@[simp] theorem modPart_ck (s : State) (p : BitVec 32) (f : Part → Part) : (modPart s p f).ck = s.ck := by
  unfold modPart; split <;> rfl
@[simp] theorem modPart_mem (s : State) (p : BitVec 32) (f : Part → Part) : (modPart s p f).mem = s.mem := by
  unfold modPart; split <;> rfl
@[simp] theorem modPart_memTags (s : State) (p : BitVec 32) (f : Part → Part) : (modPart s p f).memTags = s.memTags := by
  unfold modPart; split <;> rfl
@[simp] theorem modPart_hostMem (s : State) (p : BitVec 32) (f : Part → Part) : (modPart s p f).hostMem = s.hostMem := by
  unfold modPart; split <;> rfl
@[simp] theorem modPart_l2 (s : State) (p : BitVec 32) (f : Part → Part) : (modPart s p f).l2 = s.l2 := by
  unfold modPart; split <;> rfl
@[simp] theorem modPart_cores (s : State) (p : BitVec 32) (f : Part → Part) : (modPart s p f).cores = s.cores := by
  unfold modPart; split <;> rfl
@[simp] theorem modPart_clusters (s : State) (p : BitVec 32) (f : Part → Part) : (modPart s p f).clusters = s.clusters := by
  unfold modPart; split <;> rfl
@[simp] theorem modPart_slabs (s : State) (p : BitVec 32) (f : Part → Part) : (modPart s p f).slabs = s.slabs := by
  unfold modPart; split <;> rfl
@[simp] theorem modPart_dies (s : State) (p : BitVec 32) (f : Part → Part) : (modPart s p f).dies = s.dies := by
  unfold modPart; split <;> rfl
@[simp] theorem modPart_pkgs (s : State) (p : BitVec 32) (f : Part → Part) : (modPart s p f).pkgs = s.pkgs := by
  unfold modPart; split <;> rfl
@[simp] theorem modPart_net (s : State) (p : BitVec 32) (f : Part → Part) : (modPart s p f).net = s.net := by
  unfold modPart; split <;> rfl
@[simp] theorem modPart_agenda (s : State) (p : BitVec 32) (f : Part → Part) : (modPart s p f).agenda = s.agenda := by
  unfold modPart; split <;> rfl
@[simp] theorem modPart_cur (s : State) (p : BitVec 32) (f : Part → Part) : (modPart s p f).cur = s.cur := by
  unfold modPart; split <;> rfl
@[simp] theorem modPart_free (s : State) (p : BitVec 32) (f : Part → Part) : (modPart s p f).free = s.free := by
  unfold modPart; split <;> rfl
@[simp] theorem modPart_serial (s : State) (p : BitVec 32) (f : Part → Part) : (modPart s p f).serial = s.serial := by
  unfold modPart; split <;> rfl
@[simp] theorem retireTo_ck (h : Here) (pc : W64) (s : State) : (retireTo h pc s).ck = s.ck := rfl
@[simp] theorem retireTo_mem (h : Here) (pc : W64) (s : State) : (retireTo h pc s).mem = s.mem := rfl
@[simp] theorem retireTo_memTags (h : Here) (pc : W64) (s : State) : (retireTo h pc s).memTags = s.memTags := rfl
@[simp] theorem retireTo_hostMem (h : Here) (pc : W64) (s : State) : (retireTo h pc s).hostMem = s.hostMem := rfl
@[simp] theorem retireTo_l2 (h : Here) (pc : W64) (s : State) : (retireTo h pc s).l2 = s.l2 := rfl
@[simp] theorem retireTo_clusters (h : Here) (pc : W64) (s : State) : (retireTo h pc s).clusters = s.clusters := rfl
@[simp] theorem retireTo_slabs (h : Here) (pc : W64) (s : State) : (retireTo h pc s).slabs = s.slabs := rfl
@[simp] theorem retireTo_dies (h : Here) (pc : W64) (s : State) : (retireTo h pc s).dies = s.dies := rfl
@[simp] theorem retireTo_parts (h : Here) (pc : W64) (s : State) : (retireTo h pc s).parts = s.parts := rfl
@[simp] theorem retireTo_pkgs (h : Here) (pc : W64) (s : State) : (retireTo h pc s).pkgs = s.pkgs := rfl
@[simp] theorem retireTo_net (h : Here) (pc : W64) (s : State) : (retireTo h pc s).net = s.net := rfl
@[simp] theorem retireTo_agenda (h : Here) (pc : W64) (s : State) : (retireTo h pc s).agenda = s.agenda := rfl
@[simp] theorem retireTo_cur (h : Here) (pc : W64) (s : State) : (retireTo h pc s).cur = s.cur := rfl
@[simp] theorem retireTo_serial (h : Here) (pc : W64) (s : State) : (retireTo h pc s).serial = s.serial := rfl
@[simp] theorem retire_ck (h : Here) (s : State) : (retire h s).ck = s.ck := rfl
@[simp] theorem retire_mem (h : Here) (s : State) : (retire h s).mem = s.mem := rfl
@[simp] theorem retire_memTags (h : Here) (s : State) : (retire h s).memTags = s.memTags := rfl
@[simp] theorem retire_hostMem (h : Here) (s : State) : (retire h s).hostMem = s.hostMem := rfl
@[simp] theorem retire_l2 (h : Here) (s : State) : (retire h s).l2 = s.l2 := rfl
@[simp] theorem retire_clusters (h : Here) (s : State) : (retire h s).clusters = s.clusters := rfl
@[simp] theorem retire_slabs (h : Here) (s : State) : (retire h s).slabs = s.slabs := rfl
@[simp] theorem retire_dies (h : Here) (s : State) : (retire h s).dies = s.dies := rfl
@[simp] theorem retire_parts (h : Here) (s : State) : (retire h s).parts = s.parts := rfl
@[simp] theorem retire_pkgs (h : Here) (s : State) : (retire h s).pkgs = s.pkgs := rfl
@[simp] theorem retire_net (h : Here) (s : State) : (retire h s).net = s.net := rfl
@[simp] theorem retire_agenda (h : Here) (s : State) : (retire h s).agenda = s.agenda := rfl
@[simp] theorem retire_cur (h : Here) (s : State) : (retire h s).cur = s.cur := rfl
@[simp] theorem retire_serial (h : Here) (s : State) : (retire h s).serial = s.serial := rfl
@[simp] theorem hold_ck (h : Here) (w : HoldWhy) (s : State) : (hold h w s).ck = s.ck := rfl
@[simp] theorem hold_mem (h : Here) (w : HoldWhy) (s : State) : (hold h w s).mem = s.mem := rfl
@[simp] theorem hold_memTags (h : Here) (w : HoldWhy) (s : State) : (hold h w s).memTags = s.memTags := rfl
@[simp] theorem hold_hostMem (h : Here) (w : HoldWhy) (s : State) : (hold h w s).hostMem = s.hostMem := rfl
@[simp] theorem hold_l2 (h : Here) (w : HoldWhy) (s : State) : (hold h w s).l2 = s.l2 := rfl
@[simp] theorem hold_clusters (h : Here) (w : HoldWhy) (s : State) : (hold h w s).clusters = s.clusters := rfl
@[simp] theorem hold_slabs (h : Here) (w : HoldWhy) (s : State) : (hold h w s).slabs = s.slabs := rfl
@[simp] theorem hold_dies (h : Here) (w : HoldWhy) (s : State) : (hold h w s).dies = s.dies := rfl
@[simp] theorem hold_parts (h : Here) (w : HoldWhy) (s : State) : (hold h w s).parts = s.parts := rfl
@[simp] theorem hold_pkgs (h : Here) (w : HoldWhy) (s : State) : (hold h w s).pkgs = s.pkgs := rfl
@[simp] theorem hold_net (h : Here) (w : HoldWhy) (s : State) : (hold h w s).net = s.net := rfl
@[simp] theorem hold_agenda (h : Here) (w : HoldWhy) (s : State) : (hold h w s).agenda = s.agenda := rfl
@[simp] theorem hold_free (h : Here) (w : HoldWhy) (s : State) : (hold h w s).free = s.free := rfl
@[simp] theorem hold_serial (h : Here) (w : HoldWhy) (s : State) : (hold h w s).serial = s.serial := rfl
@[simp] theorem physWrite_ck (b : List Byte) (s : State) (a : Nat) : (physWrite s a b).ck = s.ck := by
  induction b generalizing s a with
  | nil => rfl
  | cons x r ih => simp [physWrite, ih]
@[simp] theorem physWrite_hostMem (b : List Byte) (s : State) (a : Nat) : (physWrite s a b).hostMem = s.hostMem := by
  induction b generalizing s a with
  | nil => rfl
  | cons x r ih => simp [physWrite, ih]
@[simp] theorem physWrite_cores (b : List Byte) (s : State) (a : Nat) : (physWrite s a b).cores = s.cores := by
  induction b generalizing s a with
  | nil => rfl
  | cons x r ih => simp [physWrite, ih]
@[simp] theorem physWrite_clusters (b : List Byte) (s : State) (a : Nat) : (physWrite s a b).clusters = s.clusters := by
  induction b generalizing s a with
  | nil => rfl
  | cons x r ih => simp [physWrite, ih]
@[simp] theorem physWrite_slabs (b : List Byte) (s : State) (a : Nat) : (physWrite s a b).slabs = s.slabs := by
  induction b generalizing s a with
  | nil => rfl
  | cons x r ih => simp [physWrite, ih]
@[simp] theorem physWrite_dies (b : List Byte) (s : State) (a : Nat) : (physWrite s a b).dies = s.dies := by
  induction b generalizing s a with
  | nil => rfl
  | cons x r ih => simp [physWrite, ih]
@[simp] theorem physWrite_parts (b : List Byte) (s : State) (a : Nat) : (physWrite s a b).parts = s.parts := by
  induction b generalizing s a with
  | nil => rfl
  | cons x r ih => simp [physWrite, ih]
@[simp] theorem physWrite_pkgs (b : List Byte) (s : State) (a : Nat) : (physWrite s a b).pkgs = s.pkgs := by
  induction b generalizing s a with
  | nil => rfl
  | cons x r ih => simp [physWrite, ih]
@[simp] theorem physWrite_net (b : List Byte) (s : State) (a : Nat) : (physWrite s a b).net = s.net := by
  induction b generalizing s a with
  | nil => rfl
  | cons x r ih => simp [physWrite, ih]
@[simp] theorem physWrite_agenda (b : List Byte) (s : State) (a : Nat) : (physWrite s a b).agenda = s.agenda := by
  induction b generalizing s a with
  | nil => rfl
  | cons x r ih => simp [physWrite, ih]
@[simp] theorem physWrite_cur (b : List Byte) (s : State) (a : Nat) : (physWrite s a b).cur = s.cur := by
  induction b generalizing s a with
  | nil => rfl
  | cons x r ih => simp [physWrite, ih]
@[simp] theorem physWrite_free (b : List Byte) (s : State) (a : Nat) : (physWrite s a b).free = s.free := by
  induction b generalizing s a with
  | nil => rfl
  | cons x r ih => simp [physWrite, ih]
@[simp] theorem physWrite_serial (b : List Byte) (s : State) (a : Nat) : (physWrite s a b).serial = s.serial := by
  induction b generalizing s a with
  | nil => rfl
  | cons x r ih => simp [physWrite, ih]
@[simp] theorem takeFault_ck (s : State) (h : Here) (k : Nat) (d0 d1 d2 : W64) (o : BitVec 32) :
    (takeFault s h k d0 d1 d2 o).ck = s.ck := by
  unfold takeFault; dsimp only; split <;> rfl
@[simp] theorem takeFault_mem (s : State) (h : Here) (k : Nat) (d0 d1 d2 : W64) (o : BitVec 32) :
    (takeFault s h k d0 d1 d2 o).mem = s.mem := by
  unfold takeFault; dsimp only; split <;> rfl
@[simp] theorem takeFault_memTags (s : State) (h : Here) (k : Nat) (d0 d1 d2 : W64) (o : BitVec 32) :
    (takeFault s h k d0 d1 d2 o).memTags = s.memTags := by
  unfold takeFault; dsimp only; split <;> rfl
@[simp] theorem takeFault_hostMem (s : State) (h : Here) (k : Nat) (d0 d1 d2 : W64) (o : BitVec 32) :
    (takeFault s h k d0 d1 d2 o).hostMem = s.hostMem := by
  unfold takeFault; dsimp only; split <;> rfl
@[simp] theorem takeFault_l2 (s : State) (h : Here) (k : Nat) (d0 d1 d2 : W64) (o : BitVec 32) :
    (takeFault s h k d0 d1 d2 o).l2 = s.l2 := by
  unfold takeFault; dsimp only; split <;> rfl
@[simp] theorem takeFault_clusters (s : State) (h : Here) (k : Nat) (d0 d1 d2 : W64) (o : BitVec 32) :
    (takeFault s h k d0 d1 d2 o).clusters = s.clusters := by
  unfold takeFault; dsimp only; split <;> rfl
@[simp] theorem takeFault_dies (s : State) (h : Here) (k : Nat) (d0 d1 d2 : W64) (o : BitVec 32) :
    (takeFault s h k d0 d1 d2 o).dies = s.dies := by
  unfold takeFault; dsimp only; split <;> rfl
@[simp] theorem takeFault_parts (s : State) (h : Here) (k : Nat) (d0 d1 d2 : W64) (o : BitVec 32) :
    (takeFault s h k d0 d1 d2 o).parts = s.parts := by
  unfold takeFault; dsimp only; split <;> rfl
@[simp] theorem takeFault_net (s : State) (h : Here) (k : Nat) (d0 d1 d2 : W64) (o : BitVec 32) :
    (takeFault s h k d0 d1 d2 o).net = s.net := by
  unfold takeFault; dsimp only; split <;> rfl
@[simp] theorem takeFault_agenda (s : State) (h : Here) (k : Nat) (d0 d1 d2 : W64) (o : BitVec 32) :
    (takeFault s h k d0 d1 d2 o).agenda = s.agenda := by
  unfold takeFault; dsimp only; split <;> rfl
@[simp] theorem takeFault_cur (s : State) (h : Here) (k : Nat) (d0 d1 d2 : W64) (o : BitVec 32) :
    (takeFault s h k d0 d1 d2 o).cur = s.cur := by
  unfold takeFault; dsimp only; split <;> rfl
@[simp] theorem takeFault_free (s : State) (h : Here) (k : Nat) (d0 d1 d2 : W64) (o : BitVec 32) :
    (takeFault s h k d0 d1 d2 o).free = s.free := by
  unfold takeFault; dsimp only; split <;> rfl
@[simp] theorem takeFault_serial (s : State) (h : Here) (k : Nat) (d0 d1 d2 : W64) (o : BitVec 32) :
    (takeFault s h k d0 d1 d2 o).serial = s.serial := by
  unfold takeFault; dsimp only; split <;> rfl

end Sys2Proof.Machine
end

