-- ==== Sys2Proof/Laws/Memory.lean ====
section
/-! SUPPORT. Memory: reading after writing, and that every memory operation keeps the canonical form. -/

namespace Sys2Proof.Machine

theorem memWfFrom_mono {m : List Host.Cell} {lo hi : Nat} (h : memWfFrom hi m = true) (hl : lo ≤ hi) : memWfFrom lo m = true := by
  cases m with
  | nil => rfl
  | cons x r =>
    simp only [memWfFrom, Bool.and_eq_true, decide_eq_true_eq] at h ⊢
    exact ⟨⟨by omega, h.1.2⟩, h.2⟩

theorem memPut_wfFrom {m : List Host.Cell} {lo a : Nat} {b : Byte} (h : memWfFrom lo m = true) (ha : lo ≤ a) :
    memWfFrom lo (memPut m a b) = true := by
  induction m generalizing lo with
  | nil => by_cases hb : b = 0#8 <;> simp [memPut, hb, memWfFrom, ha]
  | cons x r ih =>
    obtain ⟨k, v⟩ := x
    have h' := h
    simp only [memWfFrom, Bool.and_eq_true, decide_eq_true_eq, bne_iff_ne] at h
    obtain ⟨⟨hk, hv⟩, hr⟩ := h
    simp only [memPut]
    split
    · split
      · exact memWfFrom_mono hr (by omega)
      · rename_i hb; subst_vars; simp [memWfFrom, ha, hr, bne_iff_ne]; exact hb
    · split
      · split
        · exact h'
        · rename_i hb
          simp only [memWfFrom, Bool.and_eq_true, decide_eq_true_eq, bne_iff_ne]
          exact ⟨⟨ha, hb⟩, ⟨by omega, hv⟩, hr⟩
      · simp only [memWfFrom, Bool.and_eq_true, decide_eq_true_eq, bne_iff_ne]
        exact ⟨⟨hk, hv⟩, ih hr (by omega)⟩

theorem memPut_wf {m : List Host.Cell} (h : Memory.wf m = true) (a : Nat) (b : Byte) : Memory.wf (memPut m a b) = true :=
  memPut_wfFrom h (Nat.zero_le a)

theorem memPutAll_wf {m : List Host.Cell} (h : Memory.wf m = true) (a : Nat) (b : List Byte) :
    Memory.wf (memPutAll m a b) = true := by
  induction b generalizing m a with
  | nil => exact h
  | cons x r ih => exact ih (memPut_wf h a x) (a + 1)

theorem memFilter_wfFrom {m : List Host.Cell} {lo : Nat} (p : Host.Cell → Bool) (h : memWfFrom lo m = true) :
    memWfFrom lo (m.filter p) = true := by
  induction m generalizing lo with
  | nil => rfl
  | cons x r ih =>
    obtain ⟨k, v⟩ := x
    simp only [memWfFrom, Bool.and_eq_true, decide_eq_true_eq, bne_iff_ne] at h
    obtain ⟨⟨hk, hv⟩, hr⟩ := h
    by_cases hp : p (k, v) = true
    · rw [List.filter_cons_of_pos hp]
      simp only [memWfFrom, Bool.and_eq_true, decide_eq_true_eq, bne_iff_ne]
      exact ⟨⟨hk, hv⟩, ih hr⟩
    · simp only [List.filter, hp]; exact memWfFrom_mono (ih hr) (by omega)
theorem memFilter_wf {m : List Host.Cell} (p : Host.Cell → Bool) (h : Memory.wf m = true) : Memory.wf (m.filter p) = true :=
  memFilter_wfFrom p h

theorem memByte_below {m : List Host.Cell} {lo a : Nat} (h : memWfFrom lo m = true) (ha : a < lo) : memByte m a = 0 := by
  cases m with
  | nil => rfl
  | cons x r =>
    obtain ⟨k, v⟩ := x
    simp only [memWfFrom, Bool.and_eq_true, decide_eq_true_eq] at h
    simp [memByte, show k ≠ a by omega, show a < k by omega]

/-- Reading after writing one byte. -/
theorem memByte_memPut {m : List Host.Cell} {lo : Nat} (h : memWfFrom lo m = true) (a c : Nat) (b : Byte) :
    memByte (memPut m a b) c = if c = a then b else memByte m c := by
  induction m generalizing lo with
  | nil =>
    by_cases hb : b = 0#8
    · simp [memPut, hb, memByte]
    · by_cases hc : c = a
      · simp [memPut, hb, memByte, hc]
      · simp [memPut, hb, memByte, hc, Ne.symm hc]
  | cons x r ih =>
    obtain ⟨k, v⟩ := x
    simp only [memWfFrom, Bool.and_eq_true, decide_eq_true_eq, bne_iff_ne] at h
    obtain ⟨⟨hk, hv⟩, hr⟩ := h
    simp only [memPut]
    split
    · rename_i hka
      subst hka
      split
      · rename_i hb
        by_cases hc : c = k
        · subst hc; simp [memByte_below hr (Nat.lt_succ_self _), hb]
        · by_cases hlt : c < k
          · simp [memByte_below hr (show c < k + 1 by omega), memByte, hc, Ne.symm hc, hlt]
          · simp [memByte, hc, Ne.symm hc, hlt]
      · by_cases hc : c = k
        · subst hc; simp [memByte]
        · simp [memByte, hc, Ne.symm hc]
    · rename_i hka
      split
      · rename_i hak
        split
        · rename_i hb
          by_cases hc : c = a
          · subst hc; simp [memByte, hka, hak, hb]
          · simp [hc]
        · by_cases hc : c = a
          · subst hc; simp [memByte]
          · by_cases hlt : c < a
            · simp [memByte, hc, Ne.symm hc, hlt, show k ≠ c by omega, show c < k by omega]
            · simp [memByte, hc, Ne.symm hc, hlt]
      · rename_i hak
        by_cases hck : k = c
        · subst hck; simp [memByte, hka]
        · by_cases hlt : c < k
          · simp [memByte, hck, hlt, show c ≠ a by omega]
          · simp [memByte, hck, hlt, ih hr]

@[simp] theorem physPut_mem (s : State) (a : Nat) (b : Byte) : (physPut s a b).mem = memPut s.mem a b := rfl
@[simp] theorem physWrite_mem (b : List Byte) (s : State) (a : Nat) : (physWrite s a b).mem = memPutAll s.mem a b := by
  induction b generalizing s a with
  | nil => rfl
  | cons x r ih => simp [physWrite, ih, memPutAll]
theorem physWrite_wf {s : State} (h : Memory.wf s.mem = true) (a : Nat) (b : List Byte) :
    Memory.wf (physWrite s a b).mem = true := by
  rw [physWrite_mem]; exact memPutAll_wf h a b

end Sys2Proof.Machine
end

