-- ==== Sys2Proof/Laws/Ops.lean ====
section
/-! SUPPORT. What the shared operations do: one lemma for the ready strand, for a strand that is not ready, for retiring, for
holding and for taking a fault. -/

namespace Sys2Proof.Machine

@[simp] theorem coreAt_setCore_same (s : State) (c : CoreId) (k : Core) : coreAt (setCore s c k) c = k := by
  simp [coreAt, setCore]
theorem coreAt_setCore_ne (s : State) {c d : CoreId} (k : Core) (h : d ≠ c) : coreAt (setCore s c k) d = coreAt s d := by
  simp [coreAt, setCore, lkpD_ins_ne _ _ _ h]
@[simp] theorem slabAt_setSlab_same (s : State) (c : SlabId) (k : Slab) : slabAt (setSlab s c k) c = k := by
  simp [slabAt, setSlab]
@[simp] theorem clusterAt_setCluster_same (s : State) (c : ClusterId) (k : Cluster) : clusterAt (setCluster s c k) c = k := by
  simp [clusterAt, setCluster]
@[simp] theorem dieAt_setDie_same (s : State) (d : DieId) (k : Die) : dieAt (setDie s d k) d = k := by simp [dieAt, setDie]
@[simp] theorem pkgAt_setPkg_same (s : State) (p : DieId) (k : Pkg) : pkgAt (setPkg s p k) p = k := by simp [pkgAt, setPkg]
@[simp] theorem partAt_setPart_same (s : State) (p : BitVec 32) (k : Part) : partAt (setPart s p k) p = some k := by
  simp [partAt, setPart]
@[simp] theorem pairAt_setPair_same (s : State) (a b : DieId) (k : Pair) : pairAt (setPair s a b k) a b = k := by
  simp [pairAt, setPair]

@[simp] theorem modTask_modTask (s : State) (c : CoreId) (f g : Task → Task) :
    modTask (modTask s c f) c g = modTask s c (fun t => g (f t)) := by
  have h : ∀ (m : AMap CoreId Core) (a b : Core), ins (ins m c a) c b = ins m c b := by
    intro m a b
    induction m with
    | nil => simp [ins]
    | cons x r ih => obtain ⟨k', v'⟩ := x; by_cases h : k' = c <;> simp [ins, h, ih]
  simp [modTask, modCore, setCore, coreAt, h, Option.map_map, Function.comp_def]

theorem here_core {s : State} {h : Here} (hh : here s = some h) : coreAt s h.core = h.k ∧ h.k.task = some h.t := by
  unfold here at hh
  split at hh
  · simp at hh
  · split at hh
    · simp at hh
    · rename_i t ht
      simp only [Option.some.injEq] at hh
      subst hh
      exact ⟨rfl, ht⟩
theorem here_cur {s : State} {h : Here} (hh : here s = some h) : s.cur = some { core := h.core, x := h.x } := by
  unfold here at hh
  split at hh
  · simp at hh
  · split at hh
    · simp at hh
    · rename_i c hc _ t ht
      simp only [Option.some.injEq] at hh
      subst hh
      exact hc

/-- On a ready strand a form has its own effect. -/
theorem onStrand_ready {i : Instr} {s : State} {h : Here} (r : Ready i s h) (f : Here → State) :
    onStrand i s f = .next (f h) := by
  obtain ⟨hh, hs, hc, hx, hf, hw, hp, hi, hr⟩ := r
  have h1 : (supOnly i && !isSup h.t) = false := by
    cases ho : supOnly i
    · rfl
    · simp [hp ho]
  have h2 : (h.t.replay && !h.t.side.isEmpty) = false := by
    cases ho : h.t.replay
    · rfl
    · simp [hr ho]
  simp [onStrand, hh, hs, hc, hx, hf, hw, h1, h2, hi]

theorem onlyTask_modTask (s : State) (c : CoreId) (f : Task → Task) : OnlyTask s (modTask s c f) c := by
  refine ⟨rfl, rfl, rfl, rfl, rfl, rfl, rfl, rfl, rfl, rfl, rfl, rfl, rfl, ?_, ?_⟩
  · intro d hd; exact coreAt_setCore_ne s _ hd
  · simp [modTask, modCore]

/-- Retiring after a change of the task: the whole effect. -/
theorem retires_modTask {s : State} {h : Here} (hh : here s = some h) (pc : W64) (f : Task → Task) :
    Retires s (retireTo h pc (modTask s h.core f)) h pc (f h.t) := by
  obtain ⟨hk, ht⟩ := here_core hh
  refine ⟨⟨rfl, rfl, rfl, rfl, rfl, rfl, rfl, rfl, rfl, rfl, rfl, rfl, rfl, ?_, ?_⟩, rfl, fun _ => rfl, ?_⟩
  · intro d hd
    exact (coreAt_setCore_ne _ _ hd).trans (coreAt_setCore_ne s _ hd)
  · have hm : ∀ n : Nat, { modTask s h.core f with free := n } = modTask { s with free := n } h.core f := fun _ => rfl
    simp only [retireTo, hm, modTask_modTask]
    simp [modTask, modCore, coreAt, setCore]
  · have hm : ∀ n : Nat, { modTask s h.core f with free := n } = modTask { s with free := n } h.core f := fun _ => rfl
    have hc : ∀ n : Nat, coreAt { s with free := n } h.core = h.k := fun _ => hk
    simp only [retireTo, hm, modTask_modTask]
    simp [modTask, modCore, hc, ht]
theorem modTask_id (s : State) {h : Here} (hh : here s = some h) (pc : W64) :
    Retires s (retireTo h pc s) h pc h.t := by
  obtain ⟨hk, ht⟩ := here_core hh
  have hc : ∀ n : Nat, coreAt { s with free := n } h.core = h.k := fun _ => hk
  refine ⟨⟨rfl, rfl, rfl, rfl, rfl, rfl, rfl, rfl, rfl, rfl, rfl, rfl, rfl, ?_, ?_⟩, rfl, fun _ => rfl, ?_⟩
  · intro d hd
    exact coreAt_setCore_ne _ _ hd
  · simp [retireTo, modTask, modCore, coreAt, setCore]
  · simp [retireTo, modTask, modCore, hc, ht]
/-- Writing a scalar register and retiring. -/
theorem retires_wrG {s : State} {h : Here} (hh : here s = some h) (pc : W64) (n : BitVec 6) (v : W64) :
    Retires s (retireTo h pc (wrG h n v s)) h pc (wrReg h.x n.toNat v h.t) := retires_modTask hh pc _

/-- Holding: the whole effect. -/
theorem holds_hold {s : State} {h : Here} (hh : here s = some h) (why : HoldWhy) (hw : ∀ b, why ≠ .idle b) :
    Holds s (hold h why s) h why := by
  obtain ⟨hk, ht⟩ := here_core hh
  refine ⟨⟨rfl, rfl, rfl, rfl, rfl, rfl, rfl, rfl, rfl, rfl, rfl, rfl, rfl, ?_, ?_⟩, fun _ => rfl, rfl, rfl, ?_⟩
  · intro d hd
    exact coreAt_setCore_ne _ _ hd
  · simp [hold, modTask, modCore, coreAt, setCore]
  · have e : (coreAt (hold h why s) h.core).task = some (
        let st := strandOf h.t h.x
        let since := match st.held with
          | some hd => if sameHold hd.why why then hd else if sameCount hd.why why then ⟨why, hd.since⟩ else ⟨why, s.ck⟩
          | none => ⟨why, s.ck⟩
        setStrand h.t h.x { notePast why st with held := some since }) := by
      refine (congrArg Core.task (coreAt_setCore_same s h.core _)).trans ?_
      rw [hk]
      simp only [ht]
      rfl
    rw [e]
    cases hd : (strandOf h.t h.x).held with
    | none => exact ⟨s.ck, by simp only [hd]⟩
    | some d =>
      by_cases hs : sameHold d.why why = true
      · have hdw : d.why = why := by
          unfold sameHold at hs
          split at hs
          · exact absurd rfl (hw _)
          · exact eq_of_beq hs
        refine ⟨d.since, ?_⟩
        simp only [hd, hs, if_true]
        obtain ⟨w, n⟩ := d
        simp at hdw
        subst hdw
        rfl
      · by_cases hc : sameCount d.why why = true
        · exact ⟨d.since, by simp [hd, hs, hc]⟩
        · exact ⟨s.ck, by simp [hd, hs, hc]⟩

end Sys2Proof.Machine
end

