-- ==== Sys2Proof/Laws/PerInstr.lean ====
section
/-! SUPPORT. Per instruction: a well-formed form's word decodes to the form. An event has no word. -/

namespace Sys2Proof

theorem decodeMajor_1E (w : W64) : decodeMajor 0x1E w =
    (if (FmtR.ofWord w).fn == 0 then some (.clz (FmtR.ofWord w)) else if (FmtR.ofWord w).fn == 1 then some (.ctz (FmtR.ofWord w)) else if (FmtR.ofWord w).fn == 2 then some (.popc (FmtR.ofWord w)) else if (FmtR.ofWord w).fn == 3 then some (.mov (FmtR.ofWord w)) else if (FmtR.ofWord w).fn == 4 then some (.ext (FmtR.ofWord w)) else none) := rfl
theorem decodeMajor_1F (w : W64) : decodeMajor 0x1F w =
    (if (FmtI.ofWord w).fn == 0 then some (.li (FmtI.ofWord w)) else if (FmtI.ofWord w).fn == 1 then some (.lih (FmtI.ofWord w)) else none) := rfl
theorem decodeMajor_44 (w : W64) : decodeMajor 0x44 w =
    (if (FmtM.ofWord w).fn == 0 then some (.pfL1 (FmtM.ofWord w)) else if (FmtM.ofWord w).fn == 1 then some (.pfL2 (FmtM.ofWord w)) else none) := rfl
theorem decodeMajor_45 (w : W64) : decodeMajor 0x45 w =
    (if (FmtM.ofWord w).fn == 0 then some (.cboClean (FmtM.ofWord w)) else if (FmtM.ofWord w).fn == 1 then some (.cboInval (FmtM.ofWord w)) else if (FmtM.ofWord w).fn == 2 then some (.cboFlush (FmtM.ofWord w)) else none) := rfl
theorem decodeMajor_46 (w : W64) : decodeMajor 0x46 w =
    (if (FmtM.ofWord w).fn == 0 then some (.otqAttr (FmtM.ofWord w)) else if (FmtM.ofWord w).fn == 1 then some (.otqCnt (FmtM.ofWord w)) else if (FmtM.ofWord w).fn == 2 then some (.otqDims (FmtM.ofWord w)) else if (FmtM.ofWord w).fn == 3 then some (.otqLayout (FmtM.ofWord w)) else if (FmtM.ofWord w).fn == 4 then some (.otqPlanes (FmtM.ofWord w)) else if (FmtM.ofWord w).fn == 5 then some (.otqExt (FmtM.ofWord w)) else none) := rfl
theorem decodeMajor_49 (w : W64) : decodeMajor 0x49 w =
    (if (FmtM.ofWord w).fn.toNat ≤ 8 then some (.amo (FmtM.ofWord w)) else if 16 ≤ (FmtM.ofWord w).fn.toNat ∧ (FmtM.ofWord w).fn.toNat ≤ 23 then some (.amoReduce (FmtM.ofWord w)) else none) := rfl
theorem decodeMajor_4A (w : W64) : decodeMajor 0x4A w =
    (if (FmtM.ofWord w).fn == 0 then some (.amofFadd (FmtM.ofWord w)) else if (FmtM.ofWord w).fn == 1 then some (.amofFmax (FmtM.ofWord w)) else none) := rfl
theorem decodeMajor_50 (w : W64) : decodeMajor 0x50 w =
    (if (FmtS.ofWord w).fn == 0 then some (.swait (FmtS.ofWord w)) else if (FmtS.ofWord w).fn == 1 then some (.swaitTake (FmtS.ofWord w)) else none) := rfl
theorem decodeMajor_55 (w : W64) : decodeMajor 0x55 w =
    (if (FmtS.ofWord w).fn == 0 then some (.evpop (FmtS.ofWord w)) else if (FmtS.ofWord w).fn == 1 then some (.evpopPoll (FmtS.ofWord w)) else none) := rfl
theorem decodeMajor_73 (w : W64) : decodeMajor 0x73 w =
    (if (FmtV.ofWord w).fn == 0 then some (.vscale (FmtV.ofWord w)) else if (FmtV.ofWord w).fn == 1 then some (.vscaleVec (FmtV.ofWord w)) else none) := rfl
theorem decodeMajor_85 (w : W64) : decodeMajor 0x85 w =
    (if (FmtV.ofWord w).fn == 0 then some (.vbcast (FmtV.ofWord w)) else if (FmtV.ofWord w).fn == 1 then some (.vbcastLane (FmtV.ofWord w)) else none) := rfl
theorem decodeMajor_88 (w : W64) : decodeMajor 0x88 w =
    (if (FmtV.ofWord w).fn == 0 then some (.vmov (FmtV.ofWord w)) else if (FmtV.ofWord w).fn == 1 then some (.vmovP (FmtV.ofWord w)) else if (FmtV.ofWord w).fn == 2 then some (.vmovV (FmtV.ofWord w)) else none) := rfl
theorem decodeMajor_89 (w : W64) : decodeMajor 0x89 w =
    (if (FmtV.ofWord w).fn == 0 then some (.vlds (FmtV.ofWord w)) else if (FmtV.ofWord w).fn == 1 then some (.vldsFifo (FmtV.ofWord w)) else none) := rfl
theorem decodeMajor_8A (w : W64) : decodeMajor 0x8A w =
    (if (FmtV.ofWord w).fn == 0 then some (.vsts (FmtV.ofWord w)) else if (FmtV.ofWord w).fn == 1 then some (.vstsFifo (FmtV.ofWord w)) else none) := rfl
theorem decodeMajor_A4 (w : W64) : decodeMajor 0xA4 w =
    (if (FmtT.ofWord w).fn == 0 then some (.mxzero (FmtT.ofWord w)) else if (FmtT.ofWord w).fn == 1 then some (.mxzeroBlk (FmtT.ofWord w)) else none) := rfl
theorem decodeMajor_A5 (w : W64) : decodeMajor 0xA5 w =
    (if (FmtT.ofWord w).fn == 0 then some (.mxrd (FmtT.ofWord w)) else if (FmtT.ofWord w).fn == 1 then some (.mxrdBand (FmtT.ofWord w)) else none) := rfl
theorem decodeMajor_B0 (w : W64) : decodeMajor 0xB0 w =
    (if (FmtE.ofWord w).fn == 0 then some (.cpy (FmtE.ofWord w)) else if (FmtE.ofWord w).fn == 1 then some (.cpySt (FmtE.ofWord w)) else none) := rfl
theorem decodeMajor_B1 (w : W64) : decodeMajor 0xB1 w =
    (if (FmtE.ofWord w).fn == 0 then some (.cpyl (FmtE.ofWord w)) else if (FmtE.ofWord w).fn == 1 then some (.cpylSt (FmtE.ofWord w)) else if (FmtE.ofWord w).fn == 2 then some (.cpylOo (FmtE.ofWord w)) else none) := rfl
theorem decodeMajor_B5 (w : W64) : decodeMajor 0xB5 w =
    (if (FmtE.ofWord w).fn == 0 then some (.reshd (FmtE.ofWord w)) else if (FmtE.ofWord w).fn == 1 then some (.reshdInst (FmtE.ofWord w)) else none) := rfl
theorem decodeMajor_BC (w : W64) : decodeMajor 0xBC w =
    (if (FmtE.ofWord w).fn == 0 then some (.kvmap (FmtE.ofWord w)) else if (FmtE.ofWord w).fn == 1 then some (.kvmapLen (FmtE.ofWord w)) else none) := rfl
theorem decodeMajor_BE (w : W64) : decodeMajor 0xBE w =
    (if (FmtE.ofWord w).fn == 0 then some (.cursRd (FmtE.ofWord w)) else if (FmtE.ofWord w).fn == 1 then some (.cursPlay (FmtE.ofWord w)) else if (FmtE.ofWord w).fn == 2 then some (.cursGen (FmtE.ofWord w)) else if (FmtE.ofWord w).fn == 3 then some (.cursInit (FmtE.ofWord w)) else if (FmtE.ofWord w).fn == 4 then some (.cursFree (FmtE.ofWord w)) else if (FmtE.ofWord w).fn == 5 then some (.cursRdc (FmtE.ofWord w)) else none) := rfl
theorem decodeMajor_C0 (w : W64) : decodeMajor 0xC0 w =
    (if (FmtE.ofWord w).fn == 0 then some (.commit (FmtE.ofWord w)) else if (FmtE.ofWord w).fn == 1 then some (.commitSnap (FmtE.ofWord w)) else none) := rfl
theorem decodeMajor_E0 (w : W64) : decodeMajor 0xE0 w =
    (if (FmtS.ofWord w).csr == 0x104 then some (.csrrSysFlstat (FmtS.ofWord w)) else some (.csrr (FmtS.ofWord w))) := rfl
theorem decodeMajor_E1 (w : W64) : decodeMajor 0xE1 w =
    (if (FmtS.ofWord w).csr == 0x010 then some (.csrwSysCause (FmtS.ofWord w)) else if (FmtS.ofWord w).csr == 0x009 then some (.csrwSysPrio (FmtS.ofWord w)) else if (FmtS.ofWord w).csr == 0x105 then some (.csrwSysSave (FmtS.ofWord w)) else if (FmtS.ofWord w).csr == 0x102 then some (.csrwSysFq (FmtS.ofWord w)) else if (FmtS.ofWord w).csr == 0x103 then some (.csrwSysFlog (FmtS.ofWord w)) else some (.csrw (FmtS.ofWord w))) := rfl
theorem decodeMajor_E3 (w : W64) : decodeMajor 0xE3 w =
    (if (FmtS.ofWord w).fn == 0 then some (.resumeRetry (FmtS.ofWord w)) else if (FmtS.ofWord w).fn == 1 then some (.resumeSkip (FmtS.ofWord w)) else if (FmtS.ofWord w).fn == 2 then some (.resumeCont (FmtS.ofWord w)) else if (FmtS.ofWord w).fn == 3 then some (.resumeKill (FmtS.ofWord w)) else if (FmtS.ofWord w).fn == 4 then some (.resumePark (FmtS.ofWord w)) else if (FmtS.ofWord w).fn == 5 then some (.resumeAbort (FmtS.ofWord w)) else none) := rfl
theorem decodeMajor_E4 (w : W64) : decodeMajor 0xE4 w =
    (if (FmtS.ofWord w).fn == 0 then some (.featTest (FmtS.ofWord w)) else if (FmtS.ofWord w).fn == 1 then some (.featReq (FmtS.ofWord w)) else none) := rfl
theorem decodeMajor_E5 (w : W64) : decodeMajor 0xE5 w =
    (if (FmtS.ofWord w).fn == 0 then some (.otinvExt (FmtS.ofWord w)) else if (FmtS.ofWord w).fn == 1 then some (.otinvObj (FmtS.ofWord w)) else if (FmtS.ofWord w).fn == 2 then some (.otinvAll (FmtS.ofWord w)) else none) := rfl
theorem decodeMajor_E6 (w : W64) : decodeMajor 0xE6 w =
    (if (FmtS.ofWord w).fn == 0 then some (.btinvAll (FmtS.ofWord w)) else if (FmtS.ofWord w).fn == 1 then some (.btinvSeq (FmtS.ofWord w)) else none) := rfl
theorem decodeMajor_EA (w : W64) : decodeMajor 0xEA w =
    (if (FmtS.ofWord w).fn == 0 then some (.cfgbankCache (FmtS.ofWord w)) else if (FmtS.ofWord w).fn == 1 then some (.cfgbankScratch (FmtS.ofWord w)) else if (FmtS.ofWord w).fn == 2 then some (.cfgbankFifo (FmtS.ofWord w)) else none) := rfl

theorem decode_of_raw {w : W64} {i : Instr} {m : BitVec 8} (hm : w.extractLsb' 56 8 = m)
    (ha : majorAssigned m.toNat = true) (hx : ¬ 0xF0 ≤ m.toNat) (hr : decodeMajor m.toNat w = some i)
    (hf : Machine.fieldsOk i = true) : decode w = .ok i := by
  simp [decode, decodeRaw, hm, hx, ha, hr, hf]

namespace Laws.Encoding

open Machine

/-- The family's statement: the words of the well-formed form decode to it. -/
def Statement (i : Instr) : Prop := ∀ w, Machine.fieldsOk i = true → encode i = some w → decode w = .ok i

theorem add (f : FmtR) : Statement (.add f) := by
  intro w hf he
  obtain rfl : f.toWord 0x00 = w := Option.some.inj he
  exact decode_of_raw (FmtR.major_toWord _ f) (by decide) (by decide)
    (congrArg (fun x => some (Instr.add x)) (FmtR.ofWord_toWord _ f)) hf
theorem addi (f : FmtI) : Statement (.addi f) := by
  intro w hf he
  obtain rfl : f.toWord 0x01 = w := Option.some.inj he
  exact decode_of_raw (FmtI.major_toWord _ f) (by decide) (by decide)
    (congrArg (fun x => some (Instr.addi x)) (FmtI.ofWord_toWord _ f)) hf
theorem sub (f : FmtR) : Statement (.sub f) := by
  intro w hf he
  obtain rfl : f.toWord 0x02 = w := Option.some.inj he
  exact decode_of_raw (FmtR.major_toWord _ f) (by decide) (by decide)
    (congrArg (fun x => some (Instr.sub x)) (FmtR.ofWord_toWord _ f)) hf
theorem mul (f : FmtR) : Statement (.mul f) := by
  intro w hf he
  obtain rfl : f.toWord 0x03 = w := Option.some.inj he
  exact decode_of_raw (FmtR.major_toWord _ f) (by decide) (by decide)
    (congrArg (fun x => some (Instr.mul x)) (FmtR.ofWord_toWord _ f)) hf
theorem mulh (f : FmtR) : Statement (.mulh f) := by
  intro w hf he
  obtain rfl : f.toWord 0x04 = w := Option.some.inj he
  exact decode_of_raw (FmtR.major_toWord _ f) (by decide) (by decide)
    (congrArg (fun x => some (Instr.mulh x)) (FmtR.ofWord_toWord _ f)) hf
theorem mulhz (f : FmtR) : Statement (.mulhz f) := by
  intro w hf he
  obtain rfl : f.toWord 0x05 = w := Option.some.inj he
  exact decode_of_raw (FmtR.major_toWord _ f) (by decide) (by decide)
    (congrArg (fun x => some (Instr.mulhz x)) (FmtR.ofWord_toWord _ f)) hf
theorem div (f : FmtR) : Statement (.div f) := by
  intro w hf he
  obtain rfl : f.toWord 0x06 = w := Option.some.inj he
  exact decode_of_raw (FmtR.major_toWord _ f) (by decide) (by decide)
    (congrArg (fun x => some (Instr.div x)) (FmtR.ofWord_toWord _ f)) hf
theorem divz (f : FmtR) : Statement (.divz f) := by
  intro w hf he
  obtain rfl : f.toWord 0x07 = w := Option.some.inj he
  exact decode_of_raw (FmtR.major_toWord _ f) (by decide) (by decide)
    (congrArg (fun x => some (Instr.divz x)) (FmtR.ofWord_toWord _ f)) hf
theorem rem (f : FmtR) : Statement (.rem f) := by
  intro w hf he
  obtain rfl : f.toWord 0x08 = w := Option.some.inj he
  exact decode_of_raw (FmtR.major_toWord _ f) (by decide) (by decide)
    (congrArg (fun x => some (Instr.rem x)) (FmtR.ofWord_toWord _ f)) hf
theorem remz (f : FmtR) : Statement (.remz f) := by
  intro w hf he
  obtain rfl : f.toWord 0x09 = w := Option.some.inj he
  exact decode_of_raw (FmtR.major_toWord _ f) (by decide) (by decide)
    (congrArg (fun x => some (Instr.remz x)) (FmtR.ofWord_toWord _ f)) hf
theorem and (f : FmtR) : Statement (.and f) := by
  intro w hf he
  obtain rfl : f.toWord 0x0A = w := Option.some.inj he
  exact decode_of_raw (FmtR.major_toWord _ f) (by decide) (by decide)
    (congrArg (fun x => some (Instr.and x)) (FmtR.ofWord_toWord _ f)) hf
theorem andi (f : FmtI) : Statement (.andi f) := by
  intro w hf he
  obtain rfl : f.toWord 0x0B = w := Option.some.inj he
  exact decode_of_raw (FmtI.major_toWord _ f) (by decide) (by decide)
    (congrArg (fun x => some (Instr.andi x)) (FmtI.ofWord_toWord _ f)) hf
theorem or (f : FmtR) : Statement (.or f) := by
  intro w hf he
  obtain rfl : f.toWord 0x0C = w := Option.some.inj he
  exact decode_of_raw (FmtR.major_toWord _ f) (by decide) (by decide)
    (congrArg (fun x => some (Instr.or x)) (FmtR.ofWord_toWord _ f)) hf
theorem ori (f : FmtI) : Statement (.ori f) := by
  intro w hf he
  obtain rfl : f.toWord 0x0D = w := Option.some.inj he
  exact decode_of_raw (FmtI.major_toWord _ f) (by decide) (by decide)
    (congrArg (fun x => some (Instr.ori x)) (FmtI.ofWord_toWord _ f)) hf
theorem xor (f : FmtR) : Statement (.xor f) := by
  intro w hf he
  obtain rfl : f.toWord 0x0E = w := Option.some.inj he
  exact decode_of_raw (FmtR.major_toWord _ f) (by decide) (by decide)
    (congrArg (fun x => some (Instr.xor x)) (FmtR.ofWord_toWord _ f)) hf
theorem xori (f : FmtI) : Statement (.xori f) := by
  intro w hf he
  obtain rfl : f.toWord 0x0F = w := Option.some.inj he
  exact decode_of_raw (FmtI.major_toWord _ f) (by decide) (by decide)
    (congrArg (fun x => some (Instr.xori x)) (FmtI.ofWord_toWord _ f)) hf
theorem shl (f : FmtR) : Statement (.shl f) := by
  intro w hf he
  obtain rfl : f.toWord 0x10 = w := Option.some.inj he
  exact decode_of_raw (FmtR.major_toWord _ f) (by decide) (by decide)
    (congrArg (fun x => some (Instr.shl x)) (FmtR.ofWord_toWord _ f)) hf
theorem shli (f : FmtI) : Statement (.shli f) := by
  intro w hf he
  obtain rfl : f.toWord 0x11 = w := Option.some.inj he
  exact decode_of_raw (FmtI.major_toWord _ f) (by decide) (by decide)
    (congrArg (fun x => some (Instr.shli x)) (FmtI.ofWord_toWord _ f)) hf
theorem shr (f : FmtR) : Statement (.shr f) := by
  intro w hf he
  obtain rfl : f.toWord 0x12 = w := Option.some.inj he
  exact decode_of_raw (FmtR.major_toWord _ f) (by decide) (by decide)
    (congrArg (fun x => some (Instr.shr x)) (FmtR.ofWord_toWord _ f)) hf
theorem shri (f : FmtI) : Statement (.shri f) := by
  intro w hf he
  obtain rfl : f.toWord 0x13 = w := Option.some.inj he
  exact decode_of_raw (FmtI.major_toWord _ f) (by decide) (by decide)
    (congrArg (fun x => some (Instr.shri x)) (FmtI.ofWord_toWord _ f)) hf
theorem sra (f : FmtR) : Statement (.sra f) := by
  intro w hf he
  obtain rfl : f.toWord 0x14 = w := Option.some.inj he
  exact decode_of_raw (FmtR.major_toWord _ f) (by decide) (by decide)
    (congrArg (fun x => some (Instr.sra x)) (FmtR.ofWord_toWord _ f)) hf
theorem srai (f : FmtI) : Statement (.srai f) := by
  intro w hf he
  obtain rfl : f.toWord 0x15 = w := Option.some.inj he
  exact decode_of_raw (FmtI.major_toWord _ f) (by decide) (by decide)
    (congrArg (fun x => some (Instr.srai x)) (FmtI.ofWord_toWord _ f)) hf
theorem min (f : FmtR) : Statement (.min f) := by
  intro w hf he
  obtain rfl : f.toWord 0x16 = w := Option.some.inj he
  exact decode_of_raw (FmtR.major_toWord _ f) (by decide) (by decide)
    (congrArg (fun x => some (Instr.min x)) (FmtR.ofWord_toWord _ f)) hf
theorem max (f : FmtR) : Statement (.max f) := by
  intro w hf he
  obtain rfl : f.toWord 0x17 = w := Option.some.inj he
  exact decode_of_raw (FmtR.major_toWord _ f) (by decide) (by decide)
    (congrArg (fun x => some (Instr.max x)) (FmtR.ofWord_toWord _ f)) hf
theorem minz (f : FmtR) : Statement (.minz f) := by
  intro w hf he
  obtain rfl : f.toWord 0x18 = w := Option.some.inj he
  exact decode_of_raw (FmtR.major_toWord _ f) (by decide) (by decide)
    (congrArg (fun x => some (Instr.minz x)) (FmtR.ofWord_toWord _ f)) hf
theorem maxz (f : FmtR) : Statement (.maxz f) := by
  intro w hf he
  obtain rfl : f.toWord 0x19 = w := Option.some.inj he
  exact decode_of_raw (FmtR.major_toWord _ f) (by decide) (by decide)
    (congrArg (fun x => some (Instr.maxz x)) (FmtR.ofWord_toWord _ f)) hf
theorem slt (f : FmtR) : Statement (.slt f) := by
  intro w hf he
  obtain rfl : f.toWord 0x1A = w := Option.some.inj he
  exact decode_of_raw (FmtR.major_toWord _ f) (by decide) (by decide)
    (congrArg (fun x => some (Instr.slt x)) (FmtR.ofWord_toWord _ f)) hf
theorem sltz (f : FmtR) : Statement (.sltz f) := by
  intro w hf he
  obtain rfl : f.toWord 0x1B = w := Option.some.inj he
  exact decode_of_raw (FmtR.major_toWord _ f) (by decide) (by decide)
    (congrArg (fun x => some (Instr.sltz x)) (FmtR.ofWord_toWord _ f)) hf
theorem seq (f : FmtR) : Statement (.seq f) := by
  intro w hf he
  obtain rfl : f.toWord 0x1C = w := Option.some.inj he
  exact decode_of_raw (FmtR.major_toWord _ f) (by decide) (by decide)
    (congrArg (fun x => some (Instr.seq x)) (FmtR.ofWord_toWord _ f)) hf
theorem sel (f : FmtR) : Statement (.sel f) := by
  intro w hf he
  obtain rfl : f.toWord 0x1D = w := Option.some.inj he
  exact decode_of_raw (FmtR.major_toWord _ f) (by decide) (by decide)
    (congrArg (fun x => some (Instr.sel x)) (FmtR.ofWord_toWord _ f)) hf
theorem clz (f : FmtR) : Statement (.clz f) := by
  intro w hf he
  obtain rfl : f.toWord 0x1E = w := Option.some.inj he
  refine decode_of_raw (FmtR.major_toWord _ f) (by decide) (by decide) ((decodeMajor_1E _).trans ?_) hf
  rw [FmtR.ofWord_toWord]
  have h : (rForm .g .g .no .no intTy 0 f) = true := hf
  clear hf he
  simp only [rForm, Bool.and_eq_true, beq_iff_eq] at h
  simp [h]
theorem ctz (f : FmtR) : Statement (.ctz f) := by
  intro w hf he
  obtain rfl : f.toWord 0x1E = w := Option.some.inj he
  refine decode_of_raw (FmtR.major_toWord _ f) (by decide) (by decide) ((decodeMajor_1E _).trans ?_) hf
  rw [FmtR.ofWord_toWord]
  have h : (rForm .g .g .no .no intTy 1 f) = true := hf
  clear hf he
  simp only [rForm, Bool.and_eq_true, beq_iff_eq] at h
  simp [h]
theorem popc (f : FmtR) : Statement (.popc f) := by
  intro w hf he
  obtain rfl : f.toWord 0x1E = w := Option.some.inj he
  refine decode_of_raw (FmtR.major_toWord _ f) (by decide) (by decide) ((decodeMajor_1E _).trans ?_) hf
  rw [FmtR.ofWord_toWord]
  have h : (rForm .g .g .no .no intTy 2 f) = true := hf
  clear hf he
  simp only [rForm, Bool.and_eq_true, beq_iff_eq] at h
  simp [h]
theorem mov (f : FmtR) : Statement (.mov f) := by
  intro w hf he
  obtain rfl : f.toWord 0x1E = w := Option.some.inj he
  refine decode_of_raw (FmtR.major_toWord _ f) (by decide) (by decide) ((decodeMajor_1E _).trans ?_) hf
  rw [FmtR.ofWord_toWord]
  have h : (rForm .g .g .no .no intTy 3 f) = true := hf
  clear hf he
  simp only [rForm, Bool.and_eq_true, beq_iff_eq] at h
  simp [h]
theorem ext (f : FmtR) : Statement (.ext f) := by
  intro w hf he
  obtain rfl : f.toWord 0x1E = w := Option.some.inj he
  refine decode_of_raw (FmtR.major_toWord _ f) (by decide) (by decide) ((decodeMajor_1E _).trans ?_) hf
  rw [FmtR.ofWord_toWord]
  have h : (rForm .g .g .g .no intTy 4 f) = true := hf
  clear hf he
  simp only [rForm, Bool.and_eq_true, beq_iff_eq] at h
  simp [h]
theorem li (f : FmtI) : Statement (.li f) := by
  intro w hf he
  obtain rfl : f.toWord 0x1F = w := Option.some.inj he
  refine decode_of_raw (FmtI.major_toWord _ f) (by decide) (by decide) ((decodeMajor_1F _).trans ?_) hf
  rw [FmtI.ofWord_toWord]
  have h : (iForm .g .no intTy 0 f) = true := hf
  clear hf he
  simp only [iForm, Bool.and_eq_true, beq_iff_eq] at h
  simp [h]
theorem lih (f : FmtI) : Statement (.lih f) := by
  intro w hf he
  obtain rfl : f.toWord 0x1F = w := Option.some.inj he
  refine decode_of_raw (FmtI.major_toWord _ f) (by decide) (by decide) ((decodeMajor_1F _).trans ?_) hf
  rw [FmtI.ofWord_toWord]
  have h : (iForm .g .no (fun c => c == 0xB || c == 0xF) 1 f) = true := hf
  clear hf he
  simp only [iForm, Bool.and_eq_true, beq_iff_eq] at h
  simp [h]
theorem bc (f : FmtB) : Statement (.bc f) := by
  intro w hf he
  obtain rfl : f.toWord 0x20 = w := Option.some.inj he
  exact decode_of_raw (FmtB.major_toWord _ f) (by decide) (by decide)
    (congrArg (fun x => some (Instr.bc x)) (FmtB.ofWord_toWord _ f)) hf
theorem j (f : FmtB) : Statement (.j f) := by
  intro w hf he
  obtain rfl : f.toWord 0x21 = w := Option.some.inj he
  exact decode_of_raw (FmtB.major_toWord _ f) (by decide) (by decide)
    (congrArg (fun x => some (Instr.j x)) (FmtB.ofWord_toWord _ f)) hf
theorem call (f : FmtB) : Statement (.call f) := by
  intro w hf he
  obtain rfl : f.toWord 0x22 = w := Option.some.inj he
  exact decode_of_raw (FmtB.major_toWord _ f) (by decide) (by decide)
    (congrArg (fun x => some (Instr.call x)) (FmtB.ofWord_toWord _ f)) hf
theorem ret (f : FmtB) : Statement (.ret f) := by
  intro w hf he
  obtain rfl : f.toWord 0x23 = w := Option.some.inj he
  exact decode_of_raw (FmtB.major_toWord _ f) (by decide) (by decide)
    (congrArg (fun x => some (Instr.ret x)) (FmtB.ofWord_toWord _ f)) hf
theorem loopb (f : FmtB) : Statement (.loopb f) := by
  intro w hf he
  obtain rfl : f.toWord 0x24 = w := Option.some.inj he
  exact decode_of_raw (FmtB.major_toWord _ f) (by decide) (by decide)
    (congrArg (fun x => some (Instr.loopb x)) (FmtB.ofWord_toWord _ f)) hf
theorem loope (f : FmtB) : Statement (.loope f) := by
  intro w hf he
  obtain rfl : f.toWord 0x25 = w := Option.some.inj he
  exact decode_of_raw (FmtB.major_toWord _ f) (by decide) (by decide)
    (congrArg (fun x => some (Instr.loope x)) (FmtB.ofWord_toWord _ f)) hf
theorem bqp (f : FmtB) : Statement (.bqp f) := by
  intro w hf he
  obtain rfl : f.toWord 0x26 = w := Option.some.inj he
  exact decode_of_raw (FmtB.major_toWord _ f) (by decide) (by decide)
    (congrArg (fun x => some (Instr.bqp x)) (FmtB.ofWord_toWord _ f)) hf
theorem endS (f : FmtR) : Statement (.endS f) := by
  intro w hf he
  obtain rfl : f.toWord 0x27 = w := Option.some.inj he
  exact decode_of_raw (FmtR.major_toWord _ f) (by decide) (by decide)
    (congrArg (fun x => some (Instr.endS x)) (FmtR.ofWord_toWord _ f)) hf
theorem qpush (f : FmtR) : Statement (.qpush f) := by
  intro w hf he
  obtain rfl : f.toWord 0x28 = w := Option.some.inj he
  exact decode_of_raw (FmtR.major_toWord _ f) (by decide) (by decide)
    (congrArg (fun x => some (Instr.qpush x)) (FmtR.ofWord_toWord _ f)) hf
theorem qpop (f : FmtR) : Statement (.qpop f) := by
  intro w hf he
  obtain rfl : f.toWord 0x29 = w := Option.some.inj he
  exact decode_of_raw (FmtR.major_toWord _ f) (by decide) (by decide)
    (congrArg (fun x => some (Instr.qpop x)) (FmtR.ofWord_toWord _ f)) hf
theorem qpeek (f : FmtR) : Statement (.qpeek f) := by
  intro w hf he
  obtain rfl : f.toWord 0x2A = w := Option.some.inj he
  exact decode_of_raw (FmtR.major_toWord _ f) (by decide) (by decide)
    (congrArg (fun x => some (Instr.qpeek x)) (FmtR.ofWord_toWord _ f)) hf
theorem qcnt (f : FmtR) : Statement (.qcnt f) := by
  intro w hf he
  obtain rfl : f.toWord 0x2B = w := Option.some.inj he
  exact decode_of_raw (FmtR.major_toWord _ f) (by decide) (by decide)
    (congrArg (fun x => some (Instr.qcnt x)) (FmtR.ofWord_toWord _ f)) hf
theorem bqpush (f : FmtR) : Statement (.bqpush f) := by
  intro w hf he
  obtain rfl : f.toWord 0x2C = w := Option.some.inj he
  exact decode_of_raw (FmtR.major_toWord _ f) (by decide) (by decide)
    (congrArg (fun x => some (Instr.bqpush x)) (FmtR.ofWord_toWord _ f)) hf
theorem vpopq (f : FmtV) : Statement (.vpopq f) := by
  intro w hf he
  obtain rfl : f.toWord 0x2D = w := Option.some.inj he
  exact decode_of_raw (FmtV.major_toWord _ f) (by decide) (by decide)
    (congrArg (fun x => some (Instr.vpopq x)) (FmtV.ofWord_toWord _ f)) hf
theorem vpushq (f : FmtV) : Statement (.vpushq f) := by
  intro w hf he
  obtain rfl : f.toWord 0x2E = w := Option.some.inj he
  exact decode_of_raw (FmtV.major_toWord _ f) (by decide) (by decide)
    (congrArg (fun x => some (Instr.vpushq x)) (FmtV.ofWord_toWord _ f)) hf
theorem cld (f : FmtM) : Statement (.cld f) := by
  intro w hf he
  obtain rfl : f.toWord 0x30 = w := Option.some.inj he
  exact decode_of_raw (FmtM.major_toWord _ f) (by decide) (by decide)
    (congrArg (fun x => some (Instr.cld x)) (FmtM.ofWord_toWord _ f)) hf
theorem cst (f : FmtM) : Statement (.cst f) := by
  intro w hf he
  obtain rfl : f.toWord 0x31 = w := Option.some.inj he
  exact decode_of_raw (FmtM.major_toWord _ f) (by decide) (by decide)
    (congrArg (fun x => some (Instr.cst x)) (FmtM.ofWord_toWord _ f)) hf
theorem cnarrow (f : FmtR) : Statement (.cnarrow f) := by
  intro w hf he
  obtain rfl : f.toWord 0x32 = w := Option.some.inj he
  exact decode_of_raw (FmtR.major_toWord _ f) (by decide) (by decide)
    (congrArg (fun x => some (Instr.cnarrow x)) (FmtR.ofWord_toWord _ f)) hf
theorem crights (f : FmtR) : Statement (.crights f) := by
  intro w hf he
  obtain rfl : f.toWord 0x33 = w := Option.some.inj he
  exact decode_of_raw (FmtR.major_toWord _ f) (by decide) (by decide)
    (congrArg (fun x => some (Instr.crights x)) (FmtR.ofWord_toWord _ f)) hf
theorem coff (f : FmtR) : Statement (.coff f) := by
  intro w hf he
  obtain rfl : f.toWord 0x34 = w := Option.some.inj he
  exact decode_of_raw (FmtR.major_toWord _ f) (by decide) (by decide)
    (congrArg (fun x => some (Instr.coff x)) (FmtR.ofWord_toWord _ f)) hf
theorem cget (f : FmtR) : Statement (.cget f) := by
  intro w hf he
  obtain rfl : f.toWord 0x35 = w := Option.some.inj he
  exact decode_of_raw (FmtR.major_toWord _ f) (by decide) (by decide)
    (congrArg (fun x => some (Instr.cget x)) (FmtR.ofWord_toWord _ f)) hf
theorem clgen (f : FmtR) : Statement (.clgen f) := by
  intro w hf he
  obtain rfl : f.toWord 0x36 = w := Option.some.inj he
  exact decode_of_raw (FmtR.major_toWord _ f) (by decide) (by decide)
    (congrArg (fun x => some (Instr.clgen x)) (FmtR.ofWord_toWord _ f)) hf
theorem ld (f : FmtM) : Statement (.ld f) := by
  intro w hf he
  obtain rfl : f.toWord 0x40 = w := Option.some.inj he
  exact decode_of_raw (FmtM.major_toWord _ f) (by decide) (by decide)
    (congrArg (fun x => some (Instr.ld x)) (FmtM.ofWord_toWord _ f)) hf
theorem st (f : FmtM) : Statement (.st f) := by
  intro w hf he
  obtain rfl : f.toWord 0x41 = w := Option.some.inj he
  exact decode_of_raw (FmtM.major_toWord _ f) (by decide) (by decide)
    (congrArg (fun x => some (Instr.st x)) (FmtM.ofWord_toWord _ f)) hf
theorem ldt (f : FmtM) : Statement (.ldt f) := by
  intro w hf he
  obtain rfl : f.toWord 0x42 = w := Option.some.inj he
  exact decode_of_raw (FmtM.major_toWord _ f) (by decide) (by decide)
    (congrArg (fun x => some (Instr.ldt x)) (FmtM.ofWord_toWord _ f)) hf
theorem stt (f : FmtM) : Statement (.stt f) := by
  intro w hf he
  obtain rfl : f.toWord 0x43 = w := Option.some.inj he
  exact decode_of_raw (FmtM.major_toWord _ f) (by decide) (by decide)
    (congrArg (fun x => some (Instr.stt x)) (FmtM.ofWord_toWord _ f)) hf
theorem pfL1 (f : FmtM) : Statement (.pfL1 f) := by
  intro w hf he
  obtain rfl : f.toWord 0x44 = w := Option.some.inj he
  refine decode_of_raw (FmtM.major_toWord _ f) (by decide) (by decide) ((decodeMajor_44 _).trans ?_) hf
  rw [FmtM.ofWord_toWord]
  have h : (mForm .no (· == 0) noOrd (· == 0) f) = true := hf
  clear hf he
  simp only [mForm, Bool.and_eq_true, beq_iff_eq] at h
  simp [h]
theorem pfL2 (f : FmtM) : Statement (.pfL2 f) := by
  intro w hf he
  obtain rfl : f.toWord 0x44 = w := Option.some.inj he
  refine decode_of_raw (FmtM.major_toWord _ f) (by decide) (by decide) ((decodeMajor_44 _).trans ?_) hf
  rw [FmtM.ofWord_toWord]
  have h : (mForm .no (· == 0) noOrd (· == 1) f) = true := hf
  clear hf he
  simp only [mForm, Bool.and_eq_true, beq_iff_eq] at h
  simp [h]
theorem cboClean (f : FmtM) : Statement (.cboClean f) := by
  intro w hf he
  obtain rfl : f.toWord 0x45 = w := Option.some.inj he
  refine decode_of_raw (FmtM.major_toWord _ f) (by decide) (by decide) ((decodeMajor_45 _).trans ?_) hf
  rw [FmtM.ofWord_toWord]
  have h : (mForm .no (· == 0) noOrd (· == 0) f) = true := hf
  clear hf he
  simp only [mForm, Bool.and_eq_true, beq_iff_eq] at h
  simp [h]
theorem cboInval (f : FmtM) : Statement (.cboInval f) := by
  intro w hf he
  obtain rfl : f.toWord 0x45 = w := Option.some.inj he
  refine decode_of_raw (FmtM.major_toWord _ f) (by decide) (by decide) ((decodeMajor_45 _).trans ?_) hf
  rw [FmtM.ofWord_toWord]
  have h : (mForm .no (· == 0) noOrd (· == 1) f) = true := hf
  clear hf he
  simp only [mForm, Bool.and_eq_true, beq_iff_eq] at h
  simp [h]
theorem cboFlush (f : FmtM) : Statement (.cboFlush f) := by
  intro w hf he
  obtain rfl : f.toWord 0x45 = w := Option.some.inj he
  refine decode_of_raw (FmtM.major_toWord _ f) (by decide) (by decide) ((decodeMajor_45 _).trans ?_) hf
  rw [FmtM.ofWord_toWord]
  have h : (mForm .no (· == 0) noOrd (· == 2) f) = true := hf
  clear hf he
  simp only [mForm, Bool.and_eq_true, beq_iff_eq] at h
  simp [h]
theorem otqAttr (f : FmtM) : Statement (.otqAttr f) := by
  intro w hf he
  obtain rfl : f.toWord 0x46 = w := Option.some.inj he
  refine decode_of_raw (FmtM.major_toWord _ f) (by decide) (by decide) ((decodeMajor_46 _).trans ?_) hf
  rw [FmtM.ofWord_toWord]
  have h : (mForm .g (· == 0) noOrd (· == 0) f) = true := hf
  clear hf he
  simp only [mForm, Bool.and_eq_true, beq_iff_eq] at h
  simp [h]
theorem otqCnt (f : FmtM) : Statement (.otqCnt f) := by
  intro w hf he
  obtain rfl : f.toWord 0x46 = w := Option.some.inj he
  refine decode_of_raw (FmtM.major_toWord _ f) (by decide) (by decide) ((decodeMajor_46 _).trans ?_) hf
  rw [FmtM.ofWord_toWord]
  have h : (mForm .pair (· == 0) noOrd (· == 1) f) = true := hf
  clear hf he
  simp only [mForm, Bool.and_eq_true, beq_iff_eq] at h
  simp [h]
theorem otqDims (f : FmtM) : Statement (.otqDims f) := by
  intro w hf he
  obtain rfl : f.toWord 0x46 = w := Option.some.inj he
  refine decode_of_raw (FmtM.major_toWord _ f) (by decide) (by decide) ((decodeMajor_46 _).trans ?_) hf
  rw [FmtM.ofWord_toWord]
  have h : (mForm .pair (· == 0) noOrd (· == 2) f) = true := hf
  clear hf he
  simp only [mForm, Bool.and_eq_true, beq_iff_eq] at h
  simp [h]
theorem otqLayout (f : FmtM) : Statement (.otqLayout f) := by
  intro w hf he
  obtain rfl : f.toWord 0x46 = w := Option.some.inj he
  refine decode_of_raw (FmtM.major_toWord _ f) (by decide) (by decide) ((decodeMajor_46 _).trans ?_) hf
  rw [FmtM.ofWord_toWord]
  have h : (mForm .g (· == 0) noOrd (· == 3) f) = true := hf
  clear hf he
  simp only [mForm, Bool.and_eq_true, beq_iff_eq] at h
  simp [h]
theorem otqPlanes (f : FmtM) : Statement (.otqPlanes f) := by
  intro w hf he
  obtain rfl : f.toWord 0x46 = w := Option.some.inj he
  refine decode_of_raw (FmtM.major_toWord _ f) (by decide) (by decide) ((decodeMajor_46 _).trans ?_) hf
  rw [FmtM.ofWord_toWord]
  have h : (mForm .g (· == 0) noOrd (· == 4) f) = true := hf
  clear hf he
  simp only [mForm, Bool.and_eq_true, beq_iff_eq] at h
  simp [h]
theorem otqExt (f : FmtM) : Statement (.otqExt f) := by
  intro w hf he
  obtain rfl : f.toWord 0x46 = w := Option.some.inj he
  refine decode_of_raw (FmtM.major_toWord _ f) (by decide) (by decide) ((decodeMajor_46 _).trans ?_) hf
  rw [FmtM.ofWord_toWord]
  have h : (mForm .g (· == 0) noOrd (· == 5) f) = true := hf
  clear hf he
  simp only [mForm, Bool.and_eq_true, beq_iff_eq] at h
  simp [h]
theorem ldv (f : FmtM) : Statement (.ldv f) := by
  intro w hf he
  obtain rfl : f.toWord 0x47 = w := Option.some.inj he
  exact decode_of_raw (FmtM.major_toWord _ f) (by decide) (by decide)
    (congrArg (fun x => some (Instr.ldv x)) (FmtM.ofWord_toWord _ f)) hf
theorem vals (f : FmtM) : Statement (.vals f) := by
  intro w hf he
  obtain rfl : f.toWord 0x48 = w := Option.some.inj he
  exact decode_of_raw (FmtM.major_toWord _ f) (by decide) (by decide)
    (congrArg (fun x => some (Instr.vals x)) (FmtM.ofWord_toWord _ f)) hf
theorem amo (f : FmtM) : Statement (.amo f) := by
  intro w hf he
  obtain rfl : f.toWord 0x49 = w := Option.some.inj he
  refine decode_of_raw (FmtM.major_toWord _ f) (by decide) (by decide) ((decodeMajor_49 _).trans ?_) hf
  rw [FmtM.ofWord_toWord]
  have h : (mForm .g amoTy anyOrd (fun n => decide (n.toNat ≤ 8)) f) = true := hf
  clear hf he
  simp only [mForm, Bool.and_eq_true, decide_eq_true_eq] at h
  simp [h]
theorem amoReduce (f : FmtM) : Statement (.amoReduce f) := by
  intro w hf he
  obtain rfl : f.toWord 0x49 = w := Option.some.inj he
  refine decode_of_raw (FmtM.major_toWord _ f) (by decide) (by decide) ((decodeMajor_49 _).trans ?_) hf
  rw [FmtM.ofWord_toWord]
  have h : (mForm .g amoTy anyOrd (fun n => decide (16 ≤ n.toNat ∧ n.toNat ≤ 23)) f) = true := hf
  clear hf he
  simp only [mForm, Bool.and_eq_true, decide_eq_true_eq] at h
  rw [if_neg (by omega), if_pos (by omega)]
theorem amofFadd (f : FmtM) : Statement (.amofFadd f) := by
  intro w hf he
  obtain rfl : f.toWord 0x4A = w := Option.some.inj he
  refine decode_of_raw (FmtM.major_toWord _ f) (by decide) (by decide) ((decodeMajor_4A _).trans ?_) hf
  rw [FmtM.ofWord_toWord]
  have h : (mForm .g (fun c => c == 1 || c == 3) anyOrd (· == 0) f) = true := hf
  clear hf he
  simp only [mForm, Bool.and_eq_true, beq_iff_eq] at h
  simp [h]
theorem amofFmax (f : FmtM) : Statement (.amofFmax f) := by
  intro w hf he
  obtain rfl : f.toWord 0x4A = w := Option.some.inj he
  refine decode_of_raw (FmtM.major_toWord _ f) (by decide) (by decide) ((decodeMajor_4A _).trans ?_) hf
  rw [FmtM.ofWord_toWord]
  have h : (mForm .g (fun c => c == 1 || c == 3) anyOrd (· == 1) f) = true := hf
  clear hf he
  simp only [mForm, Bool.and_eq_true, beq_iff_eq] at h
  simp [h]
theorem cas (f : FmtM) : Statement (.cas f) := by
  intro w hf he
  obtain rfl : f.toWord 0x4B = w := Option.some.inj he
  exact decode_of_raw (FmtM.major_toWord _ f) (by decide) (by decide)
    (congrArg (fun x => some (Instr.cas x)) (FmtM.ofWord_toWord _ f)) hf
theorem casv (f : FmtM) : Statement (.casv f) := by
  intro w hf he
  obtain rfl : f.toWord 0x4C = w := Option.some.inj he
  exact decode_of_raw (FmtM.major_toWord _ f) (by decide) (by decide)
    (congrArg (fun x => some (Instr.casv x)) (FmtM.ofWord_toWord _ f)) hf
theorem fence (f : FmtS) : Statement (.fence f) := by
  intro w hf he
  obtain rfl : f.toWord 0x4D = w := Option.some.inj he
  exact decode_of_raw (FmtS.major_toWord _ f) (by decide) (by decide)
    (congrArg (fun x => some (Instr.fence x)) (FmtS.ofWord_toWord _ f)) hf
theorem acq (f : FmtM) : Statement (.acq f) := by
  intro w hf he
  obtain rfl : f.toWord 0x4E = w := Option.some.inj he
  exact decode_of_raw (FmtM.major_toWord _ f) (by decide) (by decide)
    (congrArg (fun x => some (Instr.acq x)) (FmtM.ofWord_toWord _ f)) hf
theorem rel (f : FmtM) : Statement (.rel f) := by
  intro w hf he
  obtain rfl : f.toWord 0x4F = w := Option.some.inj he
  exact decode_of_raw (FmtM.major_toWord _ f) (by decide) (by decide)
    (congrArg (fun x => some (Instr.rel x)) (FmtM.ofWord_toWord _ f)) hf
theorem swait (f : FmtS) : Statement (.swait f) := by
  intro w hf he
  obtain rfl : f.toWord 0x50 = w := Option.some.inj he
  refine decode_of_raw (FmtS.major_toWord _ f) (by decide) (by decide) ((decodeMajor_50 _).trans ?_) hf
  rw [FmtS.ofWord_toWord]
  have h : (sForm .g .g (· == 1) 0 (fun n => decide (n.toNat < 256)) f && f.csr == 0) = true := hf
  clear hf he
  simp only [sForm, Bool.and_eq_true, beq_iff_eq] at h
  simp [h]
theorem swaitTake (f : FmtS) : Statement (.swaitTake f) := by
  intro w hf he
  obtain rfl : f.toWord 0x50 = w := Option.some.inj he
  refine decode_of_raw (FmtS.major_toWord _ f) (by decide) (by decide) ((decodeMajor_50 _).trans ?_) hf
  rw [FmtS.ofWord_toWord]
  have h : (sForm .g .g (· == 1) 1 (fun n => decide (n.toNat < 256)) f && f.csr == 0) = true := hf
  clear hf he
  simp only [sForm, Bool.and_eq_true, beq_iff_eq] at h
  simp [h]
theorem ssig (f : FmtS) : Statement (.ssig f) := by
  intro w hf he
  obtain rfl : f.toWord 0x51 = w := Option.some.inj he
  exact decode_of_raw (FmtS.major_toWord _ f) (by decide) (by decide)
    (congrArg (fun x => some (Instr.ssig x)) (FmtS.ofWord_toWord _ f)) hf
theorem sadd (f : FmtS) : Statement (.sadd f) := by
  intro w hf he
  obtain rfl : f.toWord 0x52 = w := Option.some.inj he
  exact decode_of_raw (FmtS.major_toWord _ f) (by decide) (by decide)
    (congrArg (fun x => some (Instr.sadd x)) (FmtS.ofWord_toWord _ f)) hf
theorem bara (f : FmtS) : Statement (.bara f) := by
  intro w hf he
  obtain rfl : f.toWord 0x53 = w := Option.some.inj he
  exact decode_of_raw (FmtS.major_toWord _ f) (by decide) (by decide)
    (congrArg (fun x => some (Instr.bara x)) (FmtS.ofWord_toWord _ f)) hf
theorem barw (f : FmtS) : Statement (.barw f) := by
  intro w hf he
  obtain rfl : f.toWord 0x54 = w := Option.some.inj he
  exact decode_of_raw (FmtS.major_toWord _ f) (by decide) (by decide)
    (congrArg (fun x => some (Instr.barw x)) (FmtS.ofWord_toWord _ f)) hf
theorem evpop (f : FmtS) : Statement (.evpop f) := by
  intro w hf he
  obtain rfl : f.toWord 0x55 = w := Option.some.inj he
  refine decode_of_raw (FmtS.major_toWord _ f) (by decide) (by decide) ((decodeMajor_55 _).trans ?_) hf
  rw [FmtS.ofWord_toWord]
  have h : (sForm .ev .no (· == 1) 0 (· == 0) f && f.csr == 0) = true := hf
  clear hf he
  simp only [sForm, Bool.and_eq_true, beq_iff_eq] at h
  simp [h]
theorem evpopPoll (f : FmtS) : Statement (.evpopPoll f) := by
  intro w hf he
  obtain rfl : f.toWord 0x55 = w := Option.some.inj he
  refine decode_of_raw (FmtS.major_toWord _ f) (by decide) (by decide) ((decodeMajor_55 _).trans ?_) hf
  rw [FmtS.ofWord_toWord]
  have h : (sForm .ev .no (· == 1) 1 (· == 0) f && f.csr == 0) = true := hf
  clear hf he
  simp only [sForm, Bool.and_eq_true, beq_iff_eq] at h
  simp [h]
theorem vadd (f : FmtV) : Statement (.vadd f) := by
  intro w hf he
  obtain rfl : f.toWord 0x60 = w := Option.some.inj he
  exact decode_of_raw (FmtV.major_toWord _ f) (by decide) (by decide)
    (congrArg (fun x => some (Instr.vadd x)) (FmtV.ofWord_toWord _ f)) hf
theorem vsub (f : FmtV) : Statement (.vsub f) := by
  intro w hf he
  obtain rfl : f.toWord 0x61 = w := Option.some.inj he
  exact decode_of_raw (FmtV.major_toWord _ f) (by decide) (by decide)
    (congrArg (fun x => some (Instr.vsub x)) (FmtV.ofWord_toWord _ f)) hf
theorem vmul (f : FmtV) : Statement (.vmul f) := by
  intro w hf he
  obtain rfl : f.toWord 0x62 = w := Option.some.inj he
  exact decode_of_raw (FmtV.major_toWord _ f) (by decide) (by decide)
    (congrArg (fun x => some (Instr.vmul x)) (FmtV.ofWord_toWord _ f)) hf
theorem vfma (f : FmtV) : Statement (.vfma f) := by
  intro w hf he
  obtain rfl : f.toWord 0x63 = w := Option.some.inj he
  exact decode_of_raw (FmtV.major_toWord _ f) (by decide) (by decide)
    (congrArg (fun x => some (Instr.vfma x)) (FmtV.ofWord_toWord _ f)) hf
theorem vfms (f : FmtV) : Statement (.vfms f) := by
  intro w hf he
  obtain rfl : f.toWord 0x64 = w := Option.some.inj he
  exact decode_of_raw (FmtV.major_toWord _ f) (by decide) (by decide)
    (congrArg (fun x => some (Instr.vfms x)) (FmtV.ofWord_toWord _ f)) hf
theorem vnfma (f : FmtV) : Statement (.vnfma f) := by
  intro w hf he
  obtain rfl : f.toWord 0x65 = w := Option.some.inj he
  exact decode_of_raw (FmtV.major_toWord _ f) (by decide) (by decide)
    (congrArg (fun x => some (Instr.vnfma x)) (FmtV.ofWord_toWord _ f)) hf
theorem vmin (f : FmtV) : Statement (.vmin f) := by
  intro w hf he
  obtain rfl : f.toWord 0x66 = w := Option.some.inj he
  exact decode_of_raw (FmtV.major_toWord _ f) (by decide) (by decide)
    (congrArg (fun x => some (Instr.vmin x)) (FmtV.ofWord_toWord _ f)) hf
theorem vmax (f : FmtV) : Statement (.vmax f) := by
  intro w hf he
  obtain rfl : f.toWord 0x67 = w := Option.some.inj he
  exact decode_of_raw (FmtV.major_toWord _ f) (by decide) (by decide)
    (congrArg (fun x => some (Instr.vmax x)) (FmtV.ofWord_toWord _ f)) hf
theorem vabs (f : FmtV) : Statement (.vabs f) := by
  intro w hf he
  obtain rfl : f.toWord 0x68 = w := Option.some.inj he
  exact decode_of_raw (FmtV.major_toWord _ f) (by decide) (by decide)
    (congrArg (fun x => some (Instr.vabs x)) (FmtV.ofWord_toWord _ f)) hf
theorem vneg (f : FmtV) : Statement (.vneg f) := by
  intro w hf he
  obtain rfl : f.toWord 0x69 = w := Option.some.inj he
  exact decode_of_raw (FmtV.major_toWord _ f) (by decide) (by decide)
    (congrArg (fun x => some (Instr.vneg x)) (FmtV.ofWord_toWord _ f)) hf
theorem vrcp (f : FmtV) : Statement (.vrcp f) := by
  intro w hf he
  obtain rfl : f.toWord 0x6A = w := Option.some.inj he
  exact decode_of_raw (FmtV.major_toWord _ f) (by decide) (by decide)
    (congrArg (fun x => some (Instr.vrcp x)) (FmtV.ofWord_toWord _ f)) hf
theorem vrsq (f : FmtV) : Statement (.vrsq f) := by
  intro w hf he
  obtain rfl : f.toWord 0x6B = w := Option.some.inj he
  exact decode_of_raw (FmtV.major_toWord _ f) (by decide) (by decide)
    (congrArg (fun x => some (Instr.vrsq x)) (FmtV.ofWord_toWord _ f)) hf
theorem vsqrt (f : FmtV) : Statement (.vsqrt f) := by
  intro w hf he
  obtain rfl : f.toWord 0x6C = w := Option.some.inj he
  exact decode_of_raw (FmtV.major_toWord _ f) (by decide) (by decide)
    (congrArg (fun x => some (Instr.vsqrt x)) (FmtV.ofWord_toWord _ f)) hf
theorem vexp2 (f : FmtV) : Statement (.vexp2 f) := by
  intro w hf he
  obtain rfl : f.toWord 0x6D = w := Option.some.inj he
  exact decode_of_raw (FmtV.major_toWord _ f) (by decide) (by decide)
    (congrArg (fun x => some (Instr.vexp2 x)) (FmtV.ofWord_toWord _ f)) hf
theorem vlog2 (f : FmtV) : Statement (.vlog2 f) := by
  intro w hf he
  obtain rfl : f.toWord 0x6E = w := Option.some.inj he
  exact decode_of_raw (FmtV.major_toWord _ f) (by decide) (by decide)
    (congrArg (fun x => some (Instr.vlog2 x)) (FmtV.ofWord_toWord _ f)) hf
theorem vtanh (f : FmtV) : Statement (.vtanh f) := by
  intro w hf he
  obtain rfl : f.toWord 0x6F = w := Option.some.inj he
  exact decode_of_raw (FmtV.major_toWord _ f) (by decide) (by decide)
    (congrArg (fun x => some (Instr.vtanh x)) (FmtV.ofWord_toWord _ f)) hf
theorem vsin (f : FmtV) : Statement (.vsin f) := by
  intro w hf he
  obtain rfl : f.toWord 0x70 = w := Option.some.inj he
  exact decode_of_raw (FmtV.major_toWord _ f) (by decide) (by decide)
    (congrArg (fun x => some (Instr.vsin x)) (FmtV.ofWord_toWord _ f)) hf
theorem vcos (f : FmtV) : Statement (.vcos f) := by
  intro w hf he
  obtain rfl : f.toWord 0x71 = w := Option.some.inj he
  exact decode_of_raw (FmtV.major_toWord _ f) (by decide) (by decide)
    (congrArg (fun x => some (Instr.vcos x)) (FmtV.ofWord_toWord _ f)) hf
theorem vcvt (f : FmtV) : Statement (.vcvt f) := by
  intro w hf he
  obtain rfl : f.toWord 0x72 = w := Option.some.inj he
  exact decode_of_raw (FmtV.major_toWord _ f) (by decide) (by decide)
    (congrArg (fun x => some (Instr.vcvt x)) (FmtV.ofWord_toWord _ f)) hf
theorem vscale (f : FmtV) : Statement (.vscale f) := by
  intro w hf he
  obtain rfl : f.toWord 0x73 = w := Option.some.inj he
  refine decode_of_raw (FmtV.major_toWord _ f) (by decide) (by decide) ((decodeMajor_73 _).trans ?_) hf
  rw [FmtV.ofWord_toWord]
  have h : (vForm .v .v .g .no (fun c => decide (c.toNat ≤ 3)) (fun r => decide (r.toNat ≤ 3)) (· == 0) .slice true (some 4) f) = true := hf
  clear hf he
  simp only [vForm, Bool.and_eq_true, beq_iff_eq] at h
  simp [h]
theorem vscaleVec (f : FmtV) : Statement (.vscaleVec f) := by
  intro w hf he
  obtain rfl : f.toWord 0x73 = w := Option.some.inj he
  refine decode_of_raw (FmtV.major_toWord _ f) (by decide) (by decide) ((decodeMajor_73 _).trans ?_) hf
  rw [FmtV.ofWord_toWord]
  have h : (vForm .v .v .v .no (fun c => decide (c.toNat ≤ 3)) (fun r => decide (r.toNat ≤ 3)) (· == 1) .slice true (some 4) f) = true := hf
  clear hf he
  simp only [vForm, Bool.and_eq_true, beq_iff_eq] at h
  simp [h]
theorem vseed (f : FmtV) : Statement (.vseed f) := by
  intro w hf he
  obtain rfl : f.toWord 0x74 = w := Option.some.inj he
  exact decode_of_raw (FmtV.major_toWord _ f) (by decide) (by decide)
    (congrArg (fun x => some (Instr.vseed x)) (FmtV.ofWord_toWord _ f)) hf
theorem vcmp (f : FmtV) : Statement (.vcmp f) := by
  intro w hf he
  obtain rfl : f.toWord 0x75 = w := Option.some.inj he
  exact decode_of_raw (FmtV.major_toWord _ f) (by decide) (by decide)
    (congrArg (fun x => some (Instr.vcmp x)) (FmtV.ofWord_toWord _ f)) hf
theorem vsel (f : FmtV) : Statement (.vsel f) := by
  intro w hf he
  obtain rfl : f.toWord 0x76 = w := Option.some.inj he
  exact decode_of_raw (FmtV.major_toWord _ f) (by decide) (by decide)
    (congrArg (fun x => some (Instr.vsel x)) (FmtV.ofWord_toWord _ f)) hf
theorem vand (f : FmtV) : Statement (.vand f) := by
  intro w hf he
  obtain rfl : f.toWord 0x77 = w := Option.some.inj he
  exact decode_of_raw (FmtV.major_toWord _ f) (by decide) (by decide)
    (congrArg (fun x => some (Instr.vand x)) (FmtV.ofWord_toWord _ f)) hf
theorem vor (f : FmtV) : Statement (.vor f) := by
  intro w hf he
  obtain rfl : f.toWord 0x78 = w := Option.some.inj he
  exact decode_of_raw (FmtV.major_toWord _ f) (by decide) (by decide)
    (congrArg (fun x => some (Instr.vor x)) (FmtV.ofWord_toWord _ f)) hf
theorem vxor (f : FmtV) : Statement (.vxor f) := by
  intro w hf he
  obtain rfl : f.toWord 0x79 = w := Option.some.inj he
  exact decode_of_raw (FmtV.major_toWord _ f) (by decide) (by decide)
    (congrArg (fun x => some (Instr.vxor x)) (FmtV.ofWord_toWord _ f)) hf
theorem vnot (f : FmtV) : Statement (.vnot f) := by
  intro w hf he
  obtain rfl : f.toWord 0x7A = w := Option.some.inj he
  exact decode_of_raw (FmtV.major_toWord _ f) (by decide) (by decide)
    (congrArg (fun x => some (Instr.vnot x)) (FmtV.ofWord_toWord _ f)) hf
theorem vshl (f : FmtV) : Statement (.vshl f) := by
  intro w hf he
  obtain rfl : f.toWord 0x7B = w := Option.some.inj he
  exact decode_of_raw (FmtV.major_toWord _ f) (by decide) (by decide)
    (congrArg (fun x => some (Instr.vshl x)) (FmtV.ofWord_toWord _ f)) hf
theorem vshr (f : FmtV) : Statement (.vshr f) := by
  intro w hf he
  obtain rfl : f.toWord 0x7C = w := Option.some.inj he
  exact decode_of_raw (FmtV.major_toWord _ f) (by decide) (by decide)
    (congrArg (fun x => some (Instr.vshr x)) (FmtV.ofWord_toWord _ f)) hf
theorem vsra (f : FmtV) : Statement (.vsra f) := by
  intro w hf he
  obtain rfl : f.toWord 0x7D = w := Option.some.inj he
  exact decode_of_raw (FmtV.major_toWord _ f) (by decide) (by decide)
    (congrArg (fun x => some (Instr.vsra x)) (FmtV.ofWord_toWord _ f)) hf
theorem viadd (f : FmtV) : Statement (.viadd f) := by
  intro w hf he
  obtain rfl : f.toWord 0x7E = w := Option.some.inj he
  exact decode_of_raw (FmtV.major_toWord _ f) (by decide) (by decide)
    (congrArg (fun x => some (Instr.viadd x)) (FmtV.ofWord_toWord _ f)) hf
theorem visub (f : FmtV) : Statement (.visub f) := by
  intro w hf he
  obtain rfl : f.toWord 0x7F = w := Option.some.inj he
  exact decode_of_raw (FmtV.major_toWord _ f) (by decide) (by decide)
    (congrArg (fun x => some (Instr.visub x)) (FmtV.ofWord_toWord _ f)) hf
theorem vimul (f : FmtV) : Statement (.vimul f) := by
  intro w hf he
  obtain rfl : f.toWord 0x80 = w := Option.some.inj he
  exact decode_of_raw (FmtV.major_toWord _ f) (by decide) (by decide)
    (congrArg (fun x => some (Instr.vimul x)) (FmtV.ofWord_toWord _ f)) hf
theorem vimin (f : FmtV) : Statement (.vimin f) := by
  intro w hf he
  obtain rfl : f.toWord 0x81 = w := Option.some.inj he
  exact decode_of_raw (FmtV.major_toWord _ f) (by decide) (by decide)
    (congrArg (fun x => some (Instr.vimin x)) (FmtV.ofWord_toWord _ f)) hf
theorem vimax (f : FmtV) : Statement (.vimax f) := by
  intro w hf he
  obtain rfl : f.toWord 0x82 = w := Option.some.inj he
  exact decode_of_raw (FmtV.major_toWord _ f) (by decide) (by decide)
    (congrArg (fun x => some (Instr.vimax x)) (FmtV.ofWord_toWord _ f)) hf
theorem vred (f : FmtV) : Statement (.vred f) := by
  intro w hf he
  obtain rfl : f.toWord 0x83 = w := Option.some.inj he
  exact decode_of_raw (FmtV.major_toWord _ f) (by decide) (by decide)
    (congrArg (fun x => some (Instr.vred x)) (FmtV.ofWord_toWord _ f)) hf
theorem vperm (f : FmtV) : Statement (.vperm f) := by
  intro w hf he
  obtain rfl : f.toWord 0x84 = w := Option.some.inj he
  exact decode_of_raw (FmtV.major_toWord _ f) (by decide) (by decide)
    (congrArg (fun x => some (Instr.vperm x)) (FmtV.ofWord_toWord _ f)) hf
theorem vbcast (f : FmtV) : Statement (.vbcast f) := by
  intro w hf he
  obtain rfl : f.toWord 0x85 = w := Option.some.inj he
  refine decode_of_raw (FmtV.major_toWord _ f) (by decide) (by decide) ((decodeMajor_85 _).trans ?_) hf
  rw [FmtV.ofWord_toWord]
  have h : (vForm .v .g .no .no anyFmt (· == 0) (· == 0) .slice true (some 1) f) = true := hf
  clear hf he
  simp only [vForm, Bool.and_eq_true, beq_iff_eq] at h
  simp [h]
theorem vbcastLane (f : FmtV) : Statement (.vbcastLane f) := by
  intro w hf he
  obtain rfl : f.toWord 0x85 = w := Option.some.inj he
  refine decode_of_raw (FmtV.major_toWord _ f) (by decide) (by decide) ((decodeMajor_85 _).trans ?_) hf
  rw [FmtV.ofWord_toWord]
  have h : (vForm .v .v .g .no anyFmt (· == 0) (· == 1) .slice true (some 1) f) = true := hf
  clear hf he
  simp only [vForm, Bool.and_eq_true, beq_iff_eq] at h
  simp [h]
theorem vins (f : FmtV) : Statement (.vins f) := by
  intro w hf he
  obtain rfl : f.toWord 0x86 = w := Option.some.inj he
  exact decode_of_raw (FmtV.major_toWord _ f) (by decide) (by decide)
    (congrArg (fun x => some (Instr.vins x)) (FmtV.ofWord_toWord _ f)) hf
theorem vext (f : FmtV) : Statement (.vext f) := by
  intro w hf he
  obtain rfl : f.toWord 0x87 = w := Option.some.inj he
  exact decode_of_raw (FmtV.major_toWord _ f) (by decide) (by decide)
    (congrArg (fun x => some (Instr.vext x)) (FmtV.ofWord_toWord _ f)) hf
theorem vmov (f : FmtV) : Statement (.vmov f) := by
  intro w hf he
  obtain rfl : f.toWord 0x88 = w := Option.some.inj he
  refine decode_of_raw (FmtV.major_toWord _ f) (by decide) (by decide) ((decodeMajor_88 _).trans ?_) hf
  rw [FmtV.ofWord_toWord]
  have h : (vForm .v .v .no .no anyFmt (· == 0) (· == 0) .slice true (some 1) f) = true := hf
  clear hf he
  simp only [vForm, Bool.and_eq_true, beq_iff_eq] at h
  simp [h]
theorem vmovP (f : FmtV) : Statement (.vmovP f) := by
  intro w hf he
  obtain rfl : f.toWord 0x88 = w := Option.some.inj he
  refine decode_of_raw (FmtV.major_toWord _ f) (by decide) (by decide) ((decodeMajor_88 _).trans ?_) hf
  rw [FmtV.ofWord_toWord]
  have h : (vForm .p .v .no .no (· == 0) (· == 0) (· == 1) .slice false (some 1) f) = true := hf
  clear hf he
  simp only [vForm, Bool.and_eq_true, beq_iff_eq] at h
  simp [h]
theorem vmovV (f : FmtV) : Statement (.vmovV f) := by
  intro w hf he
  obtain rfl : f.toWord 0x88 = w := Option.some.inj he
  refine decode_of_raw (FmtV.major_toWord _ f) (by decide) (by decide) ((decodeMajor_88 _).trans ?_) hf
  rw [FmtV.ofWord_toWord]
  have h : (vForm .v .p .no .no (· == 0) (· == 0) (· == 2) .slice false (some 1) f) = true := hf
  clear hf he
  simp only [vForm, Bool.and_eq_true, beq_iff_eq] at h
  simp [h]
theorem vlds (f : FmtV) : Statement (.vlds f) := by
  intro w hf he
  obtain rfl : f.toWord 0x89 = w := Option.some.inj he
  refine decode_of_raw (FmtV.major_toWord _ f) (by decide) (by decide) ((decodeMajor_89 _).trans ?_) hf
  rw [FmtV.ofWord_toWord]
  have h : (vForm .V .g .no .no anyFmt (· == 0) (· == 0) .own true (some 6) f) = true := hf
  clear hf he
  simp only [vForm, Bool.and_eq_true, beq_iff_eq] at h
  simp [h]
theorem vldsFifo (f : FmtV) : Statement (.vldsFifo f) := by
  intro w hf he
  obtain rfl : f.toWord 0x89 = w := Option.some.inj he
  refine decode_of_raw (FmtV.major_toWord _ f) (by decide) (by decide) ((decodeMajor_89 _).trans ?_) hf
  rw [FmtV.ofWord_toWord]
  have h : (vForm .V2 .g .no .no (· == 0) (· == 0) (· == 1) .nil false (some 6) f) = true := hf
  clear hf he
  simp only [vForm, Bool.and_eq_true, beq_iff_eq] at h
  simp [h]
theorem vsts (f : FmtV) : Statement (.vsts f) := by
  intro w hf he
  obtain rfl : f.toWord 0x8A = w := Option.some.inj he
  refine decode_of_raw (FmtV.major_toWord _ f) (by decide) (by decide) ((decodeMajor_8A _).trans ?_) hf
  rw [FmtV.ofWord_toWord]
  have h : (vForm .V .g .no .no anyFmt (· == 0) (· == 0) .own true (some 2) f) = true := hf
  clear hf he
  simp only [vForm, Bool.and_eq_true, beq_iff_eq] at h
  simp [h]
theorem vstsFifo (f : FmtV) : Statement (.vstsFifo f) := by
  intro w hf he
  obtain rfl : f.toWord 0x8A = w := Option.some.inj he
  refine decode_of_raw (FmtV.major_toWord _ f) (by decide) (by decide) ((decodeMajor_8A _).trans ?_) hf
  rw [FmtV.ofWord_toWord]
  have h : (vForm .V2 .g .no .no (· == 0) (· == 0) (· == 1) .nil false (some 2) f) = true := hf
  clear hf he
  simp only [vForm, Bool.and_eq_true, beq_iff_eq] at h
  simp [h]
theorem vldsx (f : FmtV) : Statement (.vldsx f) := by
  intro w hf he
  obtain rfl : f.toWord 0x8B = w := Option.some.inj he
  exact decode_of_raw (FmtV.major_toWord _ f) (by decide) (by decide)
    (congrArg (fun x => some (Instr.vldsx x)) (FmtV.ofWord_toWord _ f)) hf
theorem vsmax (f : FmtV) : Statement (.vsmax f) := by
  intro w hf he
  obtain rfl : f.toWord 0x8C = w := Option.some.inj he
  exact decode_of_raw (FmtV.major_toWord _ f) (by decide) (by decide)
    (congrArg (fun x => some (Instr.vsmax x)) (FmtV.ofWord_toWord _ f)) hf
theorem vmerge (f : FmtV) : Statement (.vmerge f) := by
  intro w hf he
  obtain rfl : f.toWord 0x8D = w := Option.some.inj he
  exact decode_of_raw (FmtV.major_toWord _ f) (by decide) (by decide)
    (congrArg (fun x => some (Instr.vmerge x)) (FmtV.ofWord_toWord _ f)) hf
theorem vquant (f : FmtV) : Statement (.vquant f) := by
  intro w hf he
  obtain rfl : f.toWord 0x8E = w := Option.some.inj he
  exact decode_of_raw (FmtV.major_toWord _ f) (by decide) (by decide)
    (congrArg (fun x => some (Instr.vquant x)) (FmtV.ofWord_toWord _ f)) hf
theorem vdeq (f : FmtV) : Statement (.vdeq f) := by
  intro w hf he
  obtain rfl : f.toWord 0x8F = w := Option.some.inj he
  exact decode_of_raw (FmtV.major_toWord _ f) (by decide) (by decide)
    (congrArg (fun x => some (Instr.vdeq x)) (FmtV.ofWord_toWord _ f)) hf
theorem mxlease (f : FmtT) : Statement (.mxlease f) := by
  intro w hf he
  obtain rfl : f.toWord 0xA0 = w := Option.some.inj he
  exact decode_of_raw (FmtT.major_toWord _ f) (by decide) (by decide)
    (congrArg (fun x => some (Instr.mxlease x)) (FmtT.ofWord_toWord _ f)) hf
theorem mxfree (f : FmtT) : Statement (.mxfree f) := by
  intro w hf he
  obtain rfl : f.toWord 0xA1 = w := Option.some.inj he
  exact decode_of_raw (FmtT.major_toWord _ f) (by decide) (by decide)
    (congrArg (fun x => some (Instr.mxfree x)) (FmtT.ofWord_toWord _ f)) hf
theorem mxmul (f : FmtT) : Statement (.mxmul f) := by
  intro w hf he
  obtain rfl : f.toWord 0xA2 = w := Option.some.inj he
  exact decode_of_raw (FmtT.major_toWord _ f) (by decide) (by decide)
    (congrArg (fun x => some (Instr.mxmul x)) (FmtT.ofWord_toWord _ f)) hf
theorem mxmulc (f : FmtT) : Statement (.mxmulc f) := by
  intro w hf he
  obtain rfl : f.toWord 0xA3 = w := Option.some.inj he
  exact decode_of_raw (FmtT.major_toWord _ f) (by decide) (by decide)
    (congrArg (fun x => some (Instr.mxmulc x)) (FmtT.ofWord_toWord _ f)) hf
theorem mxzero (f : FmtT) : Statement (.mxzero f) := by
  intro w hf he
  obtain rfl : f.toWord 0xA4 = w := Option.some.inj he
  refine decode_of_raw (FmtT.major_toWord _ f) (by decide) (by decide) ((decodeMajor_A4 _).trans ?_) hf
  rw [FmtT.ofWord_toWord]
  have h : (tForm .no .no .no .no 0 none f && z3 f && f.imm == 0) = true := hf
  clear hf he
  simp only [tForm, Bool.and_eq_true, beq_iff_eq] at h
  simp [h]
theorem mxzeroBlk (f : FmtT) : Statement (.mxzeroBlk f) := by
  intro w hf he
  obtain rfl : f.toWord 0xA4 = w := Option.some.inj he
  refine decode_of_raw (FmtT.major_toWord _ f) (by decide) (by decide) ((decodeMajor_A4 _).trans ?_) hf
  rw [FmtT.ofWord_toWord]
  have h : (tForm .no .g .no .no 1 none f && accFmt f) = true := hf
  clear hf he
  simp only [tForm, Bool.and_eq_true, beq_iff_eq] at h
  simp [h]
theorem mxrd (f : FmtT) : Statement (.mxrd f) := by
  intro w hf he
  obtain rfl : f.toWord 0xA5 = w := Option.some.inj he
  refine decode_of_raw (FmtT.major_toWord _ f) (by decide) (by decide) ((decodeMajor_A5 _).trans ?_) hf
  rw [FmtT.ofWord_toWord]
  have h : (tForm .t .g .no .no 0 (some 12) f && accFmt f) = true := hf
  clear hf he
  simp only [tForm, Bool.and_eq_true, beq_iff_eq] at h
  simp [h]
theorem mxrdBand (f : FmtT) : Statement (.mxrdBand f) := by
  intro w hf he
  obtain rfl : f.toWord 0xA5 = w := Option.some.inj he
  refine decode_of_raw (FmtT.major_toWord _ f) (by decide) (by decide) ((decodeMajor_A5 _).trans ?_) hf
  rw [FmtT.ofWord_toWord]
  have h : (tForm .t .g .g .g 1 (some 12) f && f.fa == 1 && f.fb == 0) = true := hf
  clear hf he
  simp only [tForm, Bool.and_eq_true, beq_iff_eq] at h
  simp [h]
theorem mxwr (f : FmtT) : Statement (.mxwr f) := by
  intro w hf he
  obtain rfl : f.toWord 0xA6 = w := Option.some.inj he
  exact decode_of_raw (FmtT.major_toWord _ f) (by decide) (by decide)
    (congrArg (fun x => some (Instr.mxwr x)) (FmtT.ofWord_toWord _ f)) hf
theorem tld (f : FmtT) : Statement (.tld f) := by
  intro w hf he
  obtain rfl : f.toWord 0xA7 = w := Option.some.inj he
  exact decode_of_raw (FmtT.major_toWord _ f) (by decide) (by decide)
    (congrArg (fun x => some (Instr.tld x)) (FmtT.ofWord_toWord _ f)) hf
theorem tst (f : FmtT) : Statement (.tst f) := by
  intro w hf he
  obtain rfl : f.toWord 0xA8 = w := Option.some.inj he
  exact decode_of_raw (FmtT.major_toWord _ f) (by decide) (by decide)
    (congrArg (fun x => some (Instr.tst x)) (FmtT.ofWord_toWord _ f)) hf
theorem tsl (f : FmtT) : Statement (.tsl f) := by
  intro w hf he
  obtain rfl : f.toWord 0xA9 = w := Option.some.inj he
  exact decode_of_raw (FmtT.major_toWord _ f) (by decide) (by decide)
    (congrArg (fun x => some (Instr.tsl x)) (FmtT.ofWord_toWord _ f)) hf
theorem ttran (f : FmtT) : Statement (.ttran f) := by
  intro w hf he
  obtain rfl : f.toWord 0xAA = w := Option.some.inj he
  exact decode_of_raw (FmtT.major_toWord _ f) (by decide) (by decide)
    (congrArg (fun x => some (Instr.ttran x)) (FmtT.ofWord_toWord _ f)) hf
theorem cpy (f : FmtE) : Statement (.cpy f) := by
  intro w hf he
  obtain rfl : f.toWord 0xB0 = w := Option.some.inj he
  refine decode_of_raw (FmtE.major_toWord _ f) (by decide) (by decide) ((decodeMajor_B0 _).trans ?_) hf
  rw [FmtE.ofWord_toWord]
  have h : (eForm .c .g .g (· == 0) f) = true := hf
  clear hf he
  simp only [eForm, Bool.and_eq_true, beq_iff_eq] at h
  simp [h]
theorem cpySt (f : FmtE) : Statement (.cpySt f) := by
  intro w hf he
  obtain rfl : f.toWord 0xB0 = w := Option.some.inj he
  refine decode_of_raw (FmtE.major_toWord _ f) (by decide) (by decide) ((decodeMajor_B0 _).trans ?_) hf
  rw [FmtE.ofWord_toWord]
  have h : (eForm .c .g .g (· == 1) f) = true := hf
  clear hf he
  simp only [eForm, Bool.and_eq_true, beq_iff_eq] at h
  simp [h]
theorem cpyl (f : FmtE) : Statement (.cpyl f) := by
  intro w hf he
  obtain rfl : f.toWord 0xB1 = w := Option.some.inj he
  refine decode_of_raw (FmtE.major_toWord _ f) (by decide) (by decide) ((decodeMajor_B1 _).trans ?_) hf
  rw [FmtE.ofWord_toWord]
  have h : (eForm .c .g .g (· == 0) f) = true := hf
  clear hf he
  simp only [eForm, Bool.and_eq_true, beq_iff_eq] at h
  simp [h]
theorem cpylSt (f : FmtE) : Statement (.cpylSt f) := by
  intro w hf he
  obtain rfl : f.toWord 0xB1 = w := Option.some.inj he
  refine decode_of_raw (FmtE.major_toWord _ f) (by decide) (by decide) ((decodeMajor_B1 _).trans ?_) hf
  rw [FmtE.ofWord_toWord]
  have h : (eForm .c .g .g (· == 1) f) = true := hf
  clear hf he
  simp only [eForm, Bool.and_eq_true, beq_iff_eq] at h
  simp [h]
theorem cpylOo (f : FmtE) : Statement (.cpylOo f) := by
  intro w hf he
  obtain rfl : f.toWord 0xB1 = w := Option.some.inj he
  refine decode_of_raw (FmtE.major_toWord _ f) (by decide) (by decide) ((decodeMajor_B1 _).trans ?_) hf
  rw [FmtE.ofWord_toWord]
  have h : (eForm .c .g .c (· == 2) f) = true := hf
  clear hf he
  simp only [eForm, Bool.and_eq_true, beq_iff_eq] at h
  simp [h]
theorem gath (f : FmtE) : Statement (.gath f) := by
  intro w hf he
  obtain rfl : f.toWord 0xB2 = w := Option.some.inj he
  exact decode_of_raw (FmtE.major_toWord _ f) (by decide) (by decide)
    (congrArg (fun x => some (Instr.gath x)) (FmtE.ofWord_toWord _ f)) hf
theorem scat (f : FmtE) : Statement (.scat f) := by
  intro w hf he
  obtain rfl : f.toWord 0xB3 = w := Option.some.inj he
  exact decode_of_raw (FmtE.major_toWord _ f) (by decide) (by decide)
    (congrArg (fun x => some (Instr.scat x)) (FmtE.ofWord_toWord _ f)) hf
theorem halo (f : FmtE) : Statement (.halo f) := by
  intro w hf he
  obtain rfl : f.toWord 0xB4 = w := Option.some.inj he
  exact decode_of_raw (FmtE.major_toWord _ f) (by decide) (by decide)
    (congrArg (fun x => some (Instr.halo x)) (FmtE.ofWord_toWord _ f)) hf
theorem reshd (f : FmtE) : Statement (.reshd f) := by
  intro w hf he
  obtain rfl : f.toWord 0xB5 = w := Option.some.inj he
  refine decode_of_raw (FmtE.major_toWord _ f) (by decide) (by decide) ((decodeMajor_B5 _).trans ?_) hf
  rw [FmtE.ofWord_toWord]
  have h : (eForm .c .g .no (· == 0) f) = true := hf
  clear hf he
  simp only [eForm, Bool.and_eq_true, beq_iff_eq] at h
  simp [h]
theorem reshdInst (f : FmtE) : Statement (.reshdInst f) := by
  intro w hf he
  obtain rfl : f.toWord 0xB5 = w := Option.some.inj he
  refine decode_of_raw (FmtE.major_toWord _ f) (by decide) (by decide) ((decodeMajor_B5 _).trans ?_) hf
  rw [FmtE.ofWord_toWord]
  have h : (eForm .c .g .no (· == 1) f) = true := hf
  clear hf he
  simp only [eForm, Bool.and_eq_true, beq_iff_eq] at h
  simp [h]
theorem send (f : FmtE) : Statement (.send f) := by
  intro w hf he
  obtain rfl : f.toWord 0xB6 = w := Option.some.inj he
  exact decode_of_raw (FmtE.major_toWord _ f) (by decide) (by decide)
    (congrArg (fun x => some (Instr.send x)) (FmtE.ofWord_toWord _ f)) hf
theorem sendt (f : FmtE) : Statement (.sendt f) := by
  intro w hf he
  obtain rfl : f.toWord 0xB7 = w := Option.some.inj he
  exact decode_of_raw (FmtE.major_toWord _ f) (by decide) (by decide)
    (congrArg (fun x => some (Instr.sendt x)) (FmtE.ofWord_toWord _ f)) hf
theorem mcast (f : FmtE) : Statement (.mcast f) := by
  intro w hf he
  obtain rfl : f.toWord 0xB8 = w := Option.some.inj he
  exact decode_of_raw (FmtE.major_toWord _ f) (by decide) (by decide)
    (congrArg (fun x => some (Instr.mcast x)) (FmtE.ofWord_toWord _ f)) hf
theorem recvadd (f : FmtE) : Statement (.recvadd f) := by
  intro w hf he
  obtain rfl : f.toWord 0xB9 = w := Option.some.inj he
  exact decode_of_raw (FmtE.major_toWord _ f) (by decide) (by decide)
    (congrArg (fun x => some (Instr.recvadd x)) (FmtE.ofWord_toWord _ f)) hf
theorem attn (f : FmtE) : Statement (.attn f) := by
  intro w hf he
  obtain rfl : f.toWord 0xBA = w := Option.some.inj he
  exact decode_of_raw (FmtE.major_toWord _ f) (by decide) (by decide)
    (congrArg (fun x => some (Instr.attn x)) (FmtE.ofWord_toWord _ f)) hf
theorem attnc (f : FmtE) : Statement (.attnc f) := by
  intro w hf he
  obtain rfl : f.toWord 0xBB = w := Option.some.inj he
  exact decode_of_raw (FmtE.major_toWord _ f) (by decide) (by decide)
    (congrArg (fun x => some (Instr.attnc x)) (FmtE.ofWord_toWord _ f)) hf
theorem kvmap (f : FmtE) : Statement (.kvmap f) := by
  intro w hf he
  obtain rfl : f.toWord 0xBC = w := Option.some.inj he
  refine decode_of_raw (FmtE.major_toWord _ f) (by decide) (by decide) ((decodeMajor_BC _).trans ?_) hf
  rw [FmtE.ofWord_toWord]
  have h : (eForm .c .g .g (· == 0) f) = true := hf
  clear hf he
  simp only [eForm, Bool.and_eq_true, beq_iff_eq] at h
  simp [h]
theorem kvmapLen (f : FmtE) : Statement (.kvmapLen f) := by
  intro w hf he
  obtain rfl : f.toWord 0xBC = w := Option.some.inj he
  refine decode_of_raw (FmtE.major_toWord _ f) (by decide) (by decide) ((decodeMajor_BC _).trans ?_) hf
  rw [FmtE.ofWord_toWord]
  have h : (eForm .c .g .g (· == 1) f) = true := hf
  clear hf he
  simp only [eForm, Bool.and_eq_true, beq_iff_eq] at h
  simp [h]
theorem kvunmap (f : FmtE) : Statement (.kvunmap f) := by
  intro w hf he
  obtain rfl : f.toWord 0xBD = w := Option.some.inj he
  exact decode_of_raw (FmtE.major_toWord _ f) (by decide) (by decide)
    (congrArg (fun x => some (Instr.kvunmap x)) (FmtE.ofWord_toWord _ f)) hf
theorem cursRd (f : FmtE) : Statement (.cursRd f) := by
  intro w hf he
  obtain rfl : f.toWord 0xBE = w := Option.some.inj he
  refine decode_of_raw (FmtE.major_toWord _ f) (by decide) (by decide) ((decodeMajor_BE _).trans ?_) hf
  rw [FmtE.ofWord_toWord]
  have h : (eForm .g .g .no (· == 0) f) = true := hf
  clear hf he
  simp only [eForm, Bool.and_eq_true, beq_iff_eq] at h
  simp [h]
theorem cursPlay (f : FmtE) : Statement (.cursPlay f) := by
  intro w hf he
  obtain rfl : f.toWord 0xBE = w := Option.some.inj he
  refine decode_of_raw (FmtE.major_toWord _ f) (by decide) (by decide) ((decodeMajor_BE _).trans ?_) hf
  rw [FmtE.ofWord_toWord]
  have h : (eForm .g .g .no (· == 1) f) = true := hf
  clear hf he
  simp only [eForm, Bool.and_eq_true, beq_iff_eq] at h
  simp [h]
theorem cursGen (f : FmtE) : Statement (.cursGen f) := by
  intro w hf he
  obtain rfl : f.toWord 0xBE = w := Option.some.inj he
  refine decode_of_raw (FmtE.major_toWord _ f) (by decide) (by decide) ((decodeMajor_BE _).trans ?_) hf
  rw [FmtE.ofWord_toWord]
  have h : (eForm .g .g .no (· == 2) f) = true := hf
  clear hf he
  simp only [eForm, Bool.and_eq_true, beq_iff_eq] at h
  simp [h]
theorem cursInit (f : FmtE) : Statement (.cursInit f) := by
  intro w hf he
  obtain rfl : f.toWord 0xBE = w := Option.some.inj he
  refine decode_of_raw (FmtE.major_toWord _ f) (by decide) (by decide) ((decodeMajor_BE _).trans ?_) hf
  rw [FmtE.ofWord_toWord]
  have h : (eForm .g .g .no (· == 3) f) = true := hf
  clear hf he
  simp only [eForm, Bool.and_eq_true, beq_iff_eq] at h
  simp [h]
theorem cursFree (f : FmtE) : Statement (.cursFree f) := by
  intro w hf he
  obtain rfl : f.toWord 0xBE = w := Option.some.inj he
  refine decode_of_raw (FmtE.major_toWord _ f) (by decide) (by decide) ((decodeMajor_BE _).trans ?_) hf
  rw [FmtE.ofWord_toWord]
  have h : (eForm .g .g .no (· == 4) f) = true := hf
  clear hf he
  simp only [eForm, Bool.and_eq_true, beq_iff_eq] at h
  simp [h]
theorem cursRdc (f : FmtE) : Statement (.cursRdc f) := by
  intro w hf he
  obtain rfl : f.toWord 0xBE = w := Option.some.inj he
  refine decode_of_raw (FmtE.major_toWord _ f) (by decide) (by decide) ((decodeMajor_BE _).trans ?_) hf
  rw [FmtE.ofWord_toWord]
  have h : (eForm .g .g .no (· == 5) f) = true := hf
  clear hf he
  simp only [eForm, Bool.and_eq_true, beq_iff_eq] at h
  simp [h]
theorem trunc (f : FmtE) : Statement (.trunc f) := by
  intro w hf he
  obtain rfl : f.toWord 0xBF = w := Option.some.inj he
  exact decode_of_raw (FmtE.major_toWord _ f) (by decide) (by decide)
    (congrArg (fun x => some (Instr.trunc x)) (FmtE.ofWord_toWord _ f)) hf
theorem commit (f : FmtE) : Statement (.commit f) := by
  intro w hf he
  obtain rfl : f.toWord 0xC0 = w := Option.some.inj he
  refine decode_of_raw (FmtE.major_toWord _ f) (by decide) (by decide) ((decodeMajor_C0 _).trans ?_) hf
  rw [FmtE.ofWord_toWord]
  have h : (eForm .g .g .no (· == 0) f) = true := hf
  clear hf he
  simp only [eForm, Bool.and_eq_true, beq_iff_eq] at h
  simp [h]
theorem commitSnap (f : FmtE) : Statement (.commitSnap f) := by
  intro w hf he
  obtain rfl : f.toWord 0xC0 = w := Option.some.inj he
  refine decode_of_raw (FmtE.major_toWord _ f) (by decide) (by decide) ((decodeMajor_C0 _).trans ?_) hf
  rw [FmtE.ofWord_toWord]
  have h : (eForm .g .g .no (· == 1) f) = true := hf
  clear hf he
  simp only [eForm, Bool.and_eq_true, beq_iff_eq] at h
  simp [h]
theorem sinpop (f : FmtE) : Statement (.sinpop f) := by
  intro w hf he
  obtain rfl : f.toWord 0xC1 = w := Option.some.inj he
  exact decode_of_raw (FmtE.major_toWord _ f) (by decide) (by decide)
    (congrArg (fun x => some (Instr.sinpop x)) (FmtE.ofWord_toWord _ f)) hf
theorem launch (f : FmtE) : Statement (.launch f) := by
  intro w hf he
  obtain rfl : f.toWord 0xC2 = w := Option.some.inj he
  exact decode_of_raw (FmtE.major_toWord _ f) (by decide) (by decide)
    (congrArg (fun x => some (Instr.launch x)) (FmtE.ofWord_toWord _ f)) hf
theorem csrrSysFlstat (f : FmtS) : Statement (.csrrSysFlstat f) := by
  intro w hf he
  obtain rfl : f.toWord 0xE0 = w := Option.some.inj he
  refine decode_of_raw (FmtS.major_toWord _ f) (by decide) (by decide) ((decodeMajor_E0 _).trans ?_) hf
  rw [FmtS.ofWord_toWord]
  have h : (sForm .g .no noOrd 0 (· == 0) f && f.csr == 0x104) = true := hf
  clear hf he
  simp only [sForm, Bool.and_eq_true, beq_iff_eq] at h
  simp_all
theorem csrr (f : FmtS) : Statement (.csrr f) := by
  intro w hf he
  obtain rfl : f.toWord 0xE0 = w := Option.some.inj he
  refine decode_of_raw (FmtS.major_toWord _ f) (by decide) (by decide) ((decodeMajor_E0 _).trans ?_) hf
  rw [FmtS.ofWord_toWord]
  have h : (sForm .g .no noOrd 0 (· == 0) f && csrNamed f.csr && f.csr != 0x104) = true := hf
  clear hf he
  simp only [sForm, Bool.and_eq_true, beq_iff_eq] at h
  simp_all
theorem csrwSysCause (f : FmtS) : Statement (.csrwSysCause f) := by
  intro w hf he
  obtain rfl : f.toWord 0xE1 = w := Option.some.inj he
  refine decode_of_raw (FmtS.major_toWord _ f) (by decide) (by decide) ((decodeMajor_E1 _).trans ?_) hf
  rw [FmtS.ofWord_toWord]
  have h : (sForm .no .g noOrd 0 (· == 0) f && f.csr == 0x010) = true := hf
  clear hf he
  simp only [sForm, Bool.and_eq_true, beq_iff_eq] at h
  simp_all
theorem csrwSysPrio (f : FmtS) : Statement (.csrwSysPrio f) := by
  intro w hf he
  obtain rfl : f.toWord 0xE1 = w := Option.some.inj he
  refine decode_of_raw (FmtS.major_toWord _ f) (by decide) (by decide) ((decodeMajor_E1 _).trans ?_) hf
  rw [FmtS.ofWord_toWord]
  have h : (sForm .no .g noOrd 0 (· == 0) f && f.csr == 0x009) = true := hf
  clear hf he
  simp only [sForm, Bool.and_eq_true, beq_iff_eq] at h
  simp_all
theorem csrwSysSave (f : FmtS) : Statement (.csrwSysSave f) := by
  intro w hf he
  obtain rfl : f.toWord 0xE1 = w := Option.some.inj he
  refine decode_of_raw (FmtS.major_toWord _ f) (by decide) (by decide) ((decodeMajor_E1 _).trans ?_) hf
  rw [FmtS.ofWord_toWord]
  have h : (sForm .no .g noOrd 0 (· == 0) f && f.csr == 0x105) = true := hf
  clear hf he
  simp only [sForm, Bool.and_eq_true, beq_iff_eq] at h
  simp_all
theorem csrwSysFq (f : FmtS) : Statement (.csrwSysFq f) := by
  intro w hf he
  obtain rfl : f.toWord 0xE1 = w := Option.some.inj he
  refine decode_of_raw (FmtS.major_toWord _ f) (by decide) (by decide) ((decodeMajor_E1 _).trans ?_) hf
  rw [FmtS.ofWord_toWord]
  have h : (sForm .no .g noOrd 0 (· == 0) f && f.csr == 0x102) = true := hf
  clear hf he
  simp only [sForm, Bool.and_eq_true, beq_iff_eq] at h
  simp_all
theorem csrwSysFlog (f : FmtS) : Statement (.csrwSysFlog f) := by
  intro w hf he
  obtain rfl : f.toWord 0xE1 = w := Option.some.inj he
  refine decode_of_raw (FmtS.major_toWord _ f) (by decide) (by decide) ((decodeMajor_E1 _).trans ?_) hf
  rw [FmtS.ofWord_toWord]
  have h : (sForm .no .g noOrd 0 (· == 0) f && f.csr == 0x103) = true := hf
  clear hf he
  simp only [sForm, Bool.and_eq_true, beq_iff_eq] at h
  simp_all
theorem csrw (f : FmtS) : Statement (.csrw f) := by
  intro w hf he
  obtain rfl : f.toWord 0xE1 = w := Option.some.inj he
  refine decode_of_raw (FmtS.major_toWord _ f) (by decide) (by decide) ((decodeMajor_E1 _).trans ?_) hf
  rw [FmtS.ofWord_toWord]
  have h : (sForm .no .g noOrd 0 (· == 0) f && csrWritable f.csr && !csrwOwn f.csr) = true := hf
  clear hf he
  simp only [sForm, csrwOwn, Bool.and_eq_true, beq_iff_eq] at h
  simp_all
theorem trap (f : FmtS) : Statement (.trap f) := by
  intro w hf he
  obtain rfl : f.toWord 0xE2 = w := Option.some.inj he
  exact decode_of_raw (FmtS.major_toWord _ f) (by decide) (by decide)
    (congrArg (fun x => some (Instr.trap x)) (FmtS.ofWord_toWord _ f)) hf
theorem resumeRetry (f : FmtS) : Statement (.resumeRetry f) := by
  intro w hf he
  obtain rfl : f.toWord 0xE3 = w := Option.some.inj he
  refine decode_of_raw (FmtS.major_toWord _ f) (by decide) (by decide) ((decodeMajor_E3 _).trans ?_) hf
  rw [FmtS.ofWord_toWord]
  have h : (sForm .g .g noOrd 0 (fun n => decide (n.toNat % 0x800000 = 0)) f && f.csr == 0) = true := hf
  clear hf he
  simp only [sForm, Bool.and_eq_true, beq_iff_eq] at h
  simp [h]
theorem resumeSkip (f : FmtS) : Statement (.resumeSkip f) := by
  intro w hf he
  obtain rfl : f.toWord 0xE3 = w := Option.some.inj he
  refine decode_of_raw (FmtS.major_toWord _ f) (by decide) (by decide) ((decodeMajor_E3 _).trans ?_) hf
  rw [FmtS.ofWord_toWord]
  have h : (sForm .g .g noOrd 1 (fun n => decide (n.toNat % 0x800000 = 0)) f && f.csr == 0) = true := hf
  clear hf he
  simp only [sForm, Bool.and_eq_true, beq_iff_eq] at h
  simp [h]
theorem resumeCont (f : FmtS) : Statement (.resumeCont f) := by
  intro w hf he
  obtain rfl : f.toWord 0xE3 = w := Option.some.inj he
  refine decode_of_raw (FmtS.major_toWord _ f) (by decide) (by decide) ((decodeMajor_E3 _).trans ?_) hf
  rw [FmtS.ofWord_toWord]
  have h : (sForm .g .g noOrd 2 (fun n => decide (n.toNat % 0x800000 = 0)) f && f.csr == 0) = true := hf
  clear hf he
  simp only [sForm, Bool.and_eq_true, beq_iff_eq] at h
  simp [h]
theorem resumeKill (f : FmtS) : Statement (.resumeKill f) := by
  intro w hf he
  obtain rfl : f.toWord 0xE3 = w := Option.some.inj he
  refine decode_of_raw (FmtS.major_toWord _ f) (by decide) (by decide) ((decodeMajor_E3 _).trans ?_) hf
  rw [FmtS.ofWord_toWord]
  have h : (sForm .g .g noOrd 3 (fun n => decide (n.toNat % 0x800000 = 0)) f && f.csr == 0) = true := hf
  clear hf he
  simp only [sForm, Bool.and_eq_true, beq_iff_eq] at h
  simp [h]
theorem resumePark (f : FmtS) : Statement (.resumePark f) := by
  intro w hf he
  obtain rfl : f.toWord 0xE3 = w := Option.some.inj he
  refine decode_of_raw (FmtS.major_toWord _ f) (by decide) (by decide) ((decodeMajor_E3 _).trans ?_) hf
  rw [FmtS.ofWord_toWord]
  have h : (sForm .g .g noOrd 4 (fun n => decide (n.toNat % 0x800000 < 0x400)) f && f.csr == 0) = true := hf
  clear hf he
  simp only [sForm, Bool.and_eq_true, beq_iff_eq] at h
  simp [h]
theorem resumeAbort (f : FmtS) : Statement (.resumeAbort f) := by
  intro w hf he
  obtain rfl : f.toWord 0xE3 = w := Option.some.inj he
  refine decode_of_raw (FmtS.major_toWord _ f) (by decide) (by decide) ((decodeMajor_E3 _).trans ?_) hf
  rw [FmtS.ofWord_toWord]
  have h : (sForm .g .g noOrd 5 (fun n => decide (n.toNat % 0x800000 = 0)) f && f.csr == 0) = true := hf
  clear hf he
  simp only [sForm, Bool.and_eq_true, beq_iff_eq] at h
  simp [h]
theorem featTest (f : FmtS) : Statement (.featTest f) := by
  intro w hf he
  obtain rfl : f.toWord 0xE4 = w := Option.some.inj he
  refine decode_of_raw (FmtS.major_toWord _ f) (by decide) (by decide) ((decodeMajor_E4 _).trans ?_) hf
  rw [FmtS.ofWord_toWord]
  have h : (sForm .g .g noOrd 0 (· == 0) f && f.csr == 0) = true := hf
  clear hf he
  simp only [sForm, Bool.and_eq_true, beq_iff_eq] at h
  simp [h]
theorem featReq (f : FmtS) : Statement (.featReq f) := by
  intro w hf he
  obtain rfl : f.toWord 0xE4 = w := Option.some.inj he
  refine decode_of_raw (FmtS.major_toWord _ f) (by decide) (by decide) ((decodeMajor_E4 _).trans ?_) hf
  rw [FmtS.ofWord_toWord]
  have h : (sForm .no .g noOrd 1 (· == 0) f && f.csr == 0) = true := hf
  clear hf he
  simp only [sForm, Bool.and_eq_true, beq_iff_eq] at h
  simp [h]
theorem otinvExt (f : FmtS) : Statement (.otinvExt f) := by
  intro w hf he
  obtain rfl : f.toWord 0xE5 = w := Option.some.inj he
  refine decode_of_raw (FmtS.major_toWord _ f) (by decide) (by decide) ((decodeMajor_E5 _).trans ?_) hf
  rw [FmtS.ofWord_toWord]
  have h : (sForm .g .g noOrd 0 (fun _ => true) f && f.csr == 0) = true := hf
  clear hf he
  simp only [sForm, Bool.and_eq_true, beq_iff_eq] at h
  simp [h]
theorem otinvObj (f : FmtS) : Statement (.otinvObj f) := by
  intro w hf he
  obtain rfl : f.toWord 0xE5 = w := Option.some.inj he
  refine decode_of_raw (FmtS.major_toWord _ f) (by decide) (by decide) ((decodeMajor_E5 _).trans ?_) hf
  rw [FmtS.ofWord_toWord]
  have h : (sForm .g .g noOrd 1 (· == 0) f && f.csr == 0) = true := hf
  clear hf he
  simp only [sForm, Bool.and_eq_true, beq_iff_eq] at h
  simp [h]
theorem otinvAll (f : FmtS) : Statement (.otinvAll f) := by
  intro w hf he
  obtain rfl : f.toWord 0xE5 = w := Option.some.inj he
  refine decode_of_raw (FmtS.major_toWord _ f) (by decide) (by decide) ((decodeMajor_E5 _).trans ?_) hf
  rw [FmtS.ofWord_toWord]
  have h : (sForm .g .no noOrd 2 (· == 0) f && f.csr == 0) = true := hf
  clear hf he
  simp only [sForm, Bool.and_eq_true, beq_iff_eq] at h
  simp [h]
theorem btinvAll (f : FmtS) : Statement (.btinvAll f) := by
  intro w hf he
  obtain rfl : f.toWord 0xE6 = w := Option.some.inj he
  refine decode_of_raw (FmtS.major_toWord _ f) (by decide) (by decide) ((decodeMajor_E6 _).trans ?_) hf
  rw [FmtS.ofWord_toWord]
  have h : (sForm .no .no noOrd 0 (· == 0) f && f.csr == 0) = true := hf
  clear hf he
  simp only [sForm, Bool.and_eq_true, beq_iff_eq] at h
  simp [h]
theorem btinvSeq (f : FmtS) : Statement (.btinvSeq f) := by
  intro w hf he
  obtain rfl : f.toWord 0xE6 = w := Option.some.inj he
  refine decode_of_raw (FmtS.major_toWord _ f) (by decide) (by decide) ((decodeMajor_E6 _).trans ?_) hf
  rw [FmtS.ofWord_toWord]
  have h : (sForm .no .g noOrd 1 (· == 0) f && f.csr == 0) = true := hf
  clear hf he
  simp only [sForm, Bool.and_eq_true, beq_iff_eq] at h
  simp [h]
theorem idle (f : FmtS) : Statement (.idle f) := by
  intro w hf he
  obtain rfl : f.toWord 0xE7 = w := Option.some.inj he
  exact decode_of_raw (FmtS.major_toWord _ f) (by decide) (by decide)
    (congrArg (fun x => some (Instr.idle x)) (FmtS.ofWord_toWord _ f)) hf
theorem yield (f : FmtS) : Statement (.yield f) := by
  intro w hf he
  obtain rfl : f.toWord 0xE8 = w := Option.some.inj he
  exact decode_of_raw (FmtS.major_toWord _ f) (by decide) (by decide)
    (congrArg (fun x => some (Instr.yield x)) (FmtS.ofWord_toWord _ f)) hf
theorem remain (f : FmtS) : Statement (.remain f) := by
  intro w hf he
  obtain rfl : f.toWord 0xE9 = w := Option.some.inj he
  exact decode_of_raw (FmtS.major_toWord _ f) (by decide) (by decide)
    (congrArg (fun x => some (Instr.remain x)) (FmtS.ofWord_toWord _ f)) hf
theorem cfgbankCache (f : FmtS) : Statement (.cfgbankCache f) := by
  intro w hf he
  obtain rfl : f.toWord 0xEA = w := Option.some.inj he
  refine decode_of_raw (FmtS.major_toWord _ f) (by decide) (by decide) ((decodeMajor_EA _).trans ?_) hf
  rw [FmtS.ofWord_toWord]
  have h : (sForm .no .g noOrd 0 (fun n => decide (n.toNat < 512)) f && f.csr == 0) = true := hf
  clear hf he
  simp only [sForm, Bool.and_eq_true, beq_iff_eq] at h
  simp [h]
theorem cfgbankScratch (f : FmtS) : Statement (.cfgbankScratch f) := by
  intro w hf he
  obtain rfl : f.toWord 0xEA = w := Option.some.inj he
  refine decode_of_raw (FmtS.major_toWord _ f) (by decide) (by decide) ((decodeMajor_EA _).trans ?_) hf
  rw [FmtS.ofWord_toWord]
  have h : (sForm .no .g noOrd 1 (fun n => decide (n.toNat < 512)) f && f.csr == 0) = true := hf
  clear hf he
  simp only [sForm, Bool.and_eq_true, beq_iff_eq] at h
  simp [h]
theorem cfgbankFifo (f : FmtS) : Statement (.cfgbankFifo f) := by
  intro w hf he
  obtain rfl : f.toWord 0xEA = w := Option.some.inj he
  refine decode_of_raw (FmtS.major_toWord _ f) (by decide) (by decide) ((decodeMajor_EA _).trans ?_) hf
  rw [FmtS.ofWord_toWord]
  have h : (sForm .no .g noOrd 2 (fun n => decide (n.toNat < 512)) f && f.csr == 0) = true := hf
  clear hf he
  simp only [sForm, Bool.and_eq_true, beq_iff_eq] at h
  simp [h]
theorem mxmulEntry (a : CoreId) : Statement (.mxmulEntry a) := fun _ _ h => nomatch h
theorem leaseGrant (a : ClusterId) : Statement (.leaseGrant a) := fun _ _ h => nomatch h
theorem leaseTimeout (a : ClusterId) : Statement (.leaseTimeout a) := fun _ _ h => nomatch h
theorem bankModeComplete (a : ClusterId) (b : Nat) : Statement (.bankModeComplete a b) := fun _ _ h => nomatch h
theorem engineEntryStart (a : QueueId) : Statement (.engineEntryStart a) := fun _ _ h => nomatch h
theorem engineEntryComplete (a : QueueId) : Statement (.engineEntryComplete a) := fun _ _ h => nomatch h
theorem haloFaceArrival (a : QueueId) (b : Nat) : Statement (.haloFaceArrival a b) := fun _ _ h => nomatch h
theorem reshdRendezvous (a : BitVec 32) (b : BitVec 32) : Statement (.reshdRendezvous a b) := fun _ _ h => nomatch h
theorem reshdInstRendezvous (a : BitVec 32) (b : BitVec 32) : Statement (.reshdInstRendezvous a b) := fun _ _ h => nomatch h
theorem sendtFire (a : SlabId) : Statement (.sendtFire a) := fun _ _ h => nomatch h
theorem attnPage (a : ClusterId) : Statement (.attnPage a) := fun _ _ h => nomatch h
theorem tiermiss (a : ClusterId) : Statement (.tiermiss a) := fun _ _ h => nomatch h
theorem frame (a : Nat) (b : BitVec 256) : Statement (.frame a b) := fun _ _ h => nomatch h
theorem hostLaunch (a : Nat) (b : BitVec 256) (c : BitVec 2048) : Statement (.hostLaunch a b c) := fun _ _ h => nomatch h
theorem launchAccept (a : BitVec 32) : Statement (.launchAccept a) := fun _ _ h => nomatch h
theorem launchEvaluate (a : BitVec 32) (b : DieId) (c : BitVec 32) : Statement (.launchEvaluate a b c) := fun _ _ h => nomatch h
theorem dependenceReport (a : SlabId) (b : BitVec 32) (c : Nat) : Statement (.dependenceReport a b c) := fun _ _ h => nomatch h
theorem crewPlace (a : SlabId) : Statement (.crewPlace a) := fun _ _ h => nomatch h
theorem taskStart (a : ClusterId) (b : BitVec 32) (c : Nat) : Statement (.taskStart a b c) := fun _ _ h => nomatch h
theorem stratumEnd (a : BitVec 32) (b : DieId) (c : BitVec 32) : Statement (.stratumEnd a b c) := fun _ _ h => nomatch h
theorem launchComplete (a : BitVec 32) (b : BitVec 32) : Statement (.launchComplete a b) := fun _ _ h => nomatch h
theorem tokenRefill (a : SlabId) : Statement (.tokenRefill a) := fun _ _ h => nomatch h
theorem skipBlock (a : SlabId) (b : BitVec 32) : Statement (.skipBlock a b) := fun _ _ h => nomatch h
theorem residency (a : BitVec 32) (b : DieId) (c : BitVec 32) : Statement (.residency a b c) := fun _ _ h => nomatch h
theorem preempt (a : SlabId) (b : BitVec 32) : Statement (.preempt a b) := fun _ _ h => nomatch h
theorem drainWindowExpiry (a : ClusterId) (b : BitVec 32) (c : Nat) : Statement (.drainWindowExpiry a b c) := fun _ _ h => nomatch h
theorem checkpoint (a : ClusterId) (b : BitVec 32) (c : Nat) : Statement (.checkpoint a b c) := fun _ _ h => nomatch h
theorem crewRestore (a : SlabId) : Statement (.crewRestore a) := fun _ _ h => nomatch h
theorem watchdog (a : CoreId) (b : Strand) : Statement (.watchdog a b) := fun _ _ h => nomatch h
theorem watchdogEngine (a : QueueId) : Statement (.watchdogEngine a) := fun _ _ h => nomatch h
theorem faultRecordPost (a : SlabId) : Statement (.faultRecordPost a) := fun _ _ h => nomatch h
theorem supervisorRestart (a : SlabId) : Statement (.supervisorRestart a) := fun _ _ h => nomatch h
theorem walkComplete (a : CoreId) (b : BitVec 32) (c : DieId) (d : Nat) : Statement (.walkComplete a b c d) := fun _ _ h => nomatch h
theorem heldAccessProceed (a : CoreId) (b : Strand) : Statement (.heldAccessProceed a b) := fun _ _ h => nomatch h
theorem sideLogReplay (a : CoreId) : Statement (.sideLogReplay a) := fun _ _ h => nomatch h
theorem lineFill (a : LineKey) (b : Option LineKey) : Statement (.lineFill a b) := fun _ _ h => nomatch h
theorem extentMigration (a : BitVec 32) (b : BitVec 32) (c : Nat) (d : BitVec 64) : Statement (.extentMigration a b c d) := fun _ _ h => nomatch h
theorem migrationWindow (a : BitVec 32) : Statement (.migrationWindow a) := fun _ _ h => nomatch h
theorem write (a : DieId) (b : DieId) : Statement (.write a b) := fun _ _ h => nomatch h
theorem read (a : DieId) (b : DieId) : Statement (.read a b) := fun _ _ h => nomatch h
theorem rdata (a : DieId) (b : DieId) : Statement (.rdata a b) := fun _ _ h => nomatch h
theorem atomic (a : DieId) (b : DieId) : Statement (.atomic a b) := fun _ _ h => nomatch h
theorem aresp (a : DieId) (b : DieId) : Statement (.aresp a b) := fun _ _ h => nomatch h
theorem ack (a : DieId) (b : DieId) : Statement (.ack a b) := fun _ _ h => nomatch h
theorem refuse (a : DieId) (b : DieId) : Statement (.refuse a b) := fun _ _ h => nomatch h
theorem busy (a : DieId) (b : DieId) : Statement (.busy a b) := fun _ _ h => nomatch h
theorem busyResend (a : DieId) (b : DieId) : Statement (.busyResend a b) := fun _ _ h => nomatch h
theorem demand (a : DieId) (b : DieId) : Statement (.demand a b) := fun _ _ h => nomatch h
theorem grant (a : DieId) (b : DieId) : Statement (.grant a b) := fun _ _ h => nomatch h
theorem grantExpiry (a : DieId) (b : DieId) : Statement (.grantExpiry a b) := fun _ _ h => nomatch h
theorem flag (a : DieId) (b : DieId) : Statement (.flag a b) := fun _ _ h => nomatch h
theorem semadd (a : DieId) (b : DieId) : Statement (.semadd a b) := fun _ _ h => nomatch h
theorem forward (a : DieId) (b : DieId) : Statement (.forward a b) := fun _ _ h => nomatch h
theorem stream (a : DieId) (b : DieId) : Statement (.stream a b) := fun _ _ h => nomatch h
theorem mgmt (a : DieId) (b : DieId) : Statement (.mgmt a b) := fun _ _ h => nomatch h
theorem regmr (a : Nat) (b : BitVec 256) : Statement (.regmr a b) := fun _ _ h => nomatch h
theorem deregmr (a : Nat) (b : BitVec 256) : Statement (.deregmr a b) := fun _ _ h => nomatch h
theorem resync (a : Option Nat) (b : DieId) (c : BitVec 256) : Statement (.resync a b c) := fun _ _ h => nomatch h
theorem nop (a : Nat) (b : BitVec 256) : Statement (.nop a b) := fun _ _ h => nomatch h
theorem pactCreate (a : Option Nat) (b : DieId) (c : BitVec 256) : Statement (.pactCreate a b c) := fun _ _ h => nomatch h
theorem pactResize (a : Option Nat) (b : DieId) (c : BitVec 256) : Statement (.pactResize a b c) := fun _ _ h => nomatch h
theorem pactCoreReset (a : Option Nat) (b : DieId) (c : BitVec 256) : Statement (.pactCoreReset a b c) := fun _ _ h => nomatch h
theorem pactUncoreReset (a : Option Nat) (b : DieId) (c : BitVec 256) : Statement (.pactUncoreReset a b c) := fun _ _ h => nomatch h
theorem pactDestroy (a : Option Nat) (b : DieId) (c : BitVec 256) : Statement (.pactDestroy a b c) := fun _ _ h => nomatch h
theorem partitionDrainDone (a : BitVec 32) : Statement (.partitionDrainDone a) := fun _ _ h => nomatch h
theorem scrubComplete (a : BitVec 32) (b : BitVec 384) : Statement (.scrubComplete a b) := fun _ _ h => nomatch h
theorem markAdmin (a : DieId) (b : Nat) : Statement (.markAdmin a b) := fun _ _ h => nomatch h
theorem firmwareDelivery (a : DieId) (b : FwImage) : Statement (.firmwareDelivery a b) := fun _ _ h => nomatch h
theorem svnFloorRaise (a : DieId) (b : BitVec 32) : Statement (.svnFloorRaise a b) := fun _ _ h => nomatch h
theorem packageReset (a : DieId) (b : BitVec 3) (c : BitVec 8) : Statement (.packageReset a b c) := fun _ _ h => nomatch h
theorem uncorrectableError (a : DieId) (b : Nat) (c : Nat) : Statement (.uncorrectableError a b c) := fun _ _ h => nomatch h
theorem powerCap (a : DieId) (b : Nat) : Statement (.powerCap a b) := fun _ _ h => nomatch h
theorem powerCapTick (a : DieId) (b : Nat) : Statement (.powerCapTick a b) := fun _ _ h => nomatch h
theorem clockReport (a : DieId) (b : DieId) (c : Nat) : Statement (.clockReport a b c) := fun _ _ h => nomatch h
theorem thermalTrip (a : DieId) (b : Nat) (c : Bool) : Statement (.thermalTrip a b c) := fun _ _ h => nomatch h
theorem matrixEntryComplete (a : CoreId) : Statement (.matrixEntryComplete a) := fun _ _ h => nomatch h
theorem resultLanding (a : CoreId) : Statement (.resultLanding a) := fun _ _ h => nomatch h
theorem correctedError (a : DieId) (b : Nat) (c : Nat) : Statement (.correctedError a b c) := fun _ _ h => nomatch h
theorem cnp (a : DieId) (b : Nat) : Statement (.cnp a b) := fun _ _ h => nomatch h
theorem invalidRequest (a : DieId) (b : Nat) : Statement (.invalidRequest a b) := fun _ _ h => nomatch h
theorem unknownOp (a : Nat) (b : BitVec 2304) : Statement (.unknownOp a b) := fun _ _ h => nomatch h
theorem securedSessionOpen (a : DieId) (b : BitVec 384) : Statement (.securedSessionOpen a b) := fun _ _ h => nomatch h

end Laws.Encoding

end Sys2Proof
end

