-- ==== Sys2Proof/Tests/Slice0.lean ====
section
/-! SUPPORT. Tests of the model: words written out from the spec's encodings, ill-formed fields refused, states that meet
the hypotheses of the statements, and single steps whose results the spec works out. -/

open Sys2Proof Sys2Proof.Machine Sys2Proof.Claims

namespace Sys2Proof.Tests

set_option Elab.async false

/-! ### Helpers -/

/-- The core that executes a placed instruction. -/
abbrev c0 : CoreId := ⟨0, 19⟩
abbrev k0 : ClusterId := ⟨0, 4⟩
abbrev sl0 : SlabId := ⟨0, 0⟩
/-- The instruction stands where the next step fetches; its strand is next. -/
def place (i : Instr) : State := State.reset.withFetchWord 64 ((encode i).getD 0).toNat
/-- The same with the executing task changed. -/
def setup (i : Instr) (g : Task → Task) : State := modTask (place i) c0 g
def me (s : State) : Here := (here s).getD ⟨c0, .as, {}, supTask 0 sl0 0⟩
/-- A task that is no supervisor. -/
def user (t : Task) : Task := { t with crew := { t.crew with lseq := 1 } }
/-- Registers 4, 5 and 6 of both strands. -/
def regs (x y z : W64) (t : Task) : Task := { t with a := [(4, x), (5, y), (6, z)], x := [(4, x), (5, y), (6, z)] }
/-- Ready, as a computation, with no access under way and no earlier ordered write on its way. -/
def readyB (i : Instr) (s : State) : Bool :=
  let h := me s
  here s == some h && h.t.susp.isNone && !capturing s (CoreId.cluster h.core) h.t.pid h.t.taskId && strandOk i h.x &&
  featuresOf i &&& ~~~ h.k.feature == 0 && fieldsOk i && (!supOnly i || isSup h.t) && !interlocked h i &&
  (!h.t.replay || h.t.side.isEmpty) && h.t.remote == .idle && !heldMoving h && !ordWait h.t none
theorem ready_of {i : Instr} {s : State} (r : readyB i s = true) : Ready i s (me s) := by
  simp only [readyB, Bool.and_eq_true, beq_iff_eq, Option.isNone_iff_eq_none, Bool.not_eq_true', Bool.or_eq_true] at r
  obtain ⟨⟨⟨⟨⟨⟨⟨⟨⟨⟨⟨a, b⟩, c⟩, d⟩, e⟩, f⟩, g⟩, i'⟩, j⟩, -⟩, -⟩, -⟩ := r
  refine ⟨a, b, c, d, e, f, ?_, i', ?_⟩
  · intro hs; rcases g with g | g <;> simp_all
  · intro hs; rcases j with j | j <;> simp_all
/-- The task of the executing core after one step of a placed instruction, and a register of it. -/
def after (s : State) : Option Task := match step s with | .next t => (coreAt t c0).task | _ => none
/-- The same after one execution: a user task's fetch needs a kernel object (R131), which these states leave out. -/
def afterI (i : Instr) (s : State) : Option Task := match exec i s with | .next t => (coreAt t c0).task | _ => none
def faultI (i : Instr) (s : State) : Option (Nat × W64) := (afterI i s).bind fun t => t.susp.map fun r => (r.cls, r.d0)
def aReg (s : State) (n : Nat) : Option W64 := (after s).map fun t => lkpD t.a n 0
def xReg (s : State) (n : Nat) : Option W64 := (after s).map fun t => lkpD t.x n 0
def vReg (s : State) (n : Nat) : Option VReg := (after s).map fun t => lkpD t.v n 0
/-- Lane k of a v register after one step. -/
def vLane (s : State) (n w k : Nat) : Option Nat := (vReg s n).map fun v => lane w v k
/-- The XS has ended, so the AS executes alone. -/
def alone (s : State) : State :=
  if (me s).x == .as then modTask s c0 fun t => { t with xs := { t.xs with ended := true } } else s
/-- The class and detail D0 of the fault that one step takes. -/
def faultOfStep (s : State) : Option (Nat × W64) := (after (alone s)).bind fun t => t.susp.map fun r => (r.cls, r.d0)

/-! ### Words written out from the spec's encodings (R157 to R165, R169, R182 to R324) -/

theorem test_decode_scalar :
    decode 0x0218204000A00000 = .ok (.sub ⟨6, 2, 1, 0, 0, 0xA, 0⟩) ∧ decode 0x011C7B00FFFFFFF8 = .ok (.addi ⟨7, 7, 0xB, 0, 0xFFFFFFF8⟩) ∧
    decode 0x1F280B0000000020 = .ok (.li ⟨10, 0, 0xB, 0, 32⟩) ∧ decode 0x1A18500000B00000 = .ok (.slt ⟨6, 5, 0, 0, 0, 0xB, 0⟩) ∧
    decode 0x0F186B0000000001 = .ok (.xori ⟨6, 6, 0xB, 0, 1⟩) := by decide +kernel
theorem test_decode_control :
    decode 0x200020C4FFFFFFFD = .ok (.bc ⟨0, 2, 3, 1, 0, 0xFFFFFFFD⟩) ∧ decode 0x2404000000000008 = .ok (.loopb ⟨1, 0, 0, 0, 0, 8⟩) ∧
    decode 0x25000000FFFFFFFA = .ok (.loope ⟨0, 0, 0, 0, 0, 0xFFFFFFFA⟩) ∧ decode 0x2600000000000002 = .ok (.bqp ⟨0, 0, 0, 0, 0, 2⟩) ∧
    decode 0x2800600002000000 = .ok (.qpush ⟨0, 6, 0, 0, 2, 0, 0⟩) ∧ decode 0x2C00600000000000 = .ok (.bqpush ⟨0, 6, 0, 0, 0, 0, 0⟩) := by
  decide +kernel
theorem test_decode_memory :
    decode 0x4010317800000010 = .ok (.ld ⟨4, 3, 5, 0xE, 0, 0, 0, 16⟩) ∧ decode 0x411C102C00000020 = .ok (.st ⟨7, 1, 0, 0xB, 0, 0, 0, 32⟩) ∧
    decode 0x420041CC00000000 = .ok (.ldt ⟨0, 4, 7, 3, 0, 0, 0, 0⟩) ∧ decode 0x4500300000000100 = .ok (.cboClean ⟨0, 3, 0, 0, 0, 0, 0, 256⟩) ∧
    decode 0x4608300001000000 = .ok (.otqCnt ⟨2, 3, 0, 0, 0, 0, 1, 0⟩) ∧ decode 0x4718303C00000040 = .ok (.ldv ⟨6, 3, 0, 15, 0, 0, 0, 64⟩) ∧
    decode 0x4824530162000000 = .ok (.vals ⟨9, 5, 12, 0, 1, 3, 2, 0⟩) ∧ decode 0x320C124A00000000 = .ok (.cnarrow ⟨3, 1, 9, 10, 0, 0, 0⟩) := by
  decide +kernel
theorem test_decode_atomic :
    decode 0x4910617B60000000 = .ok (.amo ⟨4, 6, 5, 14, 3, 3, 0, 0⟩) ∧ decode 0x4910617C10000008 = .ok (.amoReduce ⟨4, 6, 5, 15, 0, 0, 16, 8⟩) ∧
    decode 0x4B0862BC00000000 = .ok (.cas ⟨2, 6, 10, 15, 0, 0, 0, 0⟩) ∧ decode 0x4C0862BE60000000 = .ok (.casv ⟨2, 6, 10, 15, 2, 3, 0, 0⟩) := by
  decide +kernel
theorem test_decode_sync :
    decode 0x4D00000098000000 = .ok (.fence ⟨0, 0, 0, 4, 3, 0, 0⟩) ∧ decode 0x500030002800000C = .ok (.swait ⟨0, 3, 0, 1, 1, 0, 12⟩) ∧
    decode 0x510000005000000C = .ok (.ssig ⟨0, 0, 0, 2, 2, 0, 12⟩) := by decide +kernel
theorem test_decode_vector :
    decode 0x631461C832100000 = .ok (.vfma ⟨5, 6, 7, 8, 6, 2, 1, 0, 0, 0⟩) ∧ decode 0x7218200020481001 = .ok (.vcvt ⟨6, 2, 0, 0, 4, 0, 4, 4, 1, 1⟩) ∧
    decode 0x8910500032100002 = .ok (.vlds ⟨4, 5, 0, 0, 6, 2, 1, 0, 0, 2⟩) ∧ decode 0x750C518010102000 = .ok (.vcmp ⟨3, 5, 6, 0, 2, 0, 1, 0, 2, 0⟩) ∧
    decode 0x831C300041100000 = .ok (.vred ⟨7, 3, 0, 0, 8, 1, 1, 0, 0, 0⟩) ∧ decode 0x8C28420040100000 = .ok (.vsmax ⟨10, 4, 8, 0, 8, 0, 1, 0, 0, 0⟩) ∧
    decode 0x8D31050040100000 = .ok (.vmerge ⟨12, 16, 20, 0, 8, 0, 1, 0, 0, 0⟩) ∧ decode 0x8E20314030102000 = .ok (.vquant ⟨8, 3, 5, 0, 6, 0, 1, 0, 2, 0⟩) ∧
    decode 0x2D30000010300000 = .ok (.vpopq ⟨12, 0, 0, 0, 2, 0, 3, 0, 0, 0⟩) ∧ decode 0x2E00100000000000 = .ok (.vpushq ⟨0, 1, 0, 0, 0, 0, 0, 0, 0, 0⟩) := by
  decide +kernel
theorem test_decode_matrix :
    decode 0xA000000000000000 = .ok (.mxlease ⟨0, 0, 0, 0, 0, 0, 0, 0, 0⟩) ∧ decode 0xA200414001980100 = .ok (.mxmul ⟨0, 4, 5, 0, 0, 3, 3, 0, 256⟩) ∧
    decode 0xA50461C860810009 = .ok (.mxrdBand ⟨1, 6, 7, 8, 12, 1, 0, 1, 9⟩) ∧ decode 0xA708414040000000 = .ok (.tld ⟨2, 4, 5, 0, 8, 0, 0, 0, 0⟩) ∧
    decode 0xAA08300030800000 = .ok (.ttran ⟨2, 3, 0, 0, 6, 1, 0, 0, 0⟩) := by decide +kernel
theorem test_decode_engine :
    decode 0xB000428BC0C1C002 = .ok (.cpy ⟨0, 4, 10, 11, 1, 1, 3, 7, 0, 2⟩) ∧ decode 0xB100518740024400 = .ok (.cpylSt ⟨0, 5, 6, 7, 0, 1, 0, 9, 1, 0⟩) ∧
    decode 0xB4004146C080C001 = .ok (.halo ⟨0, 4, 5, 6, 1, 1, 2, 3, 0, 1⟩) ∧ decode 0xB7003209C1418404 = .ok (.sendt ⟨0, 3, 8, 9, 1, 1, 5, 6, 1, 4⟩) ∧
    decode 0xBA0861C840030000 = .ok (.attn ⟨2, 6, 7, 8, 0, 1, 0, 12, 0, 0⟩) ∧ decode 0xBC14918700000000 = .ok (.kvmap ⟨5, 9, 6, 7, 0, 0, 0, 0, 0, 0⟩) ∧
    decode 0xC20C414000000000 = .ok (.launch ⟨3, 4, 5, 0, 0, 0, 0, 0, 0, 0⟩) := by decide +kernel
theorem test_decode_stream :
    decode 0xBE14A00000001400 = .ok (.cursRdc ⟨5, 10, 0, 0, 0, 0, 0, 0, 5, 0⟩) ∧ decode 0xBE14A34000000800 = .ok (.cursGen ⟨5, 10, 13, 0, 0, 0, 0, 0, 2, 0⟩) ∧
    decode 0xBF10928B00000000 = .ok (.trunc ⟨4, 9, 10, 11, 0, 0, 0, 0, 0, 0⟩) ∧ decode 0xC018A30000000000 = .ok (.commit ⟨6, 10, 12, 0, 0, 0, 0, 0, 0, 0⟩) ∧
    decode 0xC11CA00000000000 = .ok (.sinpop ⟨7, 10, 0, 0, 0, 0, 0, 0, 0, 0⟩) := by decide +kernel
theorem test_decode_system :
    decode 0xE024000400000000 = .ok (.csrr ⟨9, 0, 4, 0, 0, 0, 0⟩) ∧ decode 0xE200400000000021 = .ok (.trap ⟨0, 4, 0, 0, 0, 0, 0x21⟩) ∧
    decode 0xE900000000000028 = .ok (.remain ⟨0, 0, 0, 0, 0, 0, 40⟩) := by decide +kernel
theorem test_tableWord : decodeTableWord 64 0x000C414000B00000 = some (.add ⟨3, 4, 5, 0, 0, 0xB, 0⟩) := by decide +kernel

/-! ### Ill-formed fields, one for each check of R173 on them -/

theorem smoke_unusedField : ¬ (Instr.add ⟨3, 4, 5, 1, 0, 0xB, 0⟩).WellFormed ∧ ¬ (Instr.add ⟨3, 4, 5, 0, 0, 0xB, 1⟩).WellFormed := by decide +kernel
theorem smoke_registerRange : ¬ (Instr.add ⟨32, 4, 5, 0, 0, 0xB, 0⟩).WellFormed ∧ ¬ (Instr.cnarrow ⟨16, 1, 9, 10, 0, 0, 0⟩).WellFormed ∧
    ¬ (Instr.ttran ⟨8, 3, 0, 0, 6, 1, 0, 0, 0⟩).WellFormed ∧ ¬ (Instr.attn ⟨2, 6, 7, 12, 0, 1, 0, 12, 0, 0⟩).WellFormed := by decide +kernel
theorem smoke_registerPair : ¬ (Instr.ldv ⟨7, 3, 0, 15, 0, 0, 0, 64⟩).WellFormed ∧ ¬ (Instr.cas ⟨0, 6, 10, 15, 0, 0, 0, 0⟩).WellFormed ∧
    ¬ (Instr.evpop ⟨6, 0, 0, 0, 1, 0, 0⟩).WellFormed ∧ ¬ (Instr.vsmax ⟨9, 4, 8, 0, 8, 0, 1, 0, 0, 0⟩).WellFormed := by decide +kernel
theorem smoke_retRegister : ¬ (Instr.ret ⟨0, 0, 0, 0, 0, 0⟩).WellFormed := by decide +kernel
theorem smoke_type : ¬ (Instr.add ⟨3, 4, 5, 0, 0, 0, 0⟩).WellFormed ∧ ¬ (Instr.amo ⟨4, 6, 5, 8, 0, 0, 0, 0⟩).WellFormed ∧
    ¬ (Instr.vexp2 ⟨1, 2, 0, 0, 8, 0, 0, 0, 0, 0⟩).WellFormed ∧ ¬ (Instr.vpopq ⟨12, 0, 0, 0, 2, 0, 7, 0, 0, 0⟩).WellFormed := by decide +kernel
theorem smoke_function : ¬ (Instr.li ⟨10, 0, 0xB, 2, 32⟩).WellFormed ∧ ¬ (Instr.vals ⟨9, 5, 12, 0, 1, 3, 8, 0⟩).WellFormed ∧
    ¬ (Instr.amo ⟨4, 6, 5, 14, 3, 3, 9, 0⟩).WellFormed := by decide +kernel
theorem smoke_latency : ¬ (Instr.vfma ⟨5, 6, 7, 8, 2, 2, 1, 0, 0, 0⟩).WellFormed ∧ ¬ (Instr.mxlease ⟨0, 0, 0, 0, 1, 0, 0, 0, 0⟩).WellFormed := by decide +kernel
theorem smoke_shiftImmediate : ¬ (Instr.shli ⟨3, 4, 0xA, 0, 32⟩).WellFormed ∧ (Instr.shli ⟨3, 4, 0xA, 0, 31⟩).WellFormed := by decide +kernel
theorem smoke_condition : ¬ (Instr.bc ⟨0, 2, 3, 6, 0, 1⟩).WellFormed ∧ ¬ (Instr.j ⟨0, 0, 0, 1, 0, 1⟩).WellFormed := by decide +kernel
theorem smoke_queueNumber : ¬ (Instr.qcnt ⟨4, 0, 0, 0, 4, 0, 0⟩).WellFormed := by decide +kernel
theorem smoke_order : ¬ (Instr.ld ⟨4, 3, 5, 0xE, 1, 3, 0, 16⟩).WellFormed ∧ ¬ (Instr.fence ⟨0, 0, 0, 4, 0, 0, 0⟩).WellFormed ∧
    ¬ (Instr.fence ⟨0, 0, 0, 5, 3, 0, 0⟩).WellFormed ∧ ¬ (Instr.amo ⟨4, 6, 5, 14, 0, 1, 0, 0⟩).WellFormed := by decide +kernel
theorem smoke_rounding : ¬ (Instr.vfma ⟨5, 6, 7, 8, 6, 2, 1, 4, 0, 0⟩).WellFormed ∧ ¬ (Instr.vred ⟨7, 3, 0, 0, 8, 1, 1, 1, 1, 0⟩).WellFormed := by decide +kernel
theorem smoke_slices : ¬ (Instr.vadd ⟨2, 33, 34, 0, 4, 0, 1, 0, 0, 0⟩).WellFormed ∧ ¬ (Instr.vadd ⟨2, 33, 4, 0, 4, 0, 1, 0, 0, 0x400⟩).WellFormed ∧
    ¬ (Instr.vadd ⟨2, 3, 4, 0, 4, 0, 1, 0, 0, 1⟩).WellFormed ∧ ¬ (Instr.vins ⟨33, 4, 0, 0, 1, 0, 1, 0, 0, 0⟩).WellFormed := by decide +kernel
theorem smoke_predicate : ¬ (Instr.vmovP ⟨1, 2, 0, 0, 1, 1, 0, 0, 1, 0⟩).WellFormed := by decide +kernel
theorem smoke_convert : ¬ (Instr.vcvt ⟨6, 2, 0, 0, 4, 0, 4, 4, 4, 1⟩).WellFormed ∧ ¬ (Instr.vcvt ⟨6, 2, 0, 0, 4, 0, 2, 4, 0, 1⟩).WellFormed ∧
    ¬ (Instr.vcvt ⟨6, 2, 0, 0, 4, 0, 4, 0, 8, 1⟩).WellFormed := by decide +kernel
theorem smoke_compare : ¬ (Instr.vcmp ⟨3, 5, 6, 0, 2, 0, 10, 0, 6, 0⟩).WellFormed ∧ ¬ (Instr.vcmp ⟨3, 5, 6, 0, 2, 0, 1, 0, 18, 0⟩).WellFormed := by decide +kernel
theorem smoke_laneIndex : ¬ (Instr.vins ⟨1, 4, 0, 0, 1, 0, 1, 0, 0, 32⟩).WellFormed ∧ (Instr.vins ⟨1, 4, 0, 0, 1, 0, 1, 0, 0, 31⟩).WellFormed := by decide +kernel
theorem smoke_matrixFormats : ¬ (Instr.mxmul ⟨0, 4, 5, 0, 0, 0, 3, 0, 16⟩).WellFormed ∧ ¬ (Instr.mxmul ⟨0, 4, 5, 0, 0, 6, 6, 0, 8⟩).WellFormed ∧
    ¬ (Instr.mxmul ⟨0, 4, 5, 0, 0, 3, 3, 0, 0⟩).WellFormed ∧ ¬ (Instr.mxmul ⟨0, 4, 5, 0, 0, 3, 3, 0, 4097⟩).WellFormed ∧
    ¬ (Instr.mxmulc ⟨0, 4, 5, 0, 0, 4, 4, 0, 16⟩).WellFormed := by decide +kernel
theorem smoke_tileImmediate : ¬ (Instr.tsl ⟨2, 3, 4, 5, 2, 0, 0, 0, 1⟩).WellFormed ∧ ¬ (Instr.ttran ⟨2, 3, 0, 0, 6, 3, 0, 0, 0⟩).WellFormed := by decide +kernel
theorem smoke_semaphoreFields : ¬ (Instr.cpy ⟨0, 4, 10, 11, 0, 1, 3, 7, 0, 0⟩).WellFormed ∧ ¬ (Instr.cpy ⟨0, 4, 10, 11, 0, 0, 0, 7, 0, 0⟩).WellFormed ∧
    ¬ (Instr.sendt ⟨0, 3, 8, 9, 0, 1, 0, 6, 1, 0⟩).WellFormed ∧ ¬ (Instr.swait ⟨0, 3, 0, 1, 1, 0, 256⟩).WellFormed ∧
    ¬ (Instr.barw ⟨0, 3, 0, 1, 1, 0, 64⟩).WellFormed := by decide +kernel
theorem smoke_register : ¬ (Instr.csrr ⟨9, 0, 5, 0, 0, 0, 0⟩).WellFormed ∧ ¬ (Instr.csrw ⟨0, 5, 1, 0, 0, 0, 0⟩).WellFormed := by decide +kernel

/-! ### Every strand form executes somewhere: a state that is ready for it -/

/-- Shared fields: destination 6, sources 4 and 5. -/
abbrev fR (fn : BitVec 8 := 0) : FmtR := ⟨6, 4, 5, 0, fn, 0xB, 0⟩
abbrev fI : FmtI := ⟨6, 4, 0xB, 0, 3⟩
abbrev fM (dst : BitVec 6) (ty : BitVec 4) (fn : BitVec 5 := 0) (ord : BitVec 2 := 0) : FmtM := ⟨dst, 1, 5, ty, ord, 0, fn, 0⟩
/-- A vector form with three operands in format `fmt`. -/
abbrev fV (fmt : BitVec 4) (lat : BitVec 5) (fn : BitVec 5 := 0) (aux : BitVec 12 := 0) : FmtV := ⟨6, 4, 5, 0, lat, 1, fmt, 0, fn, aux⟩
abbrev fV1 (fmt : BitVec 4) (lat : BitVec 5) (fn : BitVec 5 := 0) (aux : BitVec 12 := 0) : FmtV := ⟨6, 4, 0, 0, lat, 1, fmt, 0, fn, aux⟩
abbrev fE (fn : BitVec 4 := 0) : FmtE := ⟨6, 2, 4, 5, 0, 0, 0, 0, fn, 0⟩
abbrev fE2 (fn : BitVec 4 := 0) : FmtE := ⟨6, 2, 4, 0, 0, 0, 0, 0, fn, 0⟩
abbrev fS (fn : BitVec 3 := 0) (csr : BitVec 12 := 0) : FmtS := ⟨6, 4, csr, 0, 0, fn, 0⟩

def twoOpForms : List Instr := [.add fR, .sub fR, .mul fR, .mulh fR, .mulhz fR, .div fR, .divz fR, .rem fR, .remz fR, .and fR, .or fR,
  .xor fR, .shl fR, .shr fR, .sra fR, .min fR, .max fR, .minz fR, .maxz fR, .slt fR, .sltz fR, .seq fR, .sel ⟨6, 4, 5, 6, 0, 0xB, 0⟩]
def immForms : List Instr := [.addi fI, .andi fI, .ori fI, .xori fI, .shli fI, .shri fI, .srai fI]
def oneOpForms : List Instr := [.clz ⟨6, 4, 0, 0, 0, 0xA, 0⟩, .ctz ⟨6, 4, 0, 0, 1, 0xA, 0⟩, .popc ⟨6, 4, 0, 0, 2, 0xA, 0⟩,
  .mov ⟨6, 4, 0, 0, 3, 0xA, 0⟩, .ext (fR 4), .li ⟨6, 0, 0xE, 0, 7⟩, .lih ⟨6, 0, 0xF, 1, 7⟩]
def controlForms : List Instr := [.bc ⟨0, 4, 5, 0, 0, 2⟩, .j ⟨0, 4, 0, 0, 0, 2⟩, .call ⟨6, 0, 0, 0, 0, 2⟩, .ret ⟨0, 4, 0, 0, 0, 2⟩,
  .loopb ⟨4, 0, 0, 0, 0, 2⟩, .loope ⟨0, 0, 0, 0, 0, 2⟩, .bqp ⟨0, 0, 0, 0, 0, 2⟩, .endS ⟨0, 0, 0, 0, 0, 0, 0⟩]
def queueForms : List Instr := [.qpush ⟨0, 4, 0, 0, 0, 0, 0⟩, .qpop ⟨6, 0, 0, 0, 2, 0, 0⟩, .qpeek ⟨6, 0, 0, 0, 3, 0, 0⟩,
  .qcnt ⟨6, 0, 0, 0, 1, 0, 0⟩, .bqpush ⟨0, 4, 0, 0, 0, 0, 0⟩]
def capForms : List Instr := [.cnarrow ⟨2, 1, 4, 5, 0, 0, 0⟩, .crights ⟨2, 1, 4, 0, 0, 0, 0⟩, .coff ⟨2, 1, 4, 0, 0, 0, 0⟩,
  .cget ⟨6, 1, 4, 0, 0, 0, 0⟩, .clgen ⟨2, 1, 0, 0, 0, 0, 0⟩]
def memForms : List Instr := [.ld (fM 6 0xE), .st (fM 6 0xE), .cld (fM 2 0), .cst (fM 2 0), .ldt (fM 0 3), .stt (fM 0 3), .pfL1 (fM 0 0),
  .pfL2 (fM 0 0 1), .cboClean (fM 0 0), .cboInval (fM 0 0 1), .cboFlush (fM 0 0 2), .otqAttr (fM 6 0), .otqCnt (fM 6 0 1),
  .otqDims (fM 6 0 2), .otqLayout (fM 6 0 3), .otqPlanes (fM 6 0 4), .otqExt (fM 6 0 5), .ldv (fM 6 0xB), .vals (fM 6 0 7 1),
  .amo (fM 6 0xE), .amoReduce (fM 6 0xF 23), .amofFadd (fM 6 1), .amofFmax (fM 6 3 1), .cas (fM 4 0xA), .casv (fM 4 0xF),
  .acq (fM 6 0xB 0 1), .rel (fM 6 0xB 0 2)]
def syncForms : List Instr := [.fence ⟨0, 0, 0, 4, 3, 0, 0⟩, .swait ⟨6, 4, 0, 1, 1, 0, 255⟩, .swaitTake ⟨6, 4, 0, 1, 1, 1, 3⟩,
  .ssig ⟨0, 0, 0, 1, 2, 0, 3⟩, .sadd ⟨6, 4, 0, 1, 2, 0, 3⟩, .bara ⟨6, 4, 0, 1, 2, 0, 31⟩, .barw ⟨0, 4, 0, 1, 1, 0, 31⟩,
  .evpop ⟨4, 0, 0, 1, 1, 0, 0⟩, .evpopPoll ⟨28, 0, 0, 1, 1, 1, 0⟩]
def floatForms : List Instr := [.vadd (fV 1 4), .vsub (fV 0 4), .vmul (fV 2 4), .vfma ⟨6, 4, 5, 3, 4, 1, 3, 3, 0, 0⟩,
  .vfms ⟨6, 4, 5, 3, 4, 1, 1, 1, 0, 0⟩, .vnfma ⟨6, 4, 5, 3, 4, 1, 1, 2, 0, 0⟩, .vmin (fV 1 4 1), .vmax (fV 1 4), .vrcp (fV1 1 8),
  .vrsq (fV1 1 8), .vsqrt (fV1 0 8), .vexp2 (fV1 2 8), .vlog2 (fV1 3 8), .vtanh (fV1 1 8), .vsin (fV1 1 8), .vcos (fV1 1 8),
  .vscale (fV 1 4), .vscaleVec (fV 1 4 1)]
def intForms : List Instr := [.vabs (fV1 0xA 1), .vneg (fV1 1 1), .vand (fV 6 1), .vor (fV 0 1), .vxor (fV 0xF 1), .vnot (fV1 4 1),
  .vshl (fV 0xA 1), .vshr (fV 0xE 1), .vsra (fV 9 1), .viadd (fV 8 1 1), .visub (fV 0xC 1 1), .vimul (fV 0xB 3 1), .vimin (fV 0xA 1),
  .vimax (fV 0xE 1), .vmov (fV1 5 1)]
def moveForms : List Instr := [.vsel (fV 1 1), .vperm ⟨6, 4, 5, 3, 3, 1, 0, 0, 0, 0⟩, .vbcast (fV1 1 1), .vbcastLane (fV 1 1 1),
  .vins (fV1 1 1 0 31), .vext ⟨6, 4, 5, 0, 1, 0, 1, 0, 1, 0⟩, .vmovP ⟨2, 4, 0, 0, 1, 0, 0, 0, 1, 0⟩, .vmovV ⟨6, 2, 0, 0, 1, 0, 0, 0, 2, 0⟩,
  .vpopq ⟨6, 0, 0, 0, 2, 1, 3, 0, 0, 0⟩, .vpushq ⟨0, 4, 0, 0, 0, 0, 0, 0, 0, 0⟩, .vcmp ⟨2, 4, 5, 0, 2, 1, 1, 0, 7, 0⟩,
  .vred (fV1 1 8 8), .vcvt ⟨6, 4, 0, 0, 4, 1, 4, 4, 3, 1⟩, .vseed ⟨0, 4, 0, 0, 1, 1, 0, 0, 0, 0⟩, .vsmax (fV 1 8), .vmerge ⟨6, 4, 2, 0, 8, 1, 1, 0, 0, 0⟩,
  .vquant ⟨6, 4, 5, 0, 6, 0, 1, 0, 7, 0⟩, .vdeq ⟨6, 4, 5, 3, 4, 1, 3, 0, 3, 0⟩]
def scratchForms : List Instr := [.vlds (fV1 1 6), .vldsFifo ⟨6, 4, 0, 0, 6, 0, 0, 0, 1, 0⟩, .vsts (fV1 1 2),
  .vstsFifo ⟨6, 4, 0, 0, 2, 0, 0, 0, 1, 0⟩, .vldsx (fV 1 6), .tld ⟨1, 4, 5, 0, 8, 0, 0, 0, 0⟩, .tst ⟨1, 4, 5, 0, 4, 0, 0, 0, 0⟩]
def matrixForms : List Instr := [.mxlease ⟨0, 0, 0, 0, 0, 0, 0, 0, 0⟩, .mxfree ⟨0, 0, 0, 0, 0, 0, 0, 0, 0⟩, .mxmul ⟨0, 4, 5, 0, 0, 3, 3, 0, 16⟩,
  .mxmulc ⟨0, 4, 5, 0, 0, 2, 3, 1, 4096⟩, .mxzero ⟨0, 0, 0, 0, 0, 0, 0, 0, 0⟩, .mxzeroBlk ⟨0, 4, 0, 0, 0, 1, 0, 1, 9⟩,
  .mxrd ⟨1, 4, 0, 0, 12, 1, 0, 0, 9⟩, .mxrdBand ⟨1, 4, 5, 6, 12, 1, 0, 1, 9⟩, .mxwr ⟨0, 4, 1, 0, 0, 0, 0, 0, 7⟩,
  .tsl ⟨2, 3, 4, 5, 2, 0, 0, 0, 0x8210⟩, .ttran ⟨2, 3, 0, 0, 6, 1, 0, 0, 0⟩]
def engineForms : List Instr := [.cpy fE, .cpySt (fE 1), .cpyl fE, .cpylSt (fE 1), .cpylOo (fE 2), .gath fE, .scat fE, .halo fE, .reshd fE2,
  .reshdInst (fE2 1), .send (fE 2), .sendt ⟨6, 2, 4, 5, 1, 0, 3, 0, 1, 1⟩, .mcast fE, .recvadd (fE2 2), .attn fE, .attnc fE, .kvmap fE,
  .kvmapLen (fE 1), .kvunmap fE2, .cursRd fE2, .cursPlay (fE2 1), .cursGen (fE2 2), .cursInit (fE2 3), .cursFree (fE2 4), .cursRdc (fE2 5),
  .trunc fE, .commit fE2, .commitSnap (fE2 1), .sinpop ⟨6, 2, 0, 0, 0, 0, 0, 0, 0, 0⟩, .launch fE2]
def systemForms : List Instr := [.csrr ⟨6, 0, 0, 0, 0, 0, 0⟩, .csrr ⟨6, 0, 0x10, 0, 0, 0, 0⟩, .csrrSysFlstat ⟨6, 0, 0x104, 0, 0, 0, 0⟩,
  .csrw ⟨0, 4, 8, 0, 0, 0, 0⟩, .csrw ⟨0, 4, 0x101, 0, 0, 0, 0⟩, .csrwSysCause ⟨0, 4, 0x10, 0, 0, 0, 0⟩, .csrwSysPrio ⟨0, 4, 9, 0, 0, 0, 0⟩,
  .csrwSysSave ⟨0, 4, 0x105, 0, 0, 0, 0⟩, .csrwSysFq ⟨0, 4, 0x102, 0, 0, 0, 0⟩, .csrwSysFlog ⟨0, 4, 0x103, 0, 0, 0, 0⟩,
  .trap ⟨0, 4, 0, 0, 0, 0, 0xFFFF⟩, .resumeRetry (fS 0), .resumeSkip (fS 1), .resumeCont (fS 2), .resumeKill (fS 3), .resumePark (fS 4),
  .resumeAbort (fS 5), .featTest (fS 0), .featReq ⟨0, 4, 0, 0, 0, 1, 0⟩, .otinvExt (fS 0), .otinvObj (fS 1), .otinvAll ⟨6, 0, 0, 0, 0, 2, 0⟩,
  .btinvAll ⟨0, 0, 0, 0, 0, 0, 0⟩, .btinvSeq ⟨0, 4, 0, 0, 0, 1, 0⟩, .idle (fS 0), .yield ⟨6, 0, 0, 0, 0, 0, 0⟩, .remain ⟨0, 4, 0, 0, 0, 0, 40⟩,
  .cfgbankCache ⟨0, 4, 0, 0, 0, 0, 0x103⟩, .cfgbankScratch ⟨0, 4, 0, 0, 0, 1, 0⟩, .cfgbankFifo ⟨0, 4, 0, 0, 0, 2, 0⟩]

theorem ready_twoOp : twoOpForms.all (fun i => readyB i (place i)) = true := by decide +kernel
theorem ready_imm : immForms.all (fun i => readyB i (place i)) = true := by decide +kernel
theorem ready_oneOp : oneOpForms.all (fun i => readyB i (place i)) = true := by decide +kernel
theorem ready_control : controlForms.all (fun i => readyB i (place i)) = true := by decide +kernel
theorem ready_queue : queueForms.all (fun i => readyB i (place i)) = true := by decide +kernel
theorem ready_cap : capForms.all (fun i => readyB i (place i)) = true := by decide +kernel
theorem ready_mem : memForms.all (fun i => readyB i (place i)) = true := by decide +kernel
theorem ready_sync : syncForms.all (fun i => readyB i (place i)) = true := by decide +kernel
theorem ready_float : floatForms.all (fun i => readyB i (place i)) = true := by decide +kernel
theorem ready_int : intForms.all (fun i => readyB i (place i)) = true := by decide +kernel
theorem ready_move : moveForms.all (fun i => readyB i (place i)) = true := by decide +kernel
theorem ready_scratch : scratchForms.all (fun i => readyB i (place i)) = true := by decide +kernel
theorem ready_matrix : matrixForms.all (fun i => readyB i (place i)) = true := by decide +kernel
theorem ready_engine : engineForms.all (fun i => readyB i (place i)) = true := by decide +kernel
theorem ready_system : systemForms.all (fun i => readyB i (place i)) = true := by decide +kernel

/-! ### States that meet the hypotheses of the statements: the step, decoding, faults, scalar and control forms -/

def nextIs (o : Host.Outcome State Fault Refusal) (f : State → Bool) : Bool := match o with | .next t => f t | _ => false
def okB (p : State × Chk) (f : State → Res → Bool) : Bool := match p with | (s, .ok r) => f s r | _ => false
abbrev sAdd : State := setup (.add fR) (regs 7 9 0)
/-- A strand's turn listed by the agenda. -/
def sTurn : State := { sAdd with agenda := [.strand c0 .as], cur := none }

theorem witness_turn : turnOf sAdd = some sAdd ∧ (turnOf sTurn).isSome = true := by decide +kernel
theorem witness_fetch : okB (fetchCheck sAdd (me sAdd)) (fun s1 r =>
    curExists sAdd && here sAdd == some (me sAdd) && (me sAdd).t.susp.isNone && !capturing sAdd k0 (me sAdd).t.pid (me sAdd).t.taskId &&
    !(strandOf (me sAdd).t (me sAdd).x).ended && (homeRefuses s1 r.home r.pa).isNone && fetchWord s1 r == 0x0018414000B00000 &&
    nextIs (exec (.add fR) s1) (fun t => nextIs (step sAdd) (· == { t with ck := t.ck + 1 }))) = true := by decide +kernel
theorem witness_fetch_is_add : decode 0x0018414000B00000 = .ok (.add fR) := by decide +kernel
/-- A word placed as it is, on a core with the feature bits `f`. -/
def raw (f w : W64) : State := modCore (placeWord State.reset w) c0 fun k => { k with feature := f }
def fetchesB (s : State) (w : W64) : Bool :=
  okB (fetchCheck s (me s)) fun s1 r => here s == some (me s) && (homeRefuses s1 r.home r.pa).isNone && fetchWord s1 r == w
theorem witness_decode_unassigned : fetchesB (raw 0x3FF 0xD000000000000000) 0xD000000000000000 = true ∧ majorAssigned 0xD0 = false ∧
    faultOfStep (raw 0x3FF 0xD000000000000000) = some (1, 0xD000000000000000) := by decide +kernel
theorem witness_decode_extension : fetchesB (raw 0x3FF 0xF200000000000000) 0xF200000000000000 = true ∧
    fetchesB (raw (0x3FF + bit 50) 0xF200000000000000) 0xF200000000000000 = true ∧
    faultOfStep (raw 0x3FF 0xF200000000000000) = some (1, 0xF200000000000000) ∧
    faultOfStep (raw (0x3FF + bit 50) 0xF200000000000000) = some (2, 0xF200000000000000) := by decide +kernel
/-- The AS stands at the instruction. -/
def onAs (i : Instr) : State := { place i with cur := some { core := c0, x := .as } }
theorem witness_decode_strand : (encode (.vadd (fV 1 4))).isSome = true ∧ here (onAs (.vadd (fV 1 4))) = some (me (onAs (.vadd (fV 1 4)))) ∧
    strandOk (.vadd (fV 1 4)) .as = false ∧ (faultOfStep (onAs (.vadd (fV 1 4)))).map (·.1) = some 1 := by decide +kernel
def noVers : State := modCore (place (.ldv (fM 6 0xB))) c0 fun k => { k with feature := 0x3FE }
theorem witness_decode_feature : featuresOf (.ldv (fM 6 0xB)) &&& ~~~ (me noVers).k.feature ≠ 0 ∧ strandOk (.ldv (fM 6 0xB)) .as = true ∧
    (faultOfStep noVers).map (·.1) = some 2 := by decide +kernel
theorem witness_decode_fields : fieldsOk (.add ⟨3, 4, 5, 1, 0, 0xB, 0⟩) = false ∧ strandOk (.add ⟨3, 4, 5, 1, 0, 0xB, 0⟩) .as = true ∧
    featuresOf (.add ⟨3, 4, 5, 1, 0, 0xB, 0⟩) = 0 ∧
    faultOfStep (place (.add ⟨3, 4, 5, 1, 0, 0xB, 0⟩)) = some (1, 0x000C414100B00000) := by decide +kernel
abbrev sPriv : State := setup (.otinvAll ⟨6, 0, 0, 0, 0, 2, 0⟩) user
theorem witness_decode_privilege : supOnly (.otinvAll ⟨6, 0, 0, 0, 0, 2, 0⟩) = true ∧ isSup (me sPriv).t = false ∧
    (faultI (.otinvAll ⟨6, 0, 0, 0, 0, 2, 0⟩) sPriv).map (·.1) = some 1 := by decide +kernel
theorem witness_encode : (Instr.add fR).WellFormed ∧ encode (.add fR) = some 0x0018414000B00000 := by decide +kernel
theorem witness_memoryForm : MemoryOk sAdd ∧ nextIs (step sAdd) (fun t => Memory.wf t.mem) = true := by unfold MemoryOk; decide +kernel
theorem witness_faultEntry : here sAdd = some (me sAdd) ∧ isSup (me sAdd).t = true ∧
    here (modTask sAdd c0 user) = some (me (modTask sAdd c0 user)) ∧ isSup (me (modTask sAdd c0 user)).t = false := by decide +kernel
def rec0 : FaultRec := { cls := 16, src := 8, susp := true, pc := 8 }
abbrev sSusp : State := setup (.add fR) fun t => { t with susp := some rec0 }
/-- Its crew is being captured (R331). -/
def crewUnderCapture : CrewRes :=
  { info := {}, pid := (me sAdd).t.pid, cores := [3], tids := [(me sAdd).t.taskId], unstarted := [], choice := 3 }
abbrev sCapt : State := modCluster sAdd k0 fun k => { k with crews := [crewUnderCapture] }
theorem witness_suspended : here sSusp = some (me sSusp) ∧ (me sSusp).t.susp.isSome = true ∧ (encode (.add fR)).isSome = true := by decide +kernel
theorem witness_capturing : capturing sCapt k0 (me sCapt).t.pid (me sCapt).t.taskId = true ∧ nextIs (exec (.add fR) sCapt) (· == sCapt) = true := by decide +kernel

theorem witness_twoOp : (twoOp (.add fR) (rdG sAdd (me sAdd) 4) (rdG sAdd (me sAdd) 5) (rdG sAdd (me sAdd) 0)) = some (fR, 16) ∧
    readyB (.add fR) sAdd = true := by decide +kernel
theorem witness_imm : immOp (.addi fI) (rdG (place (.addi fI)) (me (place (.addi fI))) 4) = some (fI, 3) ∧
    readyB (.addi fI) (place (.addi fI)) = true := by decide +kernel
abbrev fClz : FmtR := ⟨6, 4, 0, 0, 0, 0xE, 0⟩
/-- Leading zeros at 0, at the lowest and at the highest position of 32 bits. -/
theorem witness_clz : readyB (.clz fClz) (setup (.clz fClz) (regs 0 0 0)) = true ∧ aReg (setup (.clz fClz) (regs 0 0 0)) 6 = some 32 ∧
    aReg (setup (.clz fClz) (regs 1 0 0)) 6 = some 31 ∧ aReg (setup (.clz fClz) (regs 0x80000000 0 0)) 6 = some 0 := by decide +kernel
abbrev fCtz : FmtR := ⟨6, 4, 0, 0, 1, 0xE, 0⟩
theorem witness_ctz : readyB (.ctz fCtz) (setup (.ctz fCtz) (regs 0 0 0)) = true ∧ aReg (setup (.ctz fCtz) (regs 0 0 0)) 6 = some 32 ∧
    aReg (setup (.ctz fCtz) (regs 1 0 0)) 6 = some 0 ∧ aReg (setup (.ctz fCtz) (regs 0x80000000 0 0)) 6 = some 31 := by decide +kernel

abbrev fBc (c : BitVec 4) : FmtB := ⟨0, 4, 5, c, 0, 2⟩
/-- BC taken and not taken, for each condition at equal operands. -/
theorem witness_bc : readyB (.bc (fBc 0)) (setup (.bc (fBc 0)) (regs 5 5 0)) = true ∧
    [0, 1, 2, 3, 4, 5].map (fun c => (after (setup (.bc (fBc c)) (regs 5 5 0))).map (·.as.pc)) = [some 16, some 8, some 8, some 16, some 8, some 16] := by
  decide +kernel
theorem witness_bc_less : [0, 1, 2, 3, 4, 5].map (fun c => (after (setup (.bc (fBc c)) (regs (-1) 5 0))).map (·.as.pc)) = [some 8, some 16, some 16, some 8, some 8, some 16] := by
  decide +kernel
theorem witness_jump : readyB (.j ⟨0, 4, 0, 0, 0, 2⟩) (setup (.j ⟨0, 4, 0, 0, 0, 2⟩) (regs 64 0 0)) = true ∧
    (after (setup (.j ⟨0, 4, 0, 0, 0, 2⟩) (regs 64 0 0))).map (·.as.pc) = some 80 ∧
    faultOfStep (setup (.j ⟨0, 4, 0, 0, 0, 2⟩) (regs 4 0 0)) = some (9, 20) := by decide +kernel
theorem witness_call : readyB (.call ⟨6, 0, 0, 0, 0, 2⟩) (place (.call ⟨6, 0, 0, 0, 0, 2⟩)) = true ∧
    aReg (place (.call ⟨6, 0, 0, 0, 0, 2⟩)) 6 = some 8 ∧ (after (place (.call ⟨6, 0, 0, 0, 0, 2⟩))).map (·.as.pc) = some 16 ∧
    faultOfStep (setup (.call ⟨6, 4, 0, 0, 0, 2⟩) (regs 4 0 0)) = some (9, 20) := by decide +kernel
theorem witness_ret : readyB (.ret ⟨0, 4, 0, 0, 0, 2⟩) (setup (.ret ⟨0, 4, 0, 0, 0, 2⟩) (regs 8 0 0)) = true ∧
    (after (setup (.ret ⟨0, 4, 0, 0, 0, 2⟩) (regs 8 0 0))).map (·.as.pc) = some 24 := by decide +kernel
abbrev iLoopb : Instr := .loopb ⟨4, 0, 0, 0, 0, 2⟩
abbrev iLoope : Instr := .loope ⟨0, 0, 0, 0, 0, 0xFFFFFFFF⟩
def withStack (l : List W64) (t : Task) : Task := { t with as := { t.as with loops := l } }
theorem witness_loopb : readyB iLoopb (setup iLoopb (regs 0 0 0)) = true ∧ (after (setup iLoopb (regs 0 0 0))).map (·.as.pc) = some 16 ∧
    readyB iLoopb (setup iLoopb (withStack [1, 1, 1, 1, 1, 1, 1] ∘ regs 3 0 0)) = true ∧
    (after (setup iLoopb (withStack [1, 1, 1, 1, 1, 1, 1] ∘ regs 3 0 0))).map (·.as.loops) = some [3, 1, 1, 1, 1, 1, 1, 1] ∧
    (faultOfStep (setup iLoopb (withStack [1, 1, 1, 1, 1, 1, 1, 1] ∘ regs 3 0 0))).map (·.1) = some 1 := by decide +kernel
theorem witness_loope : readyB iLoope (setup iLoope (withStack [1])) = true ∧ (after (setup iLoope (withStack [1]))).map (fun t => (t.as.pc, t.as.loops)) = some (8, []) ∧
    (after (setup iLoope (withStack [2]))).map (fun t => (t.as.pc, t.as.loops)) = some (-8, [1]) ∧
    (faultOfStep (place iLoope)).map (·.1) = some 1 := by decide +kernel

abbrev iQpush : Instr := .qpush ⟨0, 4, 0, 0, 1, 0, 0⟩
abbrev iQpop : Instr := .qpop ⟨6, 0, 0, 0, 3, 0, 0⟩
abbrev iQpeek : Instr := .qpeek ⟨6, 0, 0, 0, 3, 0, 0⟩
def isHeld (s : State) (why : HoldWhy) : Bool := match after s with | some t => (strandOf t (me s).x).held.map (·.why) == some why | none => false
theorem witness_qpush : readyB iQpush (setup iQpush fun t => { regs 9 0 0 t with q1 := List.replicate 63 0 }) = true ∧
    (after (setup iQpush fun t => { regs 9 0 0 t with q1 := List.replicate 63 0 })).map (·.q1.length) = some 64 ∧
    isHeld (setup iQpush fun t => { t with q1 := List.replicate 64 0 }) (.qpush 1) = true := by decide +kernel
theorem witness_qpop : readyB iQpop (setup iQpop fun t => { t with q3 := [5, 6] }) = true ∧ aReg (setup iQpop fun t => { t with q3 := [5, 6] }) 6 = some 5 ∧
    (after (setup iQpop fun t => { t with q3 := [5, 6] })).map (·.q3) = some [6] ∧ isHeld (place iQpop) (.qpop 3) = true := by decide +kernel
theorem witness_qpeek : readyB iQpeek (setup iQpeek fun t => { t with q3 := [5, 6] }) = true ∧ (after (setup iQpeek fun t => { t with q3 := [5, 6] })).map (·.q3) = some [5, 6] ∧
    isHeld (place iQpeek) (.qpop 3) = true := by decide +kernel
abbrev iBqpush : Instr := .bqpush ⟨0, 4, 0, 0, 0, 0, 0⟩
theorem witness_bqpush : readyB iBqpush (setup iBqpush fun t => { regs 9 0 0 t with bq := List.replicate 31 false }) = true ∧
    (after (setup iBqpush fun t => { regs 9 0 0 t with bq := List.replicate 31 false })).map (·.bq.getLast?) = some (some true) ∧
    isHeld (setup iBqpush fun t => { t with bq := List.replicate 32 false }) (.qpush 4) = true := by decide +kernel
abbrev iBqp : Instr := .bqp ⟨0, 0, 0, 0, 0, 2⟩
theorem witness_bqp : readyB iBqp (setup iBqp fun t => { t with bq := [true] }) = true ∧ (after (setup iBqp fun t => { t with bq := [true] })).map (·.xs.pc) = some 16 ∧
    (after (setup iBqp fun t => { t with bq := [false] })).map (·.xs.pc) = some 8 ∧ isHeld (place iBqp) (.qpop 4) = true := by decide +kernel
abbrev iEnd : Instr := .endS ⟨0, 0, 0, 0, 0, 0, 0⟩
def xs (s : State) : State := { s with cur := some { core := c0, x := .xs } }
def relDone (a : RelAns) (f : State → Bool) : Bool := match a with | .done s => f s | _ => false
theorem witness_end_as : readyB iEnd (place iEnd) = true ∧
    relDone (releaseSteps (place iEnd) (me (place iEnd)) 3 none) (fun s1 => nextIs (exec iEnd (place iEnd)) (· == endStrand (me (place iEnd)) s1)) = true := by
  decide +kernel
theorem witness_end_xs : readyB iEnd (xs (place iEnd)) = true ∧ (me (xs (place iEnd))).k.mxq = [] ∧
    readyB iEnd (modCore (xs (place iEnd)) c0 fun k => { k with mxq := [.zero] }) = true := by decide +kernel
theorem witness_end_last : (strandOf (me (setup iEnd fun t => { t with xs := { t.xs with ended := true } })).t .xs).ended = true ∧
    (after (setup iEnd fun t => { t with xs := { t.xs with ended := true } })).isNone = true := by decide +kernel

abbrev iCn : Instr := .cnarrow ⟨2, 2, 4, 5, 0, 0, 0⟩
def capIn (k : CapReg) (t : Task) : Task := { t with c := ins t.c 2 k }
/-- A capability of 4,096 bytes of object 7; the same with a right less; sealed. -/
abbrev cap7 : CapReg := { tag := true, bits := mkCap 7 0 0x7FF 0x100 4096 16 }
abbrev cap7s : CapReg := { tag := true, bits := mkCap 7 0 0xFFF 0x100 4096 16 }
theorem witness_cnarrow : readyB iCn (setup iCn (capIn cap7 ∘ regs 96 4000 0)) = true ∧ capField cap7 59 1 = 0 ∧ capField cap7 128 64 = 96 + 4000 ∧
    (after (setup iCn (capIn cap7 ∘ regs 96 4000 0))).map (fun t => (capField (rdC t 2) 64 64, capField (rdC t 2) 128 64)) = some (0x160, 4000) ∧
    (faultOfStep (setup iCn (capIn cap7 ∘ regs 97 4000 0))) = some (3, 97) := by decide +kernel
abbrev iCr : Instr := .crights ⟨2, 2, 4, 0, 0, 0, 0⟩
theorem witness_crights : readyB iCr (setup iCr (user ∘ capIn cap7 ∘ regs 0xF0F 0 0)) = true ∧
    (afterI iCr (setup iCr (user ∘ capIn cap7 ∘ regs 0xF0F 0 0))).map (fun t => (capField (rdC t 2) 48 11, capField (rdC t 2) 59 1)) = some (0x70F, 1) := by decide +kernel
abbrev iCo : Instr := .coff ⟨2, 2, 4, 0, 0, 0, 0⟩
theorem witness_coff : readyB iCo (setup iCo (capIn cap7 ∘ regs (-20) 0 0)) = true ∧
    (after (setup iCo (capIn cap7 ∘ regs (-20) 0 0))).map (fun t => capField (rdC t 2) 192 64) = some (2 ^ 64 - 4) ∧
    readyB iCo (setup iCo (capIn cap7s)) = true ∧ capField cap7s 59 1 = 1 := by decide +kernel
abbrev iCg : Instr := .cget ⟨6, 2, 4, 0, 0, 0, 0⟩
theorem witness_cget : readyB iCg (setup iCg (capIn cap7 ∘ regs 7 0 0)) = true ∧
    [0, 1, 2, 3, 4, 5, 6, 7, 8].map (fun n => aReg (setup iCg (capIn cap7 ∘ regs n 0 0)) 6) =
      [some 7, some 0, some 0x7FF, some 0x100, some 4096, some 16, some 1, some 0x110, some 0] := by decide +kernel
/-- Object `oid` of `len` bytes at physical 0x400000·oid, extent table at 0x200000, version shadow at 0x300000, in a table of
16 entries at 0x100000. -/
def withObj (oid w0 len : Nat) (ext : Nat) (s : State) : State :=
  let s1 := modSlab s sl0 fun b => { b with otbase := 0x100004 }
  let s2 := physWrite s1 (0x100000 + 64 * oid) (bytesOf 64 (w0 + len * 2 ^ 64 + 0x200000 * 2 ^ 192 + 0x300000 * 2 ^ 256))
  physWrite s2 0x200000 (bytesOf 8 ext)
/-- Word 0 of a LIVE, LINEAR .z8 object with the flag bits `f`. -/
abbrev live (f : Nat) : Nat := 0x7001 * 2 ^ 48 + f
abbrev capO : CapReg := { tag := true, bits := mkCap 7 0 0x7FF 0 4096 0 }
abbrev mapped : Nat := 0x400000 * 7 + 2 ^ 11
abbrev iCl : Instr := .clgen ⟨2, 2, 0, 0, 0, 0, 0⟩
def clState (w0 : Nat) : State := withObj 7 w0 4096 mapped (setup iCl (capIn capO))
/-- CLGEN on a LIVE, a MOVING, a FREE object and one of state 3. -/
theorem witness_clgen : readyB iCl (clState (live 0x50000)) = true ∧ capField capO 58 1 = 1 ∧ capOid capO ≠ 0 ∧
    [live 0x50000, live 0x50000 + 2 ^ 62, 0x3001 * 2 ^ 48, live 0x50000 + 2 ^ 63].map (fun w0 =>
      wState (xlate (clState w0) (whoOf (me (clState w0))) ⟨7, 0, 0⟩).2.word0) = [1, 2, 0, 3] ∧
    (after (clState (live 0x50000))).map (fun t => capField (rdC t 2) 32 16) = some 5 := by decide +kernel
theorem witness_capFaults : [iCn, iCr, iCo, iCl].all (fun i => readyB i (setup i (user ∘ capIn {})) &&
      (faultI i (setup i (user ∘ capIn {}))).map (·.1) == some 5) = true ∧
    [iCn, iCr, iCo].all (fun i => readyB i (setup i (user ∘ capIn cap7s ∘ regs 1 1 0)) &&
      (faultI i (setup i (user ∘ capIn cap7s ∘ regs 1 1 0))).map (·.1) == some 4) = true ∧
    readyB iCl (setup iCl (capIn { tag := true, bits := mkCap 7 0 0x3FF 0 4096 0 })) = true ∧
    (faultOfStep (setup iCl (capIn { tag := true, bits := mkCap 7 0 0x3FF 0 4096 0 }))) = some (4, 1024) := by decide +kernel

/-! ### Loads, stores, atomics, validation, synchronisation -/

def ansB {α : Type} (a : HAns α) (f : State → α → Bool) : Bool := match a with | .ok s v => f s v | _ => false
def goesTo (i : Instr) (s t : State) : Bool := nextIs (exec i s) (· == t)
/-- The line is in no L1, its home is on the executing die and answers. -/
def missB (s s1 : State) (r : Res) (n : Nat) (o : Bool) (f : State → Line → BitVec 8 → Bool) : Bool :=
  (l1Find (clusterAt s1 k0) r.key).isNone && r.home.die == 0 && !sideOverlap (me s).t r.loc n && (me s).t.remote == .idle &&
  ansB (homeLoad s1 (whoOf (me s)) r n o) fun s2 v => overL1 s1 k0 r.key (me s).t.taskId o v == v && f s2 v.1 v.2
def hitB (s s1 : State) (r : Res) (n : Nat) (f : L1Line → Bool) : Bool :=
  match l1Find (clusterAt s1 k0) r.key with
  | some l => wordsTouched (r.loc.byte % 256) n &&& ~~~ l.valid == 0 && !sideOverlap (me s).t r.loc n && (me s).t.remote == .idle && f l
  | none => false
/-- The state after one execution, to run the same access again as a hit. -/
def again (i : Instr) (s : State) : State := match exec i s with | .next t => { t with cur := s.cur } | _ => s
abbrev fLd : FmtM := ⟨6, 1, 5, 0xA, 0, 0, 0, 8⟩
abbrev iLd : Instr := .ld fLd
/-- The last four bytes of a line. -/
abbrev sLd : State := physWrite (setup iLd (regs 0 (0x4000 - 12) 0)) 0x3FFC [0xFE, 0xFF, 0xFF, 0xFF]
def askLd : Ask := { rights := 1, n := 4, align := 4 }
theorem witness_ld_miss : readyB iLd sLd = true ∧ okB (mCheck sLd (me sLd) fLd askLd) (fun s1 r => missB sLd s1 r 4 false fun s2 d tg =>
    goesTo iLd sLd (retire (me sLd) (wrG (me sLd) 6 (loaded 0xA d (r.loc.byte % 256)) (fillState s2 (me sLd) r d tg)))) = true ∧
    aReg sLd 6 = some (-2) := by decide +kernel
theorem witness_ld_hit : readyB iLd (again iLd sLd) = true ∧ okB (mCheck (again iLd sLd) (me (again iLd sLd)) fLd askLd) (fun s1 r =>
    hitB (again iLd sLd) s1 r 4 fun l => goesTo iLd (again iLd sLd) (retire (me (again iLd sLd))
      (wrG (me (again iLd sLd)) 6 (loaded 0xA l.data (r.loc.byte % 256)) (hitState s1 (me (again iLd sLd)) r l)))) = true := by decide +kernel
abbrev capStore : Nat := 2 ^ 50
abbrev versioned : Nat := 2 ^ 51
abbrev fCld : FmtM := ⟨3, 2, 5, 0, 0, 0, 0, 0⟩
abbrev sCld : State := withObj 7 (live capStore) 4096 mapped (setup (.cld fCld) (capIn capO ∘ regs 0 224 0))
theorem witness_cld_miss : readyB (.cld fCld) sCld = true ∧ okB (mCheck sCld (me sCld) fCld { rights := 129, n := 32, align := 32 }) (fun s1 r =>
    wCapstore r.word0 && wCoding r.word0 == 0 && missB sCld s1 r 32 false fun s2 d tg => goesTo (.cld fCld) sCld
      (retire (me sCld) (wrC (me sCld) 3 { tag := tg.getLsbD 7, bits := d.extractLsb' (8 * 224) 256 } (fillState s2 (me sCld) r d tg)))) = true := by decide +kernel
abbrev sCldH : State := again (.cld fCld) sCld
theorem witness_cld_hit : readyB (.cld fCld) sCldH = true ∧ okB (mCheck sCldH (me sCldH) fCld { rights := 129, n := 32, align := 32 }) (fun s1 r =>
    hitB sCldH s1 r 32 fun _ => true) = true := by decide +kernel
abbrev fLdt : FmtM := ⟨0, 1, 5, 0xC, 0, 0, 0, 0⟩
abbrev sLdt : State := setup (.ldt fLdt) fun t => { regs 0 0x4000 0 t with vq := List.replicate 14 (0, 1) }
def askLdt : Ask := { rights := 1, n := 256, align := 256, fmt := some 0xC }
theorem witness_ldt_miss : readyB (.ldt fLdt) sLdt = true ∧ (me sLdt).t.vq.length = 14 ∧ okB (tCheck sLdt (me sLdt) fLdt askLdt) (fun s1 r =>
    missB sLdt s1 r 256 false fun s2 d tg => goesTo (.ldt fLdt) sLdt (retire (me sLdt) (modTask (fillState s2 (me sLdt) r d tg) c0 fun t =>
      { t with vq := t.vq ++ [(d.extractLsb' 0 1024, 0xC), (d.extractLsb' 1024 1024, 0xC)] }))) = true := by decide +kernel
abbrev sLdtH : State := modTask (again (.ldt fLdt) sLdt) c0 fun t => { t with vq := [] }
theorem witness_ldt_hit : readyB (.ldt fLdt) sLdtH = true ∧ okB (tCheck sLdtH (me sLdtH) fLdt askLdt) (fun s1 r => hitB sLdtH s1 r 256 fun _ => true) = true := by
  decide +kernel
abbrev fAcq : FmtM := ⟨6, 1, 5, 0xB, 1, 2, 0, 0⟩
abbrev iAcq : Instr := .acq fAcq
abbrev sAcq : State := setup iAcq (regs 0 0x4000 0)
def askAcq : Ask := { rights := 1, n := 8, align := 8 }
theorem witness_acq_miss : readyB iAcq sAcq = true ∧ ordWait (me sAcq).t (some 0) = false ∧ okB (mCheck sAcq (me sAcq) fAcq askAcq) (fun s1 r => missB sAcq s1 r 8 true fun s2 d _ =>
    goesTo iAcq sAcq (retire (me sAcq) (wrG (me sAcq) 6 (loaded 0xB d 0) (acquireInval s2 (whoOf (me sAcq)) 2)))) = true := by decide +kernel
/-- The task's own store stands in the L1. -/
abbrev fSt : FmtM := ⟨6, 1, 5, 0xB, 0, 0, 0, 0⟩
abbrev sSt : State := setup (.st fSt) (regs 0 0x4000 77)
abbrev sAcqH : State := let t := again (.st fSt) sSt; modTask t c0 fun k => { k with as := { k.as with pc := 0 } }
theorem witness_acq_hit : readyB iAcq sAcqH = true ∧ ordWait (me sAcqH).t (some 0) = false ∧ okB (mCheck sAcqH (me sAcqH) fAcq askAcq) (fun s1 r => hitB sAcqH s1 r 8 fun l =>
    match l.own.find? (·.task == (me sAcqH).t.taskId) with
    | some o => wordsTouched (r.loc.byte % 256) 8 &&& ~~~ o.mask == 0 && goesTo iAcq sAcqH (retire (me sAcqH)
        (wrG (me sAcqH) 6 (loaded 0xB l.data 0) (acquireInval (hitState s1 (me sAcqH) r l) (whoOf (me sAcqH)) 2)))
    | none => false) = true := by decide +kernel
abbrev fLdv : FmtM := ⟨30, 2, 5, 0xF, 0, 0, 0, 0⟩
abbrev sLdv : State := physWrite (withObj 7 (live versioned) 4096 mapped (setup (.ldv fLdv) (capIn capO ∘ regs 0 8 0))) 0x300000 [5, 0, 0, 0, 0, 0, 0, 0]
theorem witness_ldv : readyB (.ldv fLdv) sLdv = true ∧ okB (mCheck sLdv (me sLdv) fLdv { rights := 9, n := 8, align := 8, ver := true }) (fun s1 r =>
    r.home.die == 0 && (homeRefuses s1 r.home r.pa).isNone && !sideOverlap (me sLdv).t r.loc 8 && (me sLdv).t.remote == .idle) = true ∧ aReg sLdv 31 = some 5 := by decide +kernel

def conflictFree (s s1 : State) (r : Res) (op : WOp) : Bool :=
  (homeRefuses s1 r.home r.pa).isNone &&
  !conflicts (whoOf (me s)) (homeLine s1 r) ((writeOp 0 0 (r.loc.byte % 256) op).2.2 &&& ~~~ myMask (whoOf (me s)) (homeLine s1 r)) false
/-- A store into a cluster with CACHE banks, with its result, and into one that has none. -/
def storeB (i : Instr) (s : State) (p : State × Chk) (op : WOp) (k : State → State) : Bool :=
  (me s).t.side.isEmpty && okB p fun s1 r =>
    r.home.die == 0 && !(cacheBanks (clusterAt s1 k0)).isEmpty && conflictFree s s1 r op &&
    (let l := homeLine s1 r
     let mask := (writeOp 0 0 (r.loc.byte % 256) op).2.2
     let s2 := l1Fill (noteStore (putLine (bring s1 r) r.key (register (whoOf (me s)) l mask false)) (whoOf (me s)) r (mask &&& ~~~ myMask (whoOf (me s)) l)) k0 r
       (viewFor (whoOf (me s)) l) (tagsFor (whoOf (me s)) l)
     match l1Find (clusterAt s2 k0) r.key with
     | some x =>
       let y := writeOp x.data x.tags (r.loc.byte % 256) op
       goesTo i s (k (modCluster s2 k0 fun kk => l1Put kk r.key (ownWords (me s).t.taskId mask mask { x with data := y.1, tags := y.2.1 })))
     | none => false)
def scratchOnly (s : State) : State :=
  modCluster s k0 fun k => { k with bank := (List.range 48).map fun b => (b, { mode := .scratch }) }
def storeNoCacheB (i : Instr) (s : State) (p : State × Chk) (op : WOp) (k : State → State) : Bool :=
  okB p fun s1 r => (cacheBanks (clusterAt s1 k0)).isEmpty && (l1Find (clusterAt s1 k0) r.key).isNone &&
    ansB (homeStore s1 (whoOf (me s)) r op {}) fun s2 _ => goesTo i s (k s2)
theorem witness_st : readyB (.st fSt) sSt = true ∧
    storeB (.st fSt) sSt (mCheck sSt (me sSt) fSt { rights := 2, n := 8, align := 8 }) (.bytes (bytesOf 8 77)) (retire (me sSt)) = true ∧
    storeNoCacheB (.st fSt) (scratchOnly sSt) (mCheck (scratchOnly sSt) (me (scratchOnly sSt)) fSt { rights := 2, n := 8, align := 8 })
      (.bytes (bytesOf 8 77)) (retire (me (scratchOnly sSt))) = true := by decide +kernel
abbrev fCst : FmtM := ⟨2, 2, 5, 0, 0, 0, 0, 0⟩
abbrev sCst : State := withObj 7 (live capStore) 4096 mapped (setup (.cst fCst) (capIn capO ∘ regs 0 224 0))
theorem witness_cst : readyB (.cst fCst) sCst = true ∧ capO.tag = true ∧ hasRights capO 64 = true ∧
    okB (mCheck sCst (me sCst) fCst { rights := 258, n := 32, align := 32 }) (fun _ r => wCapstore r.word0 && wCoding r.word0 == 0) = true ∧
    storeB (.cst fCst) sCst (mCheck sCst (me sCst) fCst { rights := 258, n := 32, align := 32 }) (.cap capO) (retire (me sCst)) = true := by decide +kernel
abbrev sStt : State := setup (.stt fLdt) fun t => { regs 0 0x4000 0 t with wq := [1, 2, 3] }
theorem witness_stt : readyB (.stt fLdt) sStt = true ∧ storeB (.stt fLdt) sStt (tCheck sStt (me sStt) fLdt { rights := 2, n := 256, align := 256, fmt := some 0xC })
    (.bytes (bytesOf 128 1 ++ bytesOf 128 2)) (fun s2 => retire (me sStt) (modTask s2 c0 fun t => { t with wq := [3] })) = true := by decide +kernel
abbrev fRel : FmtM := ⟨6, 1, 5, 0xE, 2, 3, 0, 0⟩
abbrev sRel : State := setup (.rel fRel) (regs 0 0x4000 77)
theorem witness_rel : readyB (.rel fRel) sRel = true ∧ okB (mCheck sRel (me sRel) fRel { rights := 2, n := 4, align := 4 }) (fun s1 r =>
    !ordWait (me sRel).t (some r.home.die) && relDone (releaseSteps s1 (me sRel) 3 (some r.home.die)) fun s2 =>
      ansB (homeStore s2 (whoOf (me sRel)) r (.release (bytesOf 4 77)) { kind := 2, scope := 3 }) fun s3 _ =>
      goesTo (.rel fRel) sRel (retire (me sRel) (dropStale s3 k0 r.key (wordsTouched (r.loc.byte % 256) 4)))) = true := by decide +kernel

/-- LD and ST: no tag; sealed; oid 0 for a user task; a missing right; one byte beyond the end; misaligned inside. -/
abbrev fA (sa : BitVec 6) : FmtM := ⟨6, sa, 5, 0xB, 0, 0, 0, 0⟩
abbrev sAt (i : Instr) (k : CapReg) (a : W64) : State := withObj 7 (live 0) 4096 mapped (setup i (user ∘ capIn k ∘ regs 0 a 0))
theorem witness_accessChecks : [Instr.ld (fA 2), .st (fA 2)].all (fun i => readyB i (sAt i {} 0) &&
    faultI i (sAt i {} 0) == some (5, 2) &&
    (faultI i (sAt i { capO with bits := capO.bits ||| (1 <<< 59) } 0)).map (·.1) == some 4 &&
    (faultI i (sAt i windowCap 0)).map (·.1) == some 4 &&
    (faultI i (sAt i { capO with bits := mkCap 7 0 0x7FC 0 4096 0 } 0)).map (·.1) == some 4 &&
    (faultI i (sAt i capO 4088)).isNone && faultI i (sAt i capO 4089) == some (3, 4089) && faultI i (sAt i capO 4) == some (9, 4) &&
    (let s := sAt i capO 4; let e := (xlate s (whoOf (me s)) ⟨7, 0, 0⟩).2; !wDist e.word0 && wState e.word0 == 1)) = true := by decide +kernel
def sStored : State := match mCheck sSt (me sSt) fSt { rights := 2, n := 8, align := 8 } with | (s1, .ok _) => s1 | _ => sSt
def resSt : Res := match (mCheck sSt (me sSt) fSt { rights := 2, n := 8, align := 8 }).2 with | .ok r => r | _ => resOf (whoOf (me sSt)) 0 0 0 (physEntry 0)
abbrev other : Who := { whoOf (me sSt) with clus := 0, core := some ⟨0, 1⟩, task := 5 }
/-- Read after write, and the CONFLICT of another cluster's load. -/
theorem witness_storedBytes : resSt.loc.byte % 256 + 8 ≤ 256 ∧ (whoOf (me sSt)).entry = none ∧
    conflicts (whoOf (me sSt)) (homeLine sStored resSt) (wordsTouched (resSt.loc.byte % 256) 8) false = false ∧
    (refusesFrom sStored other.die resSt.home resSt.pa).isNone = true ∧
    ansB (homeStore sStored (whoOf (me sSt)) resSt (.bytes (bytesOf 8 77)) {}) (fun t _ =>
    (ansB (homeLoad t (whoOf (me sSt)) resSt 8 true) fun _ v => lineGet v.1 (resSt.loc.byte % 256) 8 == 77) &&
    (homeLine sStored resSt).recs.isEmpty && (homeLine sStored resSt).marks.isEmpty &&
    (match homeLoad t other resSt 8 false with | .conflict o => o == (me sSt).t.taskId | _ => false)) = true := by decide +kernel
theorem witness_homeStoreFrame : okB (mCheck sCst (me sCst) fCst { rights := 258, n := 32, align := 32 }) (fun s1 r =>
    r.key.oid != 0 && (l2Mates s1 r.home r.pa).length < 16 && ansB (homeStore s1 (whoOf (me sCst)) r (.bytes [1, 2, 3]) {}) fun _ _ => Memory.wf s1.mem && Memory.wf s1.hostMem) = true := by decide +kernel
abbrev fAmo : FmtM := ⟨6, 1, 5, 0xE, 3, 3, 0, 0⟩
abbrev sAmo : State := physWrite (setup (.amo fAmo) (regs 0 0x4000 3)) 0x4000 [40]
theorem witness_atHome : okB (mCheck sAmo (me sAmo) fAmo { rights := 7, n := 4, align := 4 }) (fun s1 r =>
    let l := homeLine s1 r
    (homeRefuses s1 r.home r.pa).isNone && l.recs.isEmpty && l.marks.isEmpty && l.pend.isEmpty && (l2Mates s1 r.home r.pa).length < 16 && l.ver == 0 &&
    [0, 1, 2, 3, 4, 5, 6, 7, 8].map (fun fn => match homeAtomic s1 (whoOf (me sAmo)) r fn 0xE 3 0 0 { kind := 3 } with
      | .ok t v => ((lkp t.l2 r.key).map fun x => lineGet x.data 0 4, v.1) | _ => (none, 0)) ==
      [43, 0, 43, 43, 3, 40, 3, 40, 3].map (fun x => (some x, 40)) &&
    (match homeAtomic s1 (whoOf (me sAmo)) r 34 0xE 3 40 0 { kind := 3 } with | .ok _ v => v.2.2 | _ => false) &&
    (match homeAtomic s1 (whoOf (me sAmo)) r 34 0xE 3 41 0 { kind := 3 } with | .ok _ v => !v.2.2 | _ => false) &&
    (match homeAtomic s1 (whoOf (me sAmo)) r 8 0xE 3 0 1 { kind := 3 } with | .ok _ v => v.2.2 | _ => false) &&
    (match homeAtomic s1 (whoOf (me sAmo)) r 8 0xE 3 1 1 { kind := 3 } with | .ok _ v => !v.2.2 | _ => false)) = true := by decide +kernel
/-- The word that AMOF leaves at an unheld line: `x` there, `y` in the register. -/
def amof (ty : BitVec 4) (m x y fn : Nat) : Option Nat :=
  let f : FmtM := ⟨6, 1, 5, ty, 0, 0, 0, 0⟩
  let s := physWrite (setup (.amofFadd f) (regs 0 0x4000 0)) 0x4000 (bytesOf m x)
  match mCheck s (me s) f { rights := 7, n := m, align := m } with
  | (s1, .ok r) => (match homeAtomic s1 (whoOf (me s)) r fn ty (BitVec.ofNat 64 y) 0 0 {} with
    | .ok t _ => (lkp t.l2 r.key).map fun l => lineGet l.data 0 m | _ => none)
  | _ => none
/-- 1 + 2; the larger of −0 and +0; a NaN; in BF16 1 + 2^−8, a tie to even; the larger of −1 and −0; a NaN (R42, R43, R222). -/
theorem witness_amof : [amof 1 4 0x3F800000 0x40000000 32, amof 1 4 0x80000000 0 33, amof 1 4 0x7F800001 0 33,
    amof 3 2 0x3F80 0x3B80 32, amof 3 2 0xBF80 0x8000 33, amof 3 2 0x3F80 0xFFC0 33] =
    [some 0x40400000, some 0, some 0x7FC00000, some 0x3F80, some 0x8000, some 0x7FC0] := by decide +kernel
/-- An atomic that its home executes, and one that the L1 executes. -/
def amoHomeB (i : Instr) (s : State) (f : FmtM) (fn : Nat) (b e : W64) (kind : Nat) : Bool :=
  readyB i s && okB (mCheck s (me s) f { rights := if kind = 1 then 15 else 7, n := fmtWidth f.ty / 8, align := fmtWidth f.ty / 8, ver := decide (kind = 1) }) fun s1 r =>
    r.home.die == 0 && (me s).t.side.isEmpty && !ordWait (me s).t (some r.home.die) && (me s).t.remote == .idle &&
    (if f.ord = 2 ∨ f.ord = 3 then relDone (releaseSteps s1 (me s) f.scope.toNat (some r.home.die)) else fun g => g s1) fun s2 =>
      (r.rate != 0 || wVer r.word0 || (cacheBanks (clusterAt s2 k0)).isEmpty || kind == 1) &&
      ansB (homeAtomic s2 (whoOf (me s)) r fn f.ty b e kind { kind := f.ord, scope := f.scope }) fun _ _ => true
def amoL1B (i : Instr) (s : State) (f : FmtM) (fn : Nat) (b e : W64) : Bool :=
  readyB i s && okB (mCheck s (me s) f { rights := 7, n := fmtWidth f.ty / 8, align := fmtWidth f.ty / 8 }) fun s1 r =>
    r.home.die == 0 && (me s).t.side.isEmpty && !ordWait (me s).t (some r.home.die) && (me s).t.remote == .idle && r.rate == 0 && !wVer r.word0 && !(cacheBanks (clusterAt s1 k0)).isEmpty &&
    (if f.ord = 2 ∨ f.ord = 3 then relDone (releaseSteps s1 (me s) f.scope.toNat (some r.home.die)) else fun g => g s1) fun s2 =>
      ansB (l1Atomic s2 (me s) r fn f.ty b e) fun _ _ => true
abbrev fA4 (ty : BitVec 4) (fn : BitVec 5) (ord : BitVec 2) : FmtM := ⟨6, 1, 5, ty, ord, 0, fn, 0⟩
abbrev fC4 (ty : BitVec 4) : FmtM := ⟨4, 1, 5, ty, 0, 0, 0, 0⟩
abbrev at4 (i : Instr) : State := scratchOnly (physWrite (setup i (regs 40 0x4000 3)) 0x4000 [40])
abbrev at1 (i : Instr) : State := physWrite (setup i (regs 40 0x4000 3)) 0x4000 [40]
theorem witness_atomic_home : amoHomeB (.amo fAmo) (at4 (.amo fAmo)) fAmo 0 3 0 0 = true ∧
    amoHomeB (.amoReduce (fA4 0xF 23 0)) (at4 (.amoReduce (fA4 0xF 23 0))) (fA4 0xF 23 0) 7 3 0 0 = true ∧
    amoHomeB (.amofFadd (fA4 1 0 0)) (at4 (.amofFadd (fA4 1 0 0))) (fA4 1 0 0) 32 3 0 0 = true ∧
    amoHomeB (.amofFmax (fA4 3 1 0)) (at4 (.amofFmax (fA4 3 1 0))) (fA4 3 1 0) 33 3 0 0 = true ∧
    amoHomeB (.cas (fC4 0xF)) (at4 (.cas (fC4 0xF))) (fC4 0xF) 34 0x4000 40 0 = true := by decide +kernel
theorem witness_atomic_l1 : amoL1B (.amo fAmo) (at1 (.amo fAmo)) fAmo 0 3 0 = true ∧
    amoL1B (.amoReduce (fA4 0xF 23 0)) (at1 (.amoReduce (fA4 0xF 23 0))) (fA4 0xF 23 0) 7 3 0 = true ∧
    amoL1B (.amofFadd (fA4 1 0 0)) (at1 (.amofFadd (fA4 1 0 0))) (fA4 1 0 0) 32 3 0 = true ∧
    amoL1B (.amofFmax (fA4 3 1 0)) (at1 (.amofFmax (fA4 3 1 0))) (fA4 3 1 0) 33 3 0 = true ∧
    amoL1B (.cas (fC4 0xF)) (at1 (.cas (fC4 0xF))) (fC4 0xF) 34 0x4000 40 = true := by decide +kernel
abbrev fCasv : FmtM := ⟨4, 2, 6, 0xF, 2, 3, 0, 0⟩
abbrev sCasv (v : W64) : State := physWrite (withObj 7 (live versioned) 4096 mapped (setup (.casv fCasv) (capIn capO ∘ regs v 99 0))) 0x300000 [5]
/-- CASV at the line's version and at another. -/
theorem witness_casv : amoHomeB (.casv fCasv) (sCasv 5) fCasv 8 99 5 1 = true ∧ aReg (sCasv 5) 4 = some (2 ^ 63 + 6) ∧ aReg (sCasv 4) 4 = some 5 := by decide +kernel

abbrev fPf (fn : BitVec 5) : FmtM := ⟨0, 1, 5, 0, 0, 0, fn, 0⟩
theorem witness_prefetch : [Instr.pfL1 (fPf 0), .pfL2 (fPf 1)].all (fun i => let s := setup i (regs 0 0x4000 0)
    readyB i s && okB (tCheck s (me s) (fPf 0) { rights := 1, n := 256, align := 256 }) (fun s1 r =>
      (homeRefuses s1 r.home r.pa).isNone && !(cacheBanks (clusterAt s1 k0)).isEmpty) &&
    (match (tCheck (setup i (regs 0 0x4001 0)) (me (setup i (regs 0 0x4001 0))) (fPf 0) { rights := 1, n := 256, align := 256 }).2 with | .ok _ => false | _ => true) &&
    (afterI i (setup i (regs 0 0x4001 0))).map (·.as.pc) == some 8) = true := by decide +kernel
/-- The home of every line of the slab is fenced. -/
def fenced (s : State) : State := modSlab s sl0 fun b => { b with fencedSlices := List.range 80 }
theorem witness_refused_lines : [(Instr.pfL1 (fPf 0), 1), (.pfL2 (fPf 1), 1), (.cboClean (fPf 0), 2), (.cboInval (fPf 1), 2), (.cboFlush (fPf 2), 2)].all (fun x =>
    let s := fenced (setup x.1 (regs 0 0x4000 0))
    readyB x.1 s && okB (tCheck s (me s) (fPf 0) { rights := x.2, n := 256, align := 256 }) (fun s1 r => (refusesFrom s1 0 r.home r.pa).isSome) &&
    (afterI x.1 s).map (·.as.pc) == some 8) = true := by decide +kernel
def unmappedB (p : State × Chk) : Bool := match p.2 with | .unmapped _ => true | _ => false
abbrev fCb (fn : BitVec 5) : FmtM := ⟨0, 2, 5, 0, 0, 0, fn, 0⟩
theorem witness_cbo : [(Instr.cboClean (fCb 0), (0 : BitVec 5)), (.cboInval (fCb 1), 1), (.cboFlush (fCb 2), 2)].all (fun x =>
    let s := withObj 7 (live 0) 4096 mapped (setup x.1 (capIn capO)); let u := withObj 7 (live 0) 4096 0 (setup x.1 (capIn capO))
    readyB x.1 s && okB (tCheck s (me s) (fCb x.2) { rights := 2, n := 256, align := 256 }) (fun _ _ => true) &&
    readyB x.1 u && unmappedB (tCheck u (me u) (fCb x.2) { rights := 2, n := 256, align := 256 })) = true := by decide +kernel
abbrev fOq (d : BitVec 6) (fn : BitVec 5) : FmtM := ⟨d, 2, 5, 0, 0, 0, fn, 0⟩
abbrev sOq (i : Instr) : State := withObj 7 (live 0) 4096 mapped (setup i (capIn capO ∘ regs 0 8 0))
theorem witness_otq : [Instr.otqAttr (fOq 6 0), .otqCnt (fOq 6 1), .otqDims (fOq 6 2), .otqLayout (fOq 6 3), .otqPlanes (fOq 6 4), .otqExt (fOq 6 5)].all (fun i =>
    let s := sOq i; let e := (xlate s (whoOf (me s)) ⟨7, 0, 0⟩).2
    readyB i s && capRights (rdC (me s).t 2) % 2 ^ 11 != 0 && wState e.word0 == 1 && !wDist e.word0) = true ∧
    aReg (sOq (.otqAttr (fOq 6 0))) 6 = some (BitVec.ofNat 64 (live 0)) ∧ aReg (sOq (.otqDims (fOq 6 2))) 6 = some 4096 ∧
    aReg (sOq (.otqExt (fOq 6 5))) 6 = some (BitVec.ofNat 64 mapped) := by decide +kernel
/-- VALS on one pair: the line's version 5 as expected, with capability 2 and offset 0; the list stands at physical 0x8000. -/
abbrev fVals : FmtM := ⟨6, 1, 5, 0, 1, 3, 0, 0⟩
abbrev iVals : Instr := .vals fVals
abbrev sVals (ver : Byte) : State := physWrite (physWrite (withObj 7 (live versioned) 4096 mapped (setup iVals (capIn capO ∘ regs 0 0x8000 0))) 0x300000 [ver])
  0x8000 ([0, 0, 0, 0, 0, 0, 0, 0] ++ [5, 0, 0, 0, 0, 0, 2, 0])
theorem witness_vals : readyB iVals (sVals 5) = true ∧ okB (mCheck (sVals 5) (me (sVals 5)) fVals { rights := 1, n := 16, align := 16 }) (fun s1 _ =>
    match valsList (me (sVals 5)) fVals 1 0 s1 with
    | .inr (s2, ps) => (match valsLines (me (sVals 5)) 1 ps s2 with | .inr (_, rs) => ps.length == 1 && rs.length == 1 | _ => false)
    | _ => false) = true ∧ aReg (sVals 5) 6 = some 0 ∧ aReg (sVals 6) 6 = some 1 := by decide +kernel

def sem (n : Nat) (v : BitVec 32) (s : State) : State := modCluster s k0 fun k => { k with sems := ins k.sems n v }
def range (lo n : Nat) (t : Task) : Task := { user t with crew := { t.crew with lseq := 1, semlo := lo, semn := n } }
abbrev fSw (fn : BitVec 3) (n : BitVec 24) : FmtS := ⟨6, 4, 0, 1, 1, fn, n⟩
abbrev iSw : Instr := .swait (fSw 0 12)
abbrev iTake : Instr := .swaitTake (fSw 1 12)
abbrev iSsig : Instr := .ssig ⟨0, 0, 0, 1, 2, 0, 12⟩
abbrev iSadd : Instr := .sadd ⟨6, 4, 0, 1, 2, 0, 12⟩
/-- The first and the last semaphore of the crew; the count one short and just met. -/
theorem witness_swait : readyB iSw (sem 12 3 (setup iSw (range 12 1 ∘ regs 3 0 0))) = true ∧ Claims.mayName (me (setup iSw (range 12 1))) 12 ∧
    (afterI iSw (sem 12 3 (setup iSw (range 12 1 ∘ regs 3 0 0)))).map (fun t => (lkpD t.a 6 0, t.as.pc)) = some (3, 8) ∧
    (afterI iSw (sem 12 3 (setup iSw (range 12 1 ∘ regs 4 0 0)))).map (fun t => (t.as.pc, t.as.held.isSome)) = some (0, true) := by
  unfold Claims.mayName; decide +kernel
theorem witness_swaitTake : readyB iTake (sem 12 3 (setup iTake (range 10 3 ∘ regs 3 0 0))) = true ∧ Claims.mayName (me (setup iTake (range 10 3))) 12 ∧
    nextIs (exec iTake (sem 12 3 (setup iTake (range 10 3 ∘ regs 3 0 0)))) (fun t => semAt t k0 12 == 0) = true ∧
    (afterI iTake (sem 12 2 (setup iTake (range 10 3 ∘ regs 3 0 0)))).map (·.as.held.isSome) = some true := by unfold Claims.mayName; decide +kernel
theorem witness_ssig : readyB iSsig (place iSsig) = true ∧ Claims.mayName (me (place iSsig)) 12 ∧ relDone (releaseSteps (place iSsig) (me (place iSsig)) 1 none) (fun _ => true) = true ∧
    nextIs (exec iSsig (sem 12 0xFFFFFFFF (place iSsig))) (fun t => semAt t k0 12 == 0) = true := by unfold Claims.mayName; decide +kernel
theorem witness_sadd : readyB iSadd (setup iSadd (regs 5 0 0)) = true ∧ relDone (releaseSteps (setup iSadd (regs 5 0 0)) (me (setup iSadd (regs 5 0 0))) 1 none) (fun _ => true) = true ∧
    nextIs (exec iSadd (sem 12 2 (setup iSadd (regs 5 0 0)))) (fun t => semAt t k0 12 == 7) = true := by decide +kernel
theorem witness_semaphore_out : [iSw, iTake, iSsig, iSadd].all (fun i => readyB i (setup i (range 13 4)) && faultI i (setup i (range 13 4)) == some (3, 12) &&
    readyB i (setup i (range 8 4)) && faultI i (setup i (range 8 4)) == some (3, 12)) = true ∧ ¬ Claims.mayName (me (setup iSw (range 13 4))) 12 ∧
    ¬ Claims.mayName (me (setup iSw (range 8 4))) 12 := by unfold Claims.mayName; decide +kernel
abbrev iBara : Instr := .bara ⟨6, 4, 0, 1, 2, 0, 31⟩
abbrev iBarw : Instr := .barw ⟨0, 4, 0, 1, 1, 0, 31⟩
abbrev iBaraO : Instr := .bara ⟨6, 4, 0, 1, 2, 0, 32⟩
abbrev iBarwO : Instr := .barw ⟨0, 4, 0, 1, 1, 0, 32⟩
/-- The last barrier of slab 0 belongs to the partition; the first of slab 1 does not. -/
theorem witness_barriers : readyB iBara (setup iBara (regs 2 0 0)) = true ∧ holdsSlab (place iBara) (me (place iBara)).t.pid ⟨0, 31 / 32⟩ = true ∧
    relDone (releaseSteps (setup iBara (regs 2 0 0)) (me (setup iBara (regs 2 0 0))) 1 none) (fun _ => true) = true ∧
    nextIs (exec iBara (setup iBara (regs 2 0 0))) (fun t => lkpD (dieAt t 0).barriers 31 {} == { phase := 0, expect := 2, count := 1 }) = true ∧
    nextIs (exec iBara (setup iBara (regs 1 0 0))) (fun t => lkpD (dieAt t 0).barriers 31 {} == { phase := 1, expect := 1, count := 0 }) = true ∧
    readyB iBarw (place iBarw) = true ∧ (afterI iBarw (setup iBarw (regs 1 0 0))).map (·.as.pc) = some 8 ∧
    (afterI iBarw (place iBarw)).map (·.as.held.isSome) = some true ∧ holdsSlab (place iBaraO) (me (place iBaraO)).t.pid ⟨0, 32 / 32⟩ = false ∧
    readyB iBaraO (place iBaraO) = true ∧ readyB iBarwO (place iBarwO) = true ∧ faultI iBaraO (place iBaraO) = some (3, 32) ∧
    faultI iBarwO (place iBarwO) = some (3, 32) := by decide +kernel
abbrev iFence (o : BitVec 2) : Instr := .fence ⟨0, 0, 0, 4, o, 0, 0⟩
theorem witness_fence : [1, 2, 3].all (fun o => readyB (iFence o) (place (iFence o)) &&
    relDone (releaseSteps (place (iFence o)) (me (place (iFence o))) 4 none) (fun s1 => goesTo (iFence o) (place (iFence o)) (retire (me (place (iFence o)))
      (if o = 2 then s1 else acquireInval (if o = 1 then place (iFence o) else s1) (whoOf (me (place (iFence o)))) 4)))) = true := by decide +kernel
abbrev iEv : Instr := .evpop ⟨28, 0, 0, 1, 1, 0, 0⟩
abbrev iEvP : Instr := .evpopPoll ⟨28, 0, 0, 1, 1, 1, 0⟩
theorem witness_events : [iEv, iEvP].all (fun i => readyB i (setup i fun t => { t with evq := [0x4000000000000000300000000000000020000000000000001] }) &&
    (afterI i (setup i fun t => { t with evq := [0x4000000000000000300000000000000020000000000000001] })).map (fun t => ([28, 29, 30, 31].map fun n => lkpD t.a n 0, t.evq)) ==
      some ([1, 2, 3, 4], []) && readyB i (place i)) = true ∧ (afterI iEv (place iEv)).map (·.as.held.isSome) = some true ∧
    (afterI iEvP (place iEvP)).map (·.as.pc) = some 8 := by decide +kernel

/-! ### Vector, scratch and matrix forms -/

/-- v4, v5 and v3 of the XS, predicate p1. -/
def vregs (x y z : VReg) (p : BitVec 32) (t : Task) : Task := { t with v := [(3, z), (4, x), (5, y)], p := [(1, p)] }
abbrev iVadd : Instr := .vadd ⟨6, 4, 5, 0, 4, 1, 1, 0, 0, 0⟩
/-- 1 + 1 in the active lane 0; lane 1 keeps the prior 0. -/
theorem witness_float : ((floatOp iVadd 0 0 0 0).isSome && readyB iVadd (setup iVadd (vregs 0x3F8000003F800000 0x3F8000003F800000 0 1))) = true ∧
    vLane (setup iVadd (vregs 0x3F8000003F800000 0x3F8000003F800000 0 1)) 6 32 0 = some 0x40000000 ∧
    vLane (setup iVadd (vregs 0x3F8000003F800000 0x3F8000003F800000 0 1)) 6 32 1 = some 0 := by decide +kernel
theorem witness_float_forms : floatForms.all (fun i => (floatOp i 0 0 0 0).isSome) = true := by decide +kernel
theorem witness_int_forms : intForms.all (fun i => (intOp i 0 0).isSome) = true := by decide +kernel
abbrev iVpopq : Instr := .vpopq ⟨6, 0, 0, 0, 2, 1, 0xA, 0, 0, 0⟩
/-- VPOPQ on an empty queue, on another format and on its own; VPUSHQ at 15 and 16 items. -/
theorem witness_vpopq : readyB iVpopq (place iVpopq) = true ∧ isHeld (place iVpopq) (.qpop 5) = true ∧
    readyB iVpopq (setup iVpopq fun t => { t with vq := [(7, 0xB)] }) = true ∧ faultOfStep (setup iVpopq fun t => { t with vq := [(7, 0xB)] }) = some (6, 0) ∧
    readyB iVpopq (setup iVpopq fun t => { t with vq := [(7, 0xA), (9, 0xA)], p := [(1, 1)] }) = true ∧
    (after (setup iVpopq fun t => { t with vq := [(7, 0xA), (9, 0xA)], p := [(1, 1)] })).map (fun t => (lkpD t.v 6 0, t.vq)) = some (7, [(9, 0xA)]) := by decide +kernel
abbrev iVpushq : Instr := .vpushq ⟨0, 4, 0, 0, 0, 0, 0, 0, 0, 0⟩
theorem witness_vpushq : readyB iVpushq (setup iVpushq fun t => { t with wq := List.replicate 15 0, v := [(4, 5)] }) = true ∧
    (after (setup iVpushq fun t => { t with wq := List.replicate 15 0, v := [(4, 5)] })).map (·.wq.getLast?) = some (some 5) ∧
    isHeld (setup iVpushq fun t => { t with wq := List.replicate 16 0 }) (.qpush 6) = true := by decide +kernel
theorem witness_window : ∀ w, w ∈ (user (supTask 1 sl0 0)).windows → w.dst ≠ .v 6 := by decide +kernel

/-- Bank 0 in SCRATCH mode, bank 1 in FIFO mode, all declared to the crew. -/
def banks (s : State) : State :=
  modTask (modCluster s k0 fun k => { k with bank := (List.range 48).map fun b => (b, { mode := if b = 1 then .fifo else .scratch }) }) c0
    fun t => { t with crew := { t.crew with scrm := 0xFFFFFFFFFFFD, fifom := 2 } }
theorem scratch_first : ScratchOk (banks (place iVadd)) (me (banks (place iVadd))) (me (banks (place iVadd))).t.crew.scrm .scratch (2 ^ 18 - 128) 128 := by
  unfold ScratchOk ScratchDeclared ScratchTransit ScratchMode; decide +kernel
theorem scratch_last : ScratchOk (banks (place iVadd)) (me (banks (place iVadd))) (me (banks (place iVadd))).t.crew.scrm .scratch (0xC00000 - 128) 128 := by
  unfold ScratchOk ScratchDeclared ScratchTransit ScratchMode; decide +kernel
theorem scratch_fifo : ScratchOk (banks (place iVadd)) (me (banks (place iVadd))) (me (banks (place iVadd))).t.crew.fifom .fifo (2 ^ 18) 1 := by
  unfold ScratchOk ScratchDeclared ScratchTransit ScratchMode; decide +kernel
abbrev iVlds : Instr := .vlds ⟨6, 4, 0, 0, 6, 0, 0xA, 0, 0, 0xFFF⟩
/-- VLDS of the last 128 bytes; one unit beyond; misaligned. -/
theorem witness_vlds : readyB iVlds (banks (setup iVlds (regs (0xC00000 - 96) 0 0))) = true ∧ (after (banks (setup iVlds (regs (0xC00000 - 96) 0 0)))).map (·.xs.pc) = some 8 ∧
    faultOfStep (banks (setup iVlds (regs (0xC00000 - 64) 0 0))) = some (10, 0xC00000 - 96) ∧ faultOfStep (banks (setup iVlds (regs 33 0 0))) = some (9, 1) := by decide +kernel
/-- Bank 2 changes its mode; bank 2 is a CACHE bank. -/
def turning (s : State) : State := modBank s k0 2 fun b => { b with transit := some { target := .fifo, sem := none, since := 0 } }
def asCache (s : State) : State := modBank s k0 2 fun b => { b with mode := .cache }
theorem scratch_transit : ScratchDeclared 0xFFFFFFFFFFFD (2 ^ 19) 128 ∧ ScratchTransit (turning (banks (place iVadd))) (me (turning (banks (place iVadd)))) (2 ^ 19) 128 ∧
    ¬ ScratchTransit (asCache (banks (place iVadd))) (me (asCache (banks (place iVadd)))) (2 ^ 19) 128 ∧
    ¬ ScratchMode (asCache (banks (place iVadd))) (me (asCache (banks (place iVadd)))) .scratch (2 ^ 19) 128 ∧
    ¬ ScratchDeclared 0xFFFFFFFFFFFD (0xC00000 - 96) 128 ∧ ¬ ScratchDeclared 0xFFFFFFFFFFFD (2 ^ 19 - 32) 128 := by
  unfold ScratchDeclared ScratchTransit ScratchMode; decide +kernel
theorem witness_scratch_modes : [iVlds, .vsts ⟨4, 4, 0, 0, 2, 1, 0xA, 0, 0, 0xFFF⟩].all (fun i =>
    isHeld (turning (banks (setup i (regs (2 ^ 19 + 32) 0 0)))) .transit && faultOfStep (asCache (banks (setup i (regs (2 ^ 19 + 32) 0 0)))) == some (10, 2 ^ 19)) = true := by
  decide +kernel
abbrev iVldsx : Instr := .vldsx ⟨6, 4, 5, 0, 6, 1, 0xA, 0, 0, 0⟩
theorem witness_vldsx : readyB iVldsx (banks (setup iVldsx (regs 0 4 0 ∘ vregs 0 0 0 3))) = true ∧
    ScratchOk (banks (setup iVldsx (regs 0 4 0 ∘ vregs 0 0 0 3))) (me (banks (setup iVldsx (regs 0 4 0 ∘ vregs 0 0 0 3))))
      (me (banks (setup iVldsx (regs 0 4 0 ∘ vregs 0 0 0 3)))).t.crew.scrm .scratch 4 4 := by unfold ScratchOk ScratchDeclared ScratchTransit ScratchMode; decide +kernel
abbrev iVsts : Instr := .vsts ⟨4, 5, 0, 0, 2, 1, 0xA, 0, 0, 0⟩
theorem witness_vsts : readyB iVsts (banks (setup iVsts (regs 0 64 0 ∘ vregs 0x0807060504030201 0 0 1))) = true ∧
    mxOverlap (me (banks (place iVsts))).k [64] 128 = false ∧
    nextIs (exec iVsts (banks (setup iVsts (regs 0 64 0 ∘ vregs 0x0807060504030201 0 0 1)))) (fun t =>
      [64, 67, 68].map (scrByte (clusterAt t k0)) == [1, 4, 0]) = true := by decide +kernel
/-- The matrix array still has to read the bytes. -/
theorem witness_vsts_waits : (let s := modCore (banks (setup iVsts (regs 0 64 0))) c0 fun k => { k with mxq := [.mul ⟨0, 4, 5, 0, 0, 3, 3, 0, 16⟩ false 0 0x300000 []] }
    readyB iVsts s && mxOverlap (me s).k [64] 128 && isHeld s .mxread) = true := by decide +kernel
abbrev iVldF : Instr := .vldsFifo ⟨6, 4, 0, 0, 6, 0, 0, 0, 1, 0⟩
abbrev iVstF : Instr := .vstsFifo ⟨4, 3, 0, 0, 2, 0, 0, 0, 1, 0⟩
def fifo1 (l : List Line) (s : State) : State := modBank s k0 1 fun b => { b with fifo := l }
theorem witness_fifo : readyB iVldF (banks (setup iVldF (regs 0x40000 0 0))) = true ∧ isHeld (banks (setup iVldF (regs 0x40000 0 0))) .fifo = true ∧
    readyB iVstF (banks (setup iVstF fun t => { t with x := [(3, 0x40000)] })) = true ∧
    mxOverlap (me (banks (place iVstF))).k [2 ^ 18] (2 ^ 18) = false ∧
    nextIs (exec iVldF (fifo1 [5 + (7 <<< 1024)] (banks (setup iVldF (regs 0x40000 0 0))))) (fun t => (bankAt (clusterAt t k0) 1).fifo.isEmpty) = true := by decide +kernel
abbrev iTld : Instr := .tld ⟨1, 4, 5, 0, 8, 0, 0, 0, 0⟩
abbrev iTst : Instr := .tst ⟨1, 4, 5, 0, 4, 0, 0, 0, 0⟩
theorem witness_tiles : readyB iTld (banks (setup iTld (regs 0 128 0))) = true ∧ readyB iTst (banks (setup iTst (regs 0 128 0))) = true ∧
    mxOverlap (me (banks (setup iTst (regs 0 128 0)))).k (tileAddrs (banks (setup iTst (regs 0 128 0))) (me (banks (setup iTst (regs 0 128 0)))) ⟨1, 4, 5, 0, 4, 0, 0, 0, 0⟩) 128 = false ∧
    (after (banks (setup iTld (regs 0 128 0)))).map (·.xs.pc) = some 8 ∧ (after (banks (setup iTst (regs 0 128 0)))).map (·.xs.pc) = some 8 := by decide +kernel
theorem witness_tile_rows : ∀ r : Nat, r < 32 → ScratchOk (banks (place iTld)) (me (banks (place iTld))) (me (banks (place iTld))).t.crew.scrm .scratch (128 * r) 128 := by
  unfold ScratchOk ScratchDeclared ScratchTransit ScratchMode; decide +kernel

/-- VLDSX misaligned, beyond scratch, in a bank in TRANSIT and in another mode. -/
theorem witness_vldsx_stops : faultOfStep (banks (setup iVldsx (regs 2 4 0 ∘ vregs 0 0 0 1))) = some (9, 2) ∧
    faultOfStep (banks (setup iVldsx (regs 0xC00000 4 0 ∘ vregs 0 0 0 1))) = some (10, 0xC00000) ∧
    isHeld (turning (banks (setup iVldsx (regs (2 ^ 19) 4 0 ∘ vregs 0 0 0 1)))) .transit = true ∧
    faultOfStep (asCache (banks (setup iVldsx (regs (2 ^ 19) 4 0 ∘ vregs 0 0 0 1)))) = some (10, 2 ^ 19) := by decide +kernel
def xsel (a : W64) (t : Task) : Task := { t with x := [(4, a), (3, a), (5, 128)] }
def fturn (s : State) : State := modBank s k0 1 fun b => { b with transit := some { target := .cache, sem := none, since := 0 } }
def noFifo (s : State) : State := modBank s k0 1 fun b => { b with mode := .scratch }
def mulReads (s : State) : State := modCore s c0 fun k => { k with mxq := [.mul ⟨0, 4, 5, 0, 0, 3, 3, 0, 16⟩ false 0x40000 0x300000 []] }
/-- The fifo forms on an undeclared bank, a bank in TRANSIT and one in another mode; TLD and TST misaligned in base and stride,
beyond scratch, in TRANSIT and in another mode; the stores over a multiply's bytes. -/
theorem witness_fifo_stops : [iVldF, iVstF].all (fun i => faultOfStep (banks (setup i (xsel 0))) == some (10, 0) &&
      isHeld (fturn (banks (setup i (xsel 0x40000)))) .transit && faultOfStep (noFifo (banks (setup i (xsel 0x40000)))) == some (10, 0x40000)) = true ∧
    isHeld (mulReads (banks (setup iVstF (xsel 0x40000)))) .mxread = true := by decide +kernel
theorem witness_tile_stops : [iTld, iTst].all (fun i => faultOfStep (banks (setup i (regs 33 128 0))) == some (9, 33) &&
      faultOfStep (banks (setup i (regs 0 4 0))) == some (9, 4) && faultOfStep (banks (setup i (regs (0xC00000 - 96) 128 0))) == some (10, 0xC00000 - 96) &&
      isHeld (turning (banks (setup i (regs (2 ^ 19) 128 0)))) .transit && faultOfStep (asCache (banks (setup i (regs (2 ^ 19) 128 0)))) == some (10, 2 ^ 19)) = true ∧
    (let s := modTask (noFifo (banks (setup iTst (regs 0x40000 128 0)))) c0 fun t => { t with crew := { t.crew with scrm := 0xFFFFFFFFFFFF, fifom := 0 } }
     isHeld (mulReads s) .mxread) = true := by decide +kernel

abbrev fMul : FmtT := ⟨0, 4, 5, 0, 0, 3, 3, 0, 16⟩
abbrev iMul : Instr := .mxmul fMul
abbrev iMulc : Instr := .mxmulc ⟨0, 4, 5, 0, 0, 2, 3, 0, 16⟩
def wanting (s : State) : State := modCore s c0 fun k => { k with wanted := true }
abbrev sMul (i : Instr) (a b : W64) : State := banks (setup i (regs a b 0))
def oneBank (s : State) : State := modBank s k0 1 fun b => { b with mode := .scratch }
def queued4 (s : State) : State := modCore s c0 fun k => { k with mxq := [.zero, .zero, .zero, .zero] }
/-- MXMUL and MXMULC without a lease, misaligned, in one bank group, apart, and on a full queue. -/
theorem witness_mxmul : [iMul, iMulc].all (fun i => readyB i (sMul i 0 0x300000) && faultOfStep (sMul i 0 0x300000) == some (11, 0) &&
    faultOfStep (wanting (sMul i 8 0x300000)) == some (9, 8) && faultOfStep (wanting (sMul i 0 0x300080)) == some (9, 0x300080)) = true := by decide +kernel
theorem witness_mxmul_banks : [iMul, iMulc].all (fun i => faultOfStep (wanting (sMul i 0 0x2FFF00)) == some (10, 0) && faultOfStep (wanting (sMul i 0x2FFF00 0x600000)) == some (10, 0x2FFF00) &&
    nextIs (exec i (wanting (sMul i 0x300000 0x600000))) (fun t => (coreAt t c0).mxq.length == 1) &&
    isHeld (queued4 (wanting (sMul i 0x300000 0x600000))) .matrixFull) = true ∧
    operandBytes 3 16 = 8192 ∧ ScratchOk (wanting (sMul iMul 0x300000 0x600000)) (me (wanting (sMul iMul 0x300000 0x600000))) 0xFFFFFFFFFFFD .scratch 0x300000 8192 := by
  unfold ScratchOk ScratchDeclared ScratchTransit ScratchMode; decide +kernel
theorem witness_mxmul_transit : [iMul, iMulc].all (fun i => let s := modBank (wanting (sMul i 0x300000 0x600000)) k0 12 fun b =>
      { b with transit := some { target := .cache, sem := none, since := 0 } }
    readyB i s && isHeld s .transit) = true := by decide +kernel
def undecl (b : Nat) (s : State) : State := modTask s c0 fun t => { t with crew := { t.crew with scrm := t.crew.scrm &&& ~~~ BitVec.ofNat 48 (2 ^ b) } }
def bankTr (n : Nat) (s : State) : State := modBank s k0 n fun b => { b with transit := some { target := .cache, sem := none, since := 0 } }
def bankMd (n : Nat) (s : State) : State := modBank s k0 n fun b => { b with mode := .cache }
/-- An undeclared bank is reported before a bank in TRANSIT holds, and a hold comes before a wrong mode is reported (R263). -/
theorem witness_mxmul_order : [iMul, iMulc].all (fun i => let s := wanting (sMul i 0x300000 0x600000)
    faultOfStep (undecl 24 (bankTr 12 s)) == some (10, 0x600000) && faultOfStep (undecl 12 s) == some (10, 0x300000) && isHeld (bankTr 24 s) .transit &&
    faultOfStep (bankMd 12 s) == some (10, 0x300000) && faultOfStep (bankMd 24 s) == some (10, 0x600000) && isHeld (bankTr 24 (bankMd 12 s)) .transit) = true := by
  decide +kernel
theorem witness_matrix_queue : [Instr.mxzero ⟨0, 0, 0, 0, 0, 0, 0, 0, 0⟩, .mxzeroBlk ⟨0, 4, 0, 0, 0, 1, 0, 1, 9⟩, .mxwr ⟨0, 4, 1, 0, 0, 0, 0, 0, 7⟩,
    .mxfree ⟨0, 0, 0, 0, 0, 0, 0, 0, 0⟩].all (fun i => nextIs (exec i (place i)) (fun t => (coreAt t c0).mxq.length == 1) &&
      readyB i (queued4 (place i)) && isHeld (queued4 (place i)) .matrixFull) = true := by decide +kernel
abbrev iMxrd : Instr := .mxrd ⟨1, 4, 0, 0, 12, 1, 0, 0, 9⟩
abbrev iMxrd64 : Instr := .mxrd ⟨1, 4, 0, 0, 12, 0, 0, 0, 7⟩
abbrev iBand : Instr := .mxrdBand ⟨1, 4, 5, 6, 12, 1, 0, 1, 63⟩
theorem witness_tileForms : [iMxrd, iMxrd64, iBand].all (fun i => readyB i (place i) && (me (place i)).k.mxq.isEmpty &&
    (after (place i)).map (·.xs.pc) == some 8 && readyB i (queued4 (place i)) && isHeld (queued4 (place i)) .mxread) = true := by decide +kernel
theorem witness_multiplyCell : fMul.fa ≠ 0 ∧ fMul.fb ≠ 0 ∧ (0 : Nat) < 256 ∧ (255 : Nat) < 256 := by decide
/-- The spec's BF16 sum of 32 products: two group sums, each rounded, give 12 and not 11.25. -/
def sumTerms : List FVal := [0x4B800000] |>.append (List.replicate 15 0x3F000000) |>.append [0xCB800000] |>.append (List.replicate 15 0x3E800000) |>.map (decodeF 1)
theorem test_accumulate : roundF 1 .rne (accNarrow (decodeF 1 0) (groups16 2 sumTerms)) = 0x41400000 := by decide +kernel

def leased (l : List MxEntry) : State :=
  modCluster (modCore State.reset c0 fun k => { k with mxq := l, wanted := true }) k0 fun k => { k with lease := { holder := some 3 } }
theorem witness_mxEntry : (coreAt (leased [.mul fMul false 0 0 []]) c0).mxq = [.mul fMul false 0 0 []] ∧
    (clusterAt (leased [.mul fMul false 0 0 []]) (CoreId.cluster c0)).lease.holder = some (cix c0) ∧
    nextIs (exec (.matrixEntryComplete c0) (leased [.ran])) (fun t => (coreAt t c0).mxq.isEmpty && (clusterAt t k0).lease.cmds == 1) = true ∧
    nextIs (exec (.matrixEntryComplete c0) (leased [.zero])) (fun t => (coreAt t c0).dirty.length == 64) = true ∧
    nextIs (exec (.matrixEntryComplete c0) (leased [.zeroBlk 1 5])) (fun t => (coreAt t c0).dirty == [5]) = true ∧
    nextIs (exec (.matrixEntryComplete c0) (leased [.wr 1 5 (List.replicate 32 1)])) (fun t => accLane (coreAt t c0).acc 32 160 == 1) = true ∧
    nextIs (exec (.matrixEntryComplete c0) (leased [.free])) (fun t => (coreAt t c0).mxq.isEmpty) = true := by decide +kernel
def asked (h : Option Nat) : State := modCluster State.reset k0 fun k => { k with lease := { holder := h, last := 1, reqs := [1, 3, 2] } }
/-- Round robin after core 1: core 2 is next. -/
theorem witness_lease : (2 : Nat) ∈ (clusterAt (asked none) k0).lease.reqs ∧
    (∀ j ∈ (clusterAt (asked none) k0).lease.reqs, (2 + 3 - (clusterAt (asked none) k0).lease.last) % 4 ≤ (j + 3 - (clusterAt (asked none) k0).lease.last) % 4 ∨ 4 ≤ j) ∧
    nextIs (exec (.leaseGrant k0) (asked none)) (fun t => (clusterAt t k0).lease.holder == some 2) = true ∧
    nextIs (exec (.leaseTimeout k0) { asked (some 0) with ck := 65536 }) (fun t => (clusterAt t k0).lease.holder != some 0) = true := by decide +kernel
def transiting (m : Mode) : State := modBank State.reset k0 5 fun _ => { mode := m, transit := some { target := .fifo, sem := some 9, since := 0 } }
theorem witness_bankMode : [Mode.cache, .scratch, .fifo].all (fun m => (bankAt (clusterAt (transiting m) k0) 5).fifo.isEmpty && !mxTouches (transiting m) k0 5 &&
    nextIs (exec (.bankModeComplete k0 5) (transiting m)) (fun t => (bankAt (clusterAt t k0) 5).mode == .fifo && semAt t k0 9 == 1)) = true := by decide +kernel

/-! ### Engines and system forms -/

/-- Object 7 from its raw table words 0 to 2 and 5. -/
def withRaw (w0 w1 w2 w5 : Nat) (s : State) : State :=
  let s1 := modSlab s sl0 fun b => { b with otbase := 0x100004 }
  let s2 := physWrite s1 (0x100000 + 64 * 7) (bytesOf 64 (w0 + w1 * 2 ^ 64 + w2 * 2 ^ 128 + 0x200000 * 2 ^ 192 + w5 * 2 ^ 320))
  physWrite s2 0x200000 (bytesOf 8 mapped)
/-- A tiled FP64 object of 8 by 8, and the same distributed over the partition by blocks of one. -/
def tiled (s : State) : State := withRaw (2 ^ 62 + 2 ^ 52) (8 + 8 * 2 ^ 32) 0 0 s
def lay1 : Nat := 2 ^ 62 + 2 ^ 40 + 2 ^ 24 + 2 ^ 8
def lay2 : Nat := 2 ^ 62 + 2 ^ 41 + 2 ^ 24 + 2 ^ 8
def distd (s : State) : State := withRaw (2 ^ 62 + 3 * 2 ^ 52 + 2 ^ 49) (8 + 8 * 2 ^ 32) (1 + 2 ^ 32) lay1 s
abbrev cap512 : CapReg := { tag := true, bits := mkCap 7 0 0x7FF 0 512 0 }
/-- c2 is `k`, c5 to c9 name physical memory, c10 physical memory from 0x8000; a2, a4 and a5 are given. -/
def eTask (k : CapReg) (a2 a4 a5 : W64) (t : Task) : Task :=
  { t with c := [(2, k)] ++ ([5, 6, 7, 8, 9].map fun n => (n, windowCap)) ++ [(10, { tag := true, bits := mkCap 0 0 0x7FF 0x8000 4096 0 })],
           a := [(2, a2), (4, a4), (5, a5)] }
abbrev eState (i : Instr) (k : CapReg) (a2 a4 a5 : W64) : State := banks (setup i (eTask k a2 a4 a5))
/-- The issue passes its checks and its release, and the queue takes the entry; with a full queue the strand holds. -/
def issues (i : Instr) (s : State) : Bool :=
  readyB i s && (match issueOf i s (me s) with
    | none => false
    | some m => (m.f.wv == 0 || semAllowed (me s).t m.f.wsem.toNat) && (m.f.sv == 0 || semAllowed (me s).t m.f.ssem.toNat) &&
      (match m.chk s (me s) with
        | .ok s1 => relDone (releaseSteps s1 (me s) (m.scope s1) none) fun s2 =>
            let q := queueFor c0 m.q
            (queueAt s2 q).length == 0 &&
            (let e := mkEntry s2 (me s) i m.f [rdG s (me s) m.f.sa, rdG s (me s) m.f.sb, rdG s (me s) m.f.sc] m.caps m.fifo
             goesTo i s (retire (me s) (modTask (setQueue { s2 with serial := s2.serial + 1 } q [e]) c0 (tagged i m.f (me s).t.etag)))) &&
            (let full := setQueue s q (List.replicate m.depth (mkEntry s (me s) i m.f [] [] false))
             nextIs (exec i full) fun t => (queueAt t q).length == m.depth && ((coreAt t c0).task.map fun k => k.as.held.isSome) == some true)
        | _ => false))
theorem witness_issue_copy :
    issues (.cpy fE) (tiled (eState (.cpy fE) cap512 0 0 0)) = true ∧ issues (.cpySt (fE 1)) (tiled (eState (.cpySt (fE 1)) cap512 0 0 0)) = true ∧
    issues (.cpyl fE) (eState (.cpyl fE) windowCap 0 0x4000 (32 * 2 ^ 24 + 64)) = true ∧
    issues (.cpylSt (fE 1)) (eState (.cpylSt (fE 1)) windowCap 0 0x4000 (32 * 2 ^ 24 + 64)) = true ∧
    issues (.cpylOo ⟨6, 2, 4, 10, 0, 0, 0, 0, 2, 0⟩) (eState (.cpylOo ⟨6, 2, 4, 10, 0, 0, 0, 0, 2, 0⟩) windowCap 0 64 0) = true ∧
    issues (.gath fE) (eState (.gath fE) windowCap 0 (2 ^ 24) (2 ^ 24 + 32)) = true ∧
    issues (.scat fE) (eState (.scat fE) windowCap 0 (2 ^ 24) (2 ^ 24 + 32)) = true := by decide +kernel
abbrev geo1 : W64 := 1 + 2 ^ 8 + 2 ^ 16 + 2 ^ 24 + 2 ^ 34
theorem witness_issue_links :
    issues (.halo fE) (eState (.halo fE) windowCap 0 geo1 4096) = true ∧ issues (.reshd fE2) (distd (eState (.reshd fE2) cap512 0 (BitVec.ofNat 64 lay1) 0)) = true ∧
    issues (.reshdInst (fE2 1)) (distd (eState (.reshdInst (fE2 1)) cap512 0 (BitVec.ofNat 64 lay1) 0)) = true ∧
    issues (.send (fE 2)) (eState (.send (fE 2)) windowCap 0 (32 * 2 ^ 24) 0) = true ∧
    issues (.sendt ⟨6, 2, 4, 5, 1, 0, 3, 0, 1, 1⟩) (eState (.sendt ⟨6, 2, 4, 5, 1, 0, 3, 0, 1, 1⟩) windowCap 0 (32 * 2 ^ 24) 0) = true ∧
    issues (.mcast fE) (distd (eState (.mcast fE) cap512 0 (32 * 2 ^ 24) (2 ^ 24 + 64))) = true ∧
    issues (.recvadd (fE2 2)) (eState (.recvadd (fE2 2)) windowCap (32 * 2 ^ 24) 5 0) = true := by decide +kernel
theorem witness_issue_attention : [Instr.attn fE, .attnc fE, .kvmap fE, .kvmapLen (fE 1), .kvunmap fE2].all (fun i =>
    issues i (eState i windowCap 0 0x8000 0)) = true := by decide +kernel
theorem witness_issue_streams : [Instr.cursRd fE2, .cursPlay (fE2 1), .cursGen (fE2 2), .cursInit (fE2 3), .cursFree (fE2 4), .cursRdc (fE2 5),
    .trunc fE, .commit fE2, .commitSnap (fE2 1), .sinpop ⟨6, 2, 0, 0, 0, 0, 0, 0, 0, 0⟩].all (fun i => issues i (eState i windowCap 63 63 0)) = true := by
  decide +kernel
/-- A faulting check: a record number beyond 63. -/
theorem witness_issue_fault : (match issueOf (.cursRd fE2) (eState (.cursRd fE2) windowCap 64 0 0) (me (eState (.cursRd fE2) windowCap 64 0 0)) with
    | some m => (match m.chk (eState (.cursRd fE2) windowCap 64 0 0) (me (eState (.cursRd fE2) windowCap 64 0 0)) with | .fault _ fi => fi.cls == 6 | _ => false)
    | none => false) = true ∧ (faultOfStep (eState (.cursRd fE2) windowCap 64 0 0)).map (·.1) = some 6 := by decide +kernel
abbrev sMoving : State := withObj 7 (live 0 + 2 ^ 62) 4096 mapped (eState (.cpyl fE) capO 0 0 (32 * 2 ^ 24 + 64))
theorem witness_issue_hold : (match issueOf (.cpyl fE) sMoving (me sMoving) with
    | some m => (match m.chk sMoving (me sMoving) with | .hold _ why => why == .movingAt 0 | _ => false)
    | none => false) = true ∧ isHeld sMoving (.movingAt 0) = true := by decide +kernel

/-- LAUNCH: c2 carries LAUNCH over the launch object, c4 names the packet's line in object 7. -/
abbrev fLa : FmtE := ⟨6, 2, 4, 0, 0, 0, 0, 0, 0, 0⟩
abbrev sLaunch : State := withObj 7 (live capStore) 4096 mapped (setup (.launch fLa) fun t => { t with c := [(2, windowCap), (4, capO)] })
theorem witness_launch : readyB (.launch fLa) sLaunch = true ∧ checkCap (whoOf (me sLaunch)) 2 windowCap (16 + 512) = none ∧
    (List.range 8).all (fun i => match (checkAcc sLaunch (whoOf (me sLaunch)) 4 capO { rights := 16 + 1 + 128, n := 32, align := if i = 0 then 256 else 32 } (32 * i : Nat)).2 with
      | .fault _ => false | _ => true) = true ∧
    okB (checkAcc sLaunch (whoOf (me sLaunch)) 4 capO { rights := 16 + 1 + 128, n := 32, align := 256 } 0) (fun s1 r =>
      wCapstore r.word0 && wCoding r.word0 == 0 && missB sLaunch s1 r 256 false fun s2 d tg =>
        relDone (releaseSteps (fillState s2 (me sLaunch) r d tg) (me sLaunch) 3 none) fun _ => true) = true ∧
    nextIs (exec (.launch fLa) sLaunch) (fun t => (partAt t Config.firstPid).map (fun p => p.subs.length) == some 1) = true := by decide +kernel

/-- Granule i of the packet read as a CLD, from an L1 hit or from its home, and kept. -/
def granuleStep (h : Here) (f : FmtE) (s : State) (i : Nat) : Option State :=
  let keep := fun (u : State) (d : Line) (tg : BitVec 8) => modTask u h.core fun k =>
    { k with as := { k.as with got := k.as.got ++ [{ tag := tg.getLsbD i, bits := d.extractLsb' (256 * i) 256 }] } }
  match granule s h f i with
  | (s1, .ok r) =>
    if wCapstore r.word0 && wCoding r.word0 == 0 && h.t.remote == .idle && !sideOverlap h.t r.loc 32 then
      (match l1Find (clusterAt s1 (CoreId.cluster h.core)) r.key with
      | some l => if wordsTouched (r.loc.byte % 256) 32 &&& ~~~ l.valid == 0 then some (keep (hitState s1 h r l) l.data l.tags) else none
      | none => if r.home.die == h.core.die then (match homeLoad s1 (whoOf h) r 32 false with
          | .ok s2 p => let o := overL1 s1 (CoreId.cluster h.core) r.key h.t.taskId false p
                        some (keep (fillState s2 h r o.1 o.2) o.1 o.2)
          | _ => none) else none)
    else none
  | _ => none
def granules (s : State) : Option State := (List.range 8).foldl (fun a i => a.bind fun t => granuleStep (me s) fLa t i) (some s)
abbrev sShort : State := modTask sLaunch c0 fun t => { t with c := [(2, windowCap), (4, { tag := true, bits := mkCap 7 0 0x7FF 0 224 0 })] }
/-- All eight granules are read; the last lies beyond the capability; the object holds no capabilities. -/
theorem witness_granules : (match granules sLaunch with | some t => relDone (releaseSteps t (me sLaunch) 3 none) (fun _ => true) | none => false) = true ∧
    ((List.range 7).foldl (fun a i => a.bind fun t => granuleStep (me sShort) fLa t i) (some sShort)).isSome = true ∧ faultOfStep sShort = some (3, 224) ∧
    faultOfStep (withObj 7 (live 0) 4096 mapped sLaunch) = some (5, 4) := by decide +kernel

abbrev fp : BitVec 32 := Config.firstPid
abbrev supId : W64 := (supTask fp sl0 0).taskId
def ent1 : Entry := { cmd := .launch fLa, serial := 5, tag := 1, core := c0, taskId := supId, lseq := 0, pid := fp, pc := 0, dst := 6 }
/-- The state after a form has issued, and its queue. -/
abbrev issued (i : Instr) (s : State) : State := again i s
def headOf (s : State) (q : QueueId) (f : Entry → Bool) : Bool := match queueAt s q with | e :: _ => f e | [] => false
abbrev qce : QueueId := ⟨0, 4, .ce1⟩
abbrev sCpyl : State := issued (.cpyl fE) (physWrite (eState (.cpyl fE) windowCap 0 0x4000 (32 * 2 ^ 24 + 64)) 0x4000 [0xAB])
def startable (s : State) (q : QueueId) : Bool :=
  headOf s q fun e => e.st == .queued && (firedAt s q).isEmpty && !isSendt e && (!e.wv || decide (e.wcnt ≤ (semAt s (CoreId.cluster e.core) e.wsem).toNat)) &&
    engineFree s q && orderMet s q e && (lgenCheck s q e).isNone
/-- An entry starts, does its work and completes: the byte stands in scratch, the queue is empty. -/
theorem witness_entry : startable sCpyl qce = true ∧ nextIs (exec (.engineEntryStart qce) sCpyl) (fun t =>
    scrByte (clusterAt t k0) 64 == 0xAB && headOf t qce (fun e => e.st == .running && e.done && e.acks == 0) &&
    nextIs (exec (.engineEntryComplete qce) t) fun u => (queueAt u qce).isEmpty) = true := by decide +kernel
abbrev sBase0 : State := place (.add fR)
/-- A CPYL whose wait semaphore 0 must reach `n`. -/
abbrev sSendW (n : Nat) : State := setQueue sBase0 qce [{ ent1 with cmd := .cpyl fE, wv := true, wcnt := n, wsem := 0 }]
abbrev sRecv : State := issued (.recvadd (fE2 2)) (eState (.recvadd (fE2 2)) windowCap (32 * 2 ^ 24) 5 0)
abbrev qle : QueueId := ⟨0, 0, .le⟩
/-- A RECVADD whose stream is empty waits, running, and goes on with the same event. -/
theorem witness_entry_wait : startable sRecv qle = true ∧ nextIs (exec (.engineEntryStart qle) sRecv) (fun t =>
    headOf t qle fun e => e.st == .running && !e.done) = true := by decide +kernel
def ran (q : QueueId) (s : State) : State := again (.engineEntryStart q) s
abbrev qge : QueueId := ⟨0, 4, .ge⟩
abbrev sCpy : State := issued (.cpy fE) (physWrite (tiled (eState (.cpy fE) cap512 0 0 0)) 0x1C00000 [0xCD])
/-- Record 127 of object 7, the last in it, named by the index at scratch 0. -/
def records (i : Instr) : State := withObj 7 (live 0) 4096 mapped (modCluster (eState i capO 0 (2 ^ 24) (2 ^ 24 + 32)) k0 fun k => { k with scr := [(0, 127), (32, 0xEE)] })
abbrev sSend2 : State := modCluster (eState (.send (fE 2)) windowCap 0 (32 * 2 ^ 24) 0) k0 fun k => { k with scr := [(0, 0x77)] }
/-- The byte at `n` of the lines that the homes hold. -/
def l2Bytes (n : Nat) (s : State) : List Nat := s.l2.map fun x => lineGet x.2.data n 1
/-- CPY brings a line to scratch, GATH a record, SCAT takes one to its object and SEND its data to their object. -/
theorem witness_copies : scrByte (clusterAt (ran qce sCpy) k0) 0 = 0xCD ∧ headOf (ran qce sCpy) qce (·.done) = true ∧
    scrByte (clusterAt (ran qge (issued (.gath fE) (physWrite (records (.gath fE)) (0x1C00000 + 32 * 127) [0xAB]))) k0) 32 = 0xAB ∧
    l2Bytes 224 (ran qge (issued (.scat fE) (records (.scat fE)))) = [0xEE] ∧ l2Bytes 0 (ran qle (issued (.send (fE 2)) sSend2)) = [0x77] := by decide +kernel
/-- The scratch that these entries use is theirs, to its last byte. -/
def banksFit (s : State) (e : Entry) (m : Mode) (a n : Nat) : Bool :=
  decide (a + n ≤ 0xC00000) && (List.range 48).all fun b => decide (a + n ≤ b * 2 ^ 18) || decide ((b + 1) * 2 ^ 18 ≤ a) ||
    !inTransit s (entClus e) b && (bankAt (clusterAt s (entClus e)) b).mode == m
theorem banksFit_ready {s : State} {e : Entry} {m : Mode} {a n : Nat} (h : banksFit s e m a n = true) : BanksReady s e m a n := by
  simp only [banksFit, Bool.and_eq_true, decide_eq_true_eq, List.all_eq_true, List.mem_range] at h
  refine ⟨h.1, fun b hb h1 h2 => ?_⟩
  have hx := h.2 b hb
  simp only [Bool.or_eq_true, Bool.and_eq_true, decide_eq_true_eq, Bool.not_eq_true', beq_iff_eq] at hx
  rcases hx with (h3 | h3) | h3
  · omega
  · omega
  · exact h3
theorem witness_banksReady : BanksReady sCpy ent1 .scratch 0 256 ∧ BanksReady sCpy ent1 .scratch (0xC00000 - 256) 256 ∧ BanksReady sCpy ent1 .fifo (2 ^ 18) 256 ∧
    ¬ BanksReady sCpy ent1 .scratch (0xC00000 - 255) 256 :=
  ⟨banksFit_ready (by decide +kernel), banksFit_ready (by decide +kernel), banksFit_ready (by decide +kernel), fun h => absurd h.1 (by decide)⟩
abbrev cap32 : CapReg := { tag := true, bits := mkCap 7 0 0x7FF 0 32 0 }
abbrev qaeT : QueueId := ⟨0, 4, .ae⟩
/-- A table of two pages in object 7, page 0 holding `n`; what a command leaves there, and its result. -/
def tableRun (i : Instr) (n : Nat) (p key : W64) : State := ran qaeT (issued i (withObj 7 (live 0) 4096 mapped (physWrite (eState i cap32 0 p key) 0x1C00000 (bytesOf 32 n))))
def tableIs (s : State) : List (Bool × W64) × List Nat := ((queueAt s qaeT).map fun e => (e.done, e.result), s.l2.map fun x => lineGet x.2.data 0 16)
theorem witness_table : tableIs (tableRun (.kvmap fE) 0 0 (3 * 2 ^ 40 + 5)) = ([(true, 0)], [2 ^ 63 + 3 * 2 ^ 39 + 10]) ∧
    (tableIs (tableRun (.kvmap fE) 0 2 0)).1 = [(true, 3)] ∧ tableIs (tableRun (.kvunmap fE2) 0 1 0) = ([(true, 4)], [0]) ∧
    tableIs (tableRun (.kvunmap fE2) (2 ^ 63) 0 0) = ([(true, 0)], [0]) ∧ tableIs (tableRun (.kvmapLen (fE 1)) (2 ^ 63) 0 7) = ([(true, 0)], [2 ^ 63 + 14]) := by
  decide +kernel
/-- The reads of its two entries leave a state as it is. -/
theorem witness_quietTable : (match queueAt (tableRun (.kvunmap fE2) 0 1 0) qaeT with
    | e :: _ => kvSize cap32 == 2 && [0, 1].all fun i => (match kvRead (entWho qaeT e) e cap32 (tableRun (.kvunmap fE2) 0 1 0) i with
      | .ok t x => t == tableRun (.kvunmap fE2) 0 1 0 && !x.v | _ => false)
    | [] => false) = true := by decide +kernel
abbrev qsu : QueueId := ⟨0, 0, .su⟩
/-- Record 31, the last of slab 0: GEN 9, PLAY 2, CMT 7, snapshots at 8 (slot 0, the newest) and 4 (slot 1), one every 4. -/
def rec9 : SRec := { v := true, seq := 3, gen := 9, play := 2, cmt := 7, sint := 4, shead := 0, svalid := 3, snap := [(0, 8), (1, 4)] }
def suRes (i : Instr) (v : W64) : Option (Bool × W64) :=
  ((queueAt (ran qsu (issued i (setRec (eState i windowCap 31 v 0) 0 31 rec9))) qsu).map fun e => (e.done, e.result)).head?
/-- CURS.play at CMT and beyond; CURS.gen at the largest number and beyond; COMMIT at GEN and beyond; COMMIT.snap at a multiple of SINT and
not; CURS.init with and without SINT. -/
theorem witness_cursors : [suRes (.cursPlay (fE2 1)) 7, suRes (.cursPlay (fE2 1)) 8, suRes (.cursGen (fE2 2)) 0xFFFFFFFF, suRes (.cursGen (fE2 2)) 0x100000000,
      suRes (.commit fE2) 9, suRes (.commit fE2) 10, suRes (.commitSnap (fE2 1)) 8, suRes (.commitSnap (fE2 1)) 7, suRes (.cursInit (fE2 3)) 4, suRes (.cursInit (fE2 3)) 0,
      suRes (.cursRd fE2) 0, suRes (.cursRdc (fE2 5)) 0, suRes (.cursFree (fE2 4)) 0, suRes (.sinpop ⟨6, 2, 0, 0, 0, 0, 0, 0, 0, 0⟩) 0].map (·.map (·.2)) =
    [some 0x900000007, some (-1), some 0xFFFFFFFF00000002, some (-1), some 0x900000009, some (-1), some 1, some (-1), some 0, some (-1),
      some 0x900000002, some 7, some 0, some (-1)] := by decide +kernel
def trunced (p : W64) : State := ran qsu (issued (.trunc fE) (setRec (withObj 7 (live 0) 4096 mapped (eState (.trunc fE) cap32 0 31 p)) 0 31 rec9))
/-- TRUNC below PLAY, at PLAY, below, at and above a snapshot, at GEN and beyond: {slot, RPLY}, and the record. -/
theorem witness_trunc : [1, 2, 3, 4, 8, 9, 10].map (fun p => ((queueAt (trunced p) qsu).map (·.result)).head?) =
      [some (-1), some 0xFF00000000000000, some 0xFF00000000000000, some 0x0100000000000004, some 8, some 8, some (-1)] ∧
    (let r := recAt (trunced 5) 0 31; (r.gen, r.cmt, r.svalid, r.rply, r.shead, r.play)) = (5, 5, 2, 4, 1, 2) := by decide +kernel
/-- An entry waits for its semaphore, for its engine, or behind another command on its table; its release waits. -/
theorem witness_entry_order : headOf (sSendW 1) qce (fun e => e.wv && decide ((semAt (sSendW 1) (CoreId.cluster e.core) e.wsem).toNat < e.wcnt) && !isSendt e) = true ∧
    (let e := { ent1 with cmd := .kvmap fE, st := .queued, caps := [windowCap] }
     let s := setQueue (setQueue sBase0 ⟨0, 4, .ae⟩ [e]) ⟨0, 3, .ae⟩ [{ e with serial := 4, st := .running }]
     !orderMet s ⟨0, 4, .ae⟩ e) = true ∧
    (let s := modTask (eState (.kvmap fE) windowCap 0 0x8000 0) c0 fun t => { t with unacked := [(1, 1)] }
     readyB (.kvmap fE) s && (match releaseSteps s (me s) 3 none with | .wait _ => true | _ => false) && isHeld s .release) = true := by decide +kernel
/-- A GATH whose record lies beyond the object halts with a record. -/
abbrev sGath : State := issued (.gath fE) (withObj 7 (live 0) 4096 mapped (modCluster (eState (.gath fE) capO 0 (2 ^ 24) (2 ^ 24 + 32)) k0 fun k => { k with scr := [(0, 128)] }))
theorem witness_entry_fault : startable sGath ⟨0, 4, .ge⟩ = true ∧ nextIs (exec (.engineEntryStart ⟨0, 4, .ge⟩) sGath) (fun t =>
    headOf t ⟨0, 4, .ge⟩ (fun e => e.st == .halted) && (pkgAt t 0).frecs.length == 1) = true := by decide +kernel
abbrev iSendt (w : BitVec 10) : Instr := .sendt ⟨6, 2, 4, 5, 1, 0, 3, 0, 1, w⟩
abbrev sSendt (w : BitVec 10) : State := issued (iSendt w) (eState (iSendt w) windowCap 0 (32 * 2 ^ 24) 0)
/-- A SENDT arms below its threshold and fires at it; a fired send runs. -/
theorem witness_sendt : headOf (sSendt 1) qle (fun e => e.st == .queued && isSendt e && (firedAt (sSendt 1) qle).isEmpty) = true ∧
    nextIs (exec (.engineEntryStart qle) (sSendt 1)) (fun t => (slabAt t sl0).armed.length == 1 && (slabAt t sl0).fired.isEmpty) = true ∧
    nextIs (exec (.engineEntryStart qle) (sSendt 0)) (fun t => (slabAt t sl0).fired.length == 1 &&
      (nextIs (exec (iSendt 1) { modTask t c0 (fun k => { k with as := { k.as with pc := 0 } }) with cur := some { core := c0, x := .as } }) fun u =>
        (queueAt u qle).length == 1 && (slabAt u sl0).fired.all (fun x => x.st == .queued && !x.done && engineFree u qle && (lgenCheck u qle x).isNone) &&
        nextIs (exec (.sendtFire sl0) u) fun v => (slabAt v sl0).fired.all fun x => x.done || x.acks != 0 || x.st == .running)) = true := by decide +kernel
/-- A HALO of the faces +X and −X: the first of them lands. -/
abbrev sHalo : State := again (.engineEntryStart ⟨0, 0, .he⟩) (issued (.halo fE) (eState (.halo fE) windowCap 0 (geo1 + 3 * 2 ^ 28) 4096))
def eaOk {α : Type} (a : EAns α) : Bool := match a with | .ok _ _ => true | _ => false
theorem witness_lastFace : (let s := modEntry sHalo ⟨0, 0, .he⟩ ((queueAt sHalo ⟨0, 0, .he⟩).map (·.serial)).head! fun e => { e with prog := 1 }
    headOf s ⟨0, 0, .he⟩ (fun e => eaOk (faceLand ⟨0, 0, .he⟩ e 0 s)) &&
    nextIs (exec (.haloFaceArrival ⟨0, 0, .he⟩ 0) s) (fun t => headOf t ⟨0, 0, .he⟩ (·.done))) = true := by decide +kernel
theorem witness_face : headOf sHalo ⟨0, 0, .he⟩ (fun e => e.st == .running && e.prog == 3 && eaOk (faceLand ⟨0, 0, .he⟩ e 0 sHalo)) = true ∧
    nextIs (exec (.haloFaceArrival ⟨0, 0, .he⟩ 0) sHalo) (fun t => headOf t ⟨0, 0, .he⟩ fun e => e.prog == 2) = true := by decide +kernel
abbrev qrs : QueueId := ⟨0, 0, .rs⟩
abbrev sReshd (l : Nat) : State := again (.engineEntryStart qrs) (issued (.reshd fE2) (distd (eState (.reshd fE2) cap512 0 (BitVec.ofNat 64 l) 0)))
abbrev sInst (l : Nat) : State := again (.engineEntryStart qrs) (issued (.reshdInst (fE2 1)) (distd (eState (.reshdInst (fE2 1)) cap512 0 (BitVec.ofNat 64 l) 0)))
def meets (s : State) (inst : Bool) : Bool := match partAt s Config.firstPid with | some p => (rendezvous s Config.firstPid 7 inst p).isSome | none => false
def schedOf (a b : Nat) (s : State) : State := modPart s Config.firstPid fun p => { p with scheds := [⟨7, BitVec.ofNat 64 a, BitVec.ofNat 64 b⟩] }
/-- The layout stays; it changes by an installed schedule; no schedule stops the entry; a schedule is installed. -/
theorem witness_reshard : meets (sReshd lay1) false = true ∧
    nextIs (exec (.reshdRendezvous Config.firstPid 7) (sReshd lay1)) (fun t => (queueAt t qrs).isEmpty) = true ∧
    quietObj (schedOf lay1 lay2 (sReshd lay2)) Config.firstPid 7 = true ∧
    quietObj (modTask (schedOf lay1 lay2 (sReshd lay2)) c0 fun t => { t with side := [{ loc := ⟨7, 0, 0⟩, op := .bytes [7], tag := 3 }] }) Config.firstPid 7 = false ∧
    meets (schedOf lay1 lay2 (sReshd lay2)) false = true ∧ (schedOf lay1 lay2 (sReshd lay2)).l2.all (fun kl => kl.2.recs.isEmpty && kl.2.marks.isEmpty && kl.2.pend.isEmpty) = true ∧
    nextIs (exec (.reshdRendezvous Config.firstPid 7) (schedOf lay1 lay2 (sReshd lay2))) (fun t => (queueAt t qrs).isEmpty &&
      otWord t Config.firstPid 0 7 5 == BitVec.ofNat 64 lay2 && wLgen (otWord t Config.firstPid 0 7 0) == 1) = true ∧
    nextIs (exec (.reshdRendezvous Config.firstPid 7) (sReshd lay2)) (fun t => headOf t qrs (·.st == .halted)) = true ∧
    meets (sInst lay2) true = true ∧ nextIs (exec (.reshdInstRendezvous Config.firstPid 7) (sInst lay2)) (fun t =>
      (partAt t Config.firstPid).map (·.scheds.length) == some 2) = true := by decide +kernel
/-- An attention request that has started: its block at 0x8800 with PEND pages, its records at 0x8000, its table
at 0, its pool at `pool`. -/
abbrev qae : QueueId := ⟨0, 4, .ae⟩
def reqBits (pend : Nat) : Nat := 2 ^ 640 + pend * 2 ^ 608 + 2 ^ 368
/-- Another die belongs to the partition too: logical die 1, whose expander holds a page; and die 1. -/
def withDie (d : DieId) (s : State) : State :=
  [(⟨d, 0⟩ : SlabId), ⟨d, 1⟩].foldl (fun a sl => modSlab a sl fun b => { b with pid := Config.firstPid })
    (modDie (modPart s Config.firstPid fun p => { p with dies := [0, d], slabs := p.slabs ++ [⟨d, 0⟩, ⟨d, 1⟩] }) d fun k => { k with live := true })
def twoDies (s : State) : State := withDie 1 s
abbrev farPool : Nat := 2048 * 2 ^ 47 + 0x100000000000
abbrev sAttn (pend : Nat) (ent : Nat) (pool : Nat) : State :=
  let s0 := physWrite (physWrite (eState (.attn fE) windowCap 0 0x8800 0) 0x8800 (bytesOf 128 (reqBits pend))) 0 (bytesOf 16 ent)
  let s1 := modTask (if pool = farPool then withDie 2048 s0 else s0) c0 fun t => { t with c := (ins (ins t.c 7 { tag := true, bits := mkCap 0 0 0x7FF pool 0x1000000 0 }) 8 (rdC t 10)) }
  again (.engineEntryStart qae) (issued (.attn fE) s1)
def ent0 : Nat := 2 ^ 63 + 2 * 5
def attnAns (s : State) : Nat :=
  match attnHead s k0 with
  | some (q, e) => (match attnStep q e s with | .ok _ true => 1 | .ok _ false => 2 | .hold _ => 3 | .fault _ f => f.cls)
  | none => 0
/-- A request of no pages ends, one whose page is mapped enters it, one whose page is not ends with KVABSENT, one whose page
stands in the expander waits and is skipped by TIERMISS. -/
theorem witness_attention : [(0, 0, 0x1000000), (1, ent0, 0x1000000), (1, 0, 0x1000000), (1, ent0, farPool)].map (fun x =>
      attnAns (sAttn x.1 x.2.1 x.2.2)) = [1, 2, 18, 3] := by decide +kernel
theorem witness_attention_capture : [0, 1].all (fun n => capturing (sAttn n ent0 0x1000000) k0 Config.firstPid (supTask Config.firstPid sl0 0).taskId == false) = true ∧
    (match attnHead (sAttn 1 ent0 farPool) k0 with
      | some (q, e) => (match tierStep q e (sAttn 1 ent0 farPool) with | .ok t _ => (coreAt t c0).task.map (fun k => k.evq.length) | _ => none)
      | none => none) = some 1 := by decide +kernel
theorem witness_feat : readyB (.featReq ⟨0, 4, 0, 0, 0, 1, 0⟩) (setup (.featReq ⟨0, 4, 0, 0, 0, 1, 0⟩) (regs 0x3FF 0 0)) = true ∧
    (faultOfStep (setup (.featReq ⟨0, 4, 0, 0, 0, 1, 0⟩) (regs 0x400 0 0))).map (·.1) = some 2 ∧
    (faultOfStep (setup (.featReq ⟨0, 4, 0, 0, 0, 1, 0⟩) (regs 0x3FF 0 0))).isNone = true ∧ aReg (setup (.featTest (fS 0)) (regs 0x7FF 0 0)) 6 = some 0x3FF := by decide +kernel
abbrev iRemain : Instr := .remain ⟨0, 4, 0, 0, 0, 0, 40⟩
theorem witness_remain : readyB iRemain (setup iRemain (regs 0xFFFFFFFFFFFFFFFF 0 0)) = true ∧
    nextIs (exec iRemain (setup iRemain (regs 2 0 0))) (fun t => match (coreAt t c0).task with | some k => remainOf t k == 42 * 1024 | none => false) = true := by decide +kernel

def slabRec (f : Slab → Slab) (i : Instr) (v : W64) : State := modSlab (setup i (regs v 0 0)) sl0 f
abbrev iCause : Instr := .csrwSysCause ⟨0, 4, 0x10, 0, 0, 0, 0⟩
abbrev sCause (v : W64) : State := slabRec (fun b => { b with fring := [rec0, rec0], causeTail := 2 }) iCause v
/-- HEAD moves inside the ring, to its end, and beyond it. -/
theorem witness_csrw : readyB iCause (sCause 1) = true ∧ [1, 2, 3].map (fun v => match exec iCause (sCause v) with
      | .next t => ((slabAt t sl0).causeHead, (slabAt t sl0).fring.length) | _ => (0, 9)) = [(1, 1), (2, 0), (2, 0)] ∧
    aReg (slabRec (fun b => { b with fring := [rec0], causeTail := 1 }) (.csrr ⟨6, 0, 0x10, 0, 0, 0, 0⟩) 0) 6 = some (0x1000000010000000) ∧
    aReg (slabRec (fun b => { b with flLost := 3, flTail := 4 }) (.csrrSysFlstat ⟨6, 0, 0x104, 0, 0, 0, 0⟩) 0) 6 = some 0x300000004 := by decide +kernel
abbrev iSave : Instr := .csrwSysSave ⟨0, 4, 0x105, 0, 0, 0, 0⟩
def image0 : Image := { info := {}, pid := Config.firstPid, slab := 0, tasks := [], acc := [], wanted := [], dirtyBlk := [], banks := [], sems := [], entries := [] }
abbrev sSave (v : W64) : State := slabRec (fun b => { b with images := [image0], save := 0x700020000 }) iSave v
/-- SYS.SAVE with one image stored: the same object with room is taken, fewer slots and another object are not. -/
theorem witness_save : readyB iSave (sSave 0) = true ∧ [0x700010000, 0x700000000, 0x800020000].map (fun v => match exec iSave (sSave v) with
    | .next t => (slabAt t sl0).save | _ => 1) = [0x700010000, 0x700020000, 0x700020000] := by decide +kernel
theorem witness_trap : readyB (.trap ⟨0, 4, 0, 0, 0, 0, 0xFFFF⟩) (setup (.trap ⟨0, 4, 0, 0, 0, 0, 0xFFFF⟩) (regs 5 0 0)) = true ∧
    faultOfStep (setup (.trap ⟨0, 4, 0, 0, 0, 0, 0xFFFF⟩) (regs 5 0 0)) = some (22, 0xFFFF) := by decide +kernel
theorem witness_inv : [Instr.otinvExt (fS 0), .otinvObj (fS 1), .otinvAll ⟨6, 0, 0, 0, 0, 2, 0⟩, .btinvAll ⟨0, 0, 0, 0, 0, 0, 0⟩, .btinvSeq ⟨0, 4, 0, 0, 0, 1, 0⟩].all (fun i =>
    readyB i (place i) && relDone (releaseSteps (place i) (me (place i)) 3 none) (fun _ => true) && (entriesOn (place i) k0).isEmpty &&
    (place i).clusters.all (fun k => k.2.ae.isEmpty) && (after (place i)).map (·.as.pc) == some 8) = true := by decide +kernel
/-- A store under a translation of object 7 is on its way; a table command of the task is queued; a request of the partition is
inside a page since before the BTINV. -/
abbrev sObj : State := withObj 7 (live 0) 4096 mapped (place (.add fR))
def res7 : Res := match (locate sObj (hwWho sObj fp 0) ⟨7, 0, 0⟩).2 with | some r => r | none => resOf (whoOf (me sObj)) 0 0 0 (physEntry 0)
def store7 : Packet := { seq := 0, key := 0, tag := 1, body := .write fp ⟨0, 3⟩ 77 res7 (.bytes [1]) {} }
theorem witness_inv_wait : [Instr.otinvExt (fS 0), .otinvObj (fS 1), .otinvAll ⟨6, 0, 0, 0, 0, 2, 0⟩].all (fun i =>
      let s := { setup i (regs 7 0 0) with net := [((0, 1), { kept := [(store7, 0)] })] }
      readyB i s && transHeld s fp (fun k => k.oid == 7 && k.ext == 0) && isHeld s .remote) = true ∧
    [Instr.btinvAll ⟨0, 0, 0, 0, 0, 0, 0⟩, .btinvSeq ⟨0, 4, 0, 0, 0, 1, 0⟩].all (fun i =>
      let s := setQueue (place i) ⟨0, 4, .ae⟩ [{ ent1 with cmd := .kvunmap fE2 }]
      let u := modCluster { place i with ck := 9 } ⟨0, 0⟩ fun k => { k with ae := [⟨fp, 1, 0, 0, 0, 3, 0, 8⟩] }
      readyB i s && isHeld s .result && readyB i u && issuedAt u (me u) == 9 && isHeld u .btinv) = true := by decide +kernel
abbrev iIdle : Instr := .idle ⟨6, 4, 0, 0, 0, 0, 0⟩
abbrev sIdle (chg : Bool) (v : W64) (ck : Nat) : State := { setup iIdle (fun t => { regs v 0 0 t with as := { t.as with held := some ⟨.idle chg, 10⟩ } }) with ck := ck }
/-- IDLE a cycle before its limit, at it, and after a change. -/
theorem witness_idle : readyB iIdle (sIdle false 5 14) = true ∧ isHeld (sIdle false 5 14) (.idle false) = true ∧ aReg (sIdle false 5 15) 6 = some 4 ∧
    aReg (sIdle true 5 14) 6 = some 2 := by decide +kernel
/-- A first issue, with an event and with nothing to report. -/
theorem witness_idle_first : (strandOf (me (place iIdle)).t (me (place iIdle)).x).held = none ∧ isHeld (place iIdle) (.idle false) = true ∧
    aReg (setup iIdle fun t => { t with evq := [5] }) 6 = some 1 := by decide +kernel
def crew1 : CrewRes := { info := { lseq := 0 }, pid := Config.firstPid, cores := [3], tids := [(supTask Config.firstPid sl0 0).taskId], unstarted := [] }
def withCrew (f : CrewRes → CrewRes) (s : State) : State := modCluster s k0 fun k => { k with crews := [f crew1] }
abbrev iYield : Instr := .yield ⟨6, 0, 0, 0, 0, 0, 0⟩
theorem witness_yield : readyB iYield (withCrew id (place iYield)) = true ∧ (candidates (withCrew id (place iYield)) sl0).isEmpty = true ∧
    readyB iYield (withCrew (fun c => { c with heard := true }) (place iYield)) = true ∧ aReg (withCrew id (place iYield)) 6 = some 0 ∧
    aReg (place iYield) 6 = some 0 := by decide +kernel
abbrev iCfg : Instr := .cfgbankScratch ⟨0, 4, 0, 0, 0, 1, 0x109⟩
/-- CFGBANK of the last bank, of none, of one that the crew does not hold, with a foreign semaphore, and of one in TRANSIT. -/
theorem witness_cfgbank : readyB iCfg (setup iCfg (regs 47 0 0)) = true ∧ (after (setup iCfg (regs 47 0 0))).map (·.as.pc) = some 8 ∧
    faultOfStep (setup iCfg (regs 48 0 0)) = some (10, 48) ∧ faultI iCfg (setup iCfg (user ∘ regs 5 0 0)) = some (10, 5) ∧
    faultI iCfg (setup iCfg (fun t => { user (regs 5 0 0 t) with crew := { lseq := 1, scrm := 32 } })) = some (3, 9) ∧
    isHeld (modBank (setup iCfg (regs 47 0 0)) k0 47 fun b => { b with transit := some { target := .fifo, sem := none, since := 0 } }) .transit = true := by decide +kernel

/-- A suspended task of class `cls` on another core of the cluster, in a crew of its own. -/
def victim (cls : Nat) (s : State) : State :=
  let t : Task := { pid := Config.firstPid, taskId := 77, crew := { lseq := 5 }, susp := some { rec0 with cls := cls, taskId := 77, lseq := 5 } }
  modCluster (modCore s ⟨0, 16⟩ fun k => { k with task := some t }) k0 fun k =>
    { k with crews := [{ info := { lseq := 5 }, pid := Config.firstPid, cores := [0], tids := [77], unstarted := [] }] }
abbrev rState (i : Instr) (cls : Nat) : State := victim cls (setup i (regs 77 0 0))
theorem witness_resume : [Instr.resumeRetry (fS 0), .resumeSkip (fS 1), .resumeCont (fS 2), .resumeKill (fS 3), .resumePark (fS 4), .resumeAbort (fS 5)].all (fun i =>
    readyB i (rState i 3) && relDone (releaseSteps (rState i 3) (me (rState i 3)) 3 none) (fun s1 =>
      (match findTask s1 Config.firstPid sl0 77 with | some (.susp c t r) => c == ⟨0, 16⟩ && t.taskId == 77 && r.cls == 3 | _ => false) &&
      (findTask s1 Config.firstPid sl0 78).isNone)) = true ∧
    [(Instr.resumeRetry (fS 0), 3), (.resumeSkip (fS 1), 3), (.resumeCont (fS 2), 3), (.resumeCont (fS 2), 18), (.resumeKill (fS 3), 3), (.resumePark (fS 4), 3),
      (.resumeAbort (fS 5), 3)].map (fun x => aReg (rState x.1 x.2) 6) = [some 0, some 0, some 2, some 0, some 0, some 3, some 0] ∧
    aReg (setup (.resumeRetry (fS 0)) (regs 77 0 0)) 6 = some 1 := by decide +kernel
/-- A save area of two slots in object 7. -/
def saveArea (s : State) : State := modSlab (withObj 7 (live 0) 0x2000000 mapped s) sl0 fun b => { b with save := 0x700020000 }
/-- A task in no crew; a free slot; a member of a crew whose image waits. -/
def parked (i : Instr) : State := modSlab (setup i (regs 77 0 0)) sl0 fun b =>
  { b with images := [{ image0 with tasks := [{ pid := fp, taskId := 77, crew := { lseq := 5 }, susp := some { rec0 with taskId := 77 } }] }] }
theorem witness_resume_park : aReg (modCluster (rState (.resumePark (fS 4)) 3) k0 fun k => { k with crews := [] }) 6 = some 2 ∧
    readyB (.resumePark (fS 4)) (saveArea (rState (.resumePark (fS 4)) 3)) = true ∧ freeSlots (saveArea (rState (.resumePark (fS 4)) 3)) sl0 = 2 ∧
    aReg (saveArea (rState (.resumePark (fS 4)) 3)) 6 = some 0 ∧
    [Instr.resumeRetry (fS 0), .resumeSkip (fS 1), .resumeCont (fS 2), .resumePark (fS 4)].all (fun i => readyB i (parked i) &&
      (match findTask (parked i) fp sl0 77 with | some (.parked _ _ t) => t.taskId == 77 | _ => false)) = true ∧
    [Instr.resumeRetry (fS 0), .resumeSkip (fS 1), .resumeCont (fS 2), .resumePark (fS 4)].map (fun i => aReg (parked i) 6) = [some 0, some 2, some 2, some 0] := by
  decide +kernel

/-! ### Launches, crews and preemption -/

/-- One die index and two tasks, for die 0, of class `cls` with TOKENS 2. -/
def pkt (cls : Nat) : BitVec 2048 := BitVec.ofNat 2048 ((1 + 3 * 2 ^ 62) * 2 ^ 512 + (2 + 2 ^ 63) * 2 ^ 576 + 2 ^ 946 + 7 * 2 ^ 960 + 2 ^ 993 + cls * 2 ^ 1022)
/-- Both strands enter at byte 64; `crew` tasks a crew. -/
def hdr (crew : Nat) : Nat := 64 + 64 * 2 ^ 64 + crew * 2 ^ 280
def launch1 (crew cls : Nat) : Launch :=
  { lseq := 1, packet := pkt cls, kcap := capO, acap := capO, header := BitVec.ofNat 512 (hdr crew), dies := [0], evaluated := true,
    strata := [(0, { owned := [0], crews := cdiv 2 crew, left := 2 })] }
def sub1 (cls : Nat) : Sub := { packet := pkt cls, kcap := capO, acap := capO, issuer := some ent1 }
/-- A partition with the launches and packets given, the lode of slab 0 naming them, and object 7 holding a header. -/
def withL (subs : List Sub) (ls : List Launch) (n : Nat) (crew : Nat) : State :=
  let s := physWrite (withObj 7 (live 0) 4096 mapped (place (.add fR))) 0x1C00000 (bytesOf 64 (hdr crew))
  modSlab (modPart s fp fun p => { p with subs := subs, launches := ls.map fun l => (l.lseq, l), out := n }) sl0 fun b =>
    { b with lode := ls.map fun l => { lseq := l.lseq, pcrit := false, ready := some 0, deps := [true, true, true, true] } }
abbrev fresh (l : Launch) : Launch := { l with evaluated := false, strata := [], header := 0 }
def partIs (s : State) (f : Part → Bool) : Bool := match partAt s fp with | some p => f p | none => false

/-- A LAUNCH within the limit and beyond it. -/
theorem witness_accept : partIs (withL [sub1 3] [] 0 1) (fun p => p.action.isNone && decide (p.out < p.limit) && p.subs.length == 1) = true ∧
    partIs (withL [sub1 3] [] 64 1) (fun p => decide (p.limit ≤ p.out) && p.subs.length == 1) = true ∧ (pkt 3).getLsbD 1021 = false ∧
    nextIs (exec (.launchAccept fp) (withL [sub1 3] [] 0 1)) (fun t => partIs t fun p => p.launches.length == 1 && p.out == 1) = true ∧
    nextIs (exec (.launchAccept fp) (withL [sub1 3] [] 64 1)) (fun t => partIs t fun p => p.launches.isEmpty && p.out == 64) = true := by decide +kernel
/-- A LAUNCH of the host at the head of pair 3, with `n` launches outstanding. -/
def hostWait (n : Nat) : State :=
  modQp (withL [{ sub1 3 with issuer := none, qp := some 3, ctag := 7 }] [] n 1) 3 fun q => { q with pid := fp, waiting := [{ hdr := 2 ^ 248, body := pkt 3 }] }
theorem witness_accept_host : [63, 64].map (fun n => match execLaunchAccept fp (hostWait n) with
    | .next t => ((partAt t fp).map fun p => (p.launches.length, p.out, p.subs.length), (qpAt t 3).waiting.length) | _ => (none, 9)) =
    [(some (1, 64, 0), 0), (some (0, 64, 1), 1)] := by decide +kernel
abbrev sEval (ext : Nat) (l : Launch) : State := withObj 7 (live 0) 4096 ext (withL [] [l] 1 1)
def verdictIs (s : State) (f : Option (Nat × BitVec 512) → Bool) : Bool := partIs s fun p => match lkp p.launches 1 with | some l => f (verdict s fp p 0 l) | none => false
/-- The header unmapped, accepted, and refused for its capability. -/
theorem witness_evaluate : [fresh (launch1 1 3), { fresh (launch1 1 3) with evaluated := true }].all (fun l => partIs (sEval mapped l) (fun p =>
      packetAt p 0 1 l && (lkp l.strata 0).isNone)) = true ∧
    partIs (sEval mapped (fresh (launch1 1 3))) (fun p => !packetAt { p with launches := (0, fresh (launch1 1 3)) :: p.launches, next := 2 } 0 1 (fresh (launch1 1 3))) = true ∧
    verdictIs (sEval 0 (fresh (launch1 1 3))) (·.isNone) = true ∧
    verdictIs (sEval mapped (fresh (launch1 1 3))) (fun v => v.map (·.1) == some 0) = true ∧
    verdictIs (sEval mapped { fresh (launch1 1 3) with acap := {} }) (fun v => v.map (·.1) == some 2) = true := by decide +kernel
/-- Three DIES indices of two tasks over two dies, in blocks or cyclic; the share of a die (R138). -/
def spread (cyc : Bool) : Launch :=
  { fresh (launch1 1 3) with dies := [0, 1], packet := BitVec.ofNat 2048 ((3 + 3 * 2 ^ 62 + cyc.toNat * 2 ^ 61) * 2 ^ 512 + (2 + 2 ^ 63) * 2 ^ 576 + 2 ^ 946 +
      7 * 2 ^ 960 + 2 ^ 993 + 3 * 2 ^ 1022) }
def shareOf (cyc : Bool) (d : DieId) : Option (List Nat × Nat × Nat) :=
  let s := twoDies (withL [] [spread cyc] 1 1)
  let u := if d = 0 then s else match execLaunchEvaluate fp 0 1 s with | .next t => t | _ => s
  match execLaunchEvaluate fp d 1 u with
  | .next t => (partAt t fp).bind fun p => (lkp p.launches 1).bind fun l => (lkp l.strata d).map fun x => (x.owned, x.left, x.crews)
  | _ => none
theorem witness_share : [false, true].map (fun c => [shareOf c 0, shareOf c 1]) =
    [[some ([0, 1], 4, 4), some ([2], 2, 2)], [some ([0, 2], 4, 4), some ([1], 2, 2)]] := by decide +kernel
theorem witness_dependence : depMet (withL [] [launch1 1 3] 1 1) (pkDep (launch1 1 3) 3) 0 = true ∧
    (slabAt (withL [] [launch1 1 3] 1 1) sl0).lode.map (·.lseq) = [1] ∧ (slabAt (withL [] [launch1 1 3] 1 1) sl0).pid = fp := by decide +kernel

abbrev sCand (crew cls : Nat) : State := withL [] [launch1 crew cls] 1 crew
/-- A slab with no candidate and with one that fits. -/
theorem witness_place : candidates (withL [] [] 0 1) sl0 = [] ∧ (slabAt (sCand 1 3) sl0).fence = false ∧ eligibleImages (sCand 1 3) sl0 = [] ∧
    (match candidates (sCand 1 3) sl0 with
      | x :: _ => !hCoresid x.l && !contended (sCand 1 3) fp sl0 x &&
        (bestCluster (sCand 1 3) fp (crewInfo x.l x.crew) (hCrew x.l) ((dieClusters (sCand 1 3) fp 0).filter fun c => clusterSlab c == sl0)).isSome
      | [] => false) = true ∧
    nextIs (exec (.crewPlace sl0) (sCand 1 3)) (fun t => ((clusterAt t ⟨0, 0⟩).crews.map (·.cores)) == [[0]]) = true := by decide +kernel
/-- Both slabs of the die hold the launch: it is the turn of slab `n`. -/
def bothSlabs (n : Nat) : State :=
  let s := withL [] [{ launch1 1 3 with strata := [(0, { owned := [0], crews := 2, left := 2, turn := n })] }] 1 1
  modSlab (modPart s fp fun p => { p with slabs := [sl0, ⟨0, 1⟩] }) ⟨0, 1⟩ fun b => { b with pid := fp, lode := (slabAt s sl0).lode }
theorem witness_turns : [0, 1].map (fun n => match candidates (bothSlabs n) sl0 with
      | x :: _ => (contended (bothSlabs n) fp sl0 x, x.st.turn, nextIs (exec (.crewPlace sl0) (bothSlabs n)) (· == bothSlabs n))
      | [] => (false, 9, false)) = [(true, 0, false), (true, 1, true)] := by decide +kernel
abbrev sPlaced : State := again (.crewPlace sl0) (sCand 1 3)
theorem witness_taskStart : (clusterAt sPlaced ⟨0, 0⟩).crews.map (fun c => (c.info.lseq, c.info.index, c.unstarted.length, c.cores, c.info.scrm ||| c.info.fifom)) =
      [(1, 0, 1, [0], 0)] ∧ nextIs (exec (.taskStart ⟨0, 0⟩ 1 0) sPlaced) (fun t =>
      (coreAt t ⟨0, 0⟩).task.map (fun k => (lkpD k.a 2 0, lkpD k.a 7 0, k.as.pc)) == some (0, 0, 64)) = true := by decide +kernel
/-- Banks 0 and 47, the first and the last, are declared SCRATCH and stand as CACHE: they start to change, and no task does. -/
def declaring (f : BitVec 48) (s : State) : State :=
  modCluster s ⟨0, 0⟩ fun k => { k with crews := k.crews.map fun c => { c with info := { c.info with scrm := f } } }
theorem witness_bankStart : (match execTaskStart ⟨0, 0⟩ 1 0 (declaring 0x800000000001 sPlaced) with
    | .next t => ([0, 1, 46, 47].map fun b => (bankAt (clusterAt t ⟨0, 0⟩) b).transit.map (·.target), (coreAt t ⟨0, 0⟩).task.isSome) | _ => ([], true)) =
    ([some .scratch, none, none, some .scratch], false) := by decide +kernel
/-- One DIES index, two CORES tasks, a TEMPORAL level of 5: a1 to a6, a7 and a8 of the two crews. -/
def sLevels : State :=
  let packet := BitVec.ofNat 2048 ((1 + 3 * 2 ^ 62) * 2 ^ 512 + (2 + 2 ^ 63) * 2 ^ 576 + (5 + 2 ^ 62) * 2 ^ 640 + 2 ^ 946 + 7 * 2 ^ 960 + 2 ^ 993 + 3 * 2 ^ 1022)
  again (.crewPlace sl0) (again (.crewPlace sl0) (withL [] [{ launch1 1 3 with packet := packet }] 1 1))
theorem witness_levels : [0, 1].map (fun k => match execTaskStart ⟨0, k⟩ 1 k sLevels with
      | .next t => (coreAt t ⟨0, 4 * k⟩).task.map fun t => [1, 2, 3, 4, 5, 6, 7, 8].map fun r => lkpD t.a r 0 | _ => none) =
    [some [0, 0, 5, 0, 0, 0, 0, 0], some [0, 1, 5, 0, 0, 0, 0, 1]] := by decide +kernel
abbrev sRefill (ck : Nat) : State := modSlab { place (.add fR) with ck := ck } sl0 fun b => { b with refillAt := 9 }
theorem witness_refill : (sRefill 8).ck < (slabAt (sRefill 8) sl0).refillAt ∧ (slabAt (sRefill 9) sl0).refillAt ≤ (sRefill 9).ck := by decide +kernel
abbrev sSkip (ck : Nat) : State :=
  modSlab { sCand 1 3 with ck := ck } sl0 fun b => { b with lode := b.lode.map fun e => { e with skipped := some 4 } }
theorem witness_skip : (slabAt (sSkip 65540) sl0).lode.map (fun e => (e.lseq, e.skipped)) = [(1, some 4)] ∧
    [65539, 65540].map (fun c => match exec (.skipBlock sl0 1) (sSkip c) with
      | .next t => (slabAt t sl0).lode.map (·.blocking) | _ => []) = [[false], [true]] := by decide +kernel

def ended (rep : Bool) (l : Launch) : Launch := { l with reported := rep.toNat, strata := [(0, { owned := [0], crews := 2, nextCrew := 2, left := 0, reported := rep })] }
abbrev sEnd : State := withL [] [ended false (launch1 1 3)] 1 1
theorem witness_stratumEnd : launchBusy sEnd fp 0 1 = false ∧ (dieClusters sEnd fp 0).all (fun c => (clusterAt sEnd c).crews.isEmpty) = true ∧
    nextIs (exec (.stratumEnd fp 0 1) sEnd) (fun t => (slabAt t sl0).lode.isEmpty) = true := by decide +kernel
/-- CEVENT set or not, from a task or from the host; the issuer's queue with room or full. -/
def compl (cev : Bool) (iss : Option Entry) (n : Nat) : State :=
  let l := ended true (launch1 1 3)
  modTask (withL [] [{ l with packet := l.packet ||| BitVec.ofNat 2048 (cev.toNat * 2 ^ 1020), issuer := iss, qp := if iss.isNone then some 3 else none }] 1 1) c0
    fun t => { t with evq := List.replicate n 0 }
def evqOf (s : State) : Nat := match (coreAt s c0).task with | some t => t.evq.length | none => 999
theorem witness_complete : [compl false none 0, compl true none 0, compl true (some ent1) 63, compl true (some ent1) 64].all (fun s =>
      partIs s fun p => (lkp p.launches 1).isSome && p.launches.all (fun x => x.2.strata.length == 1 && x.2.reported == 1 && x.2.dies.length == 1)) = true ∧
    coreOfTask (compl true (some ent1) 63) fp supId = some c0 ∧
    nextIs (exec (.launchComplete fp 1) (compl true (some ent1) 63)) (fun t => evqOf t == 64 && partIs t (·.launches.isEmpty)) = true ∧
    nextIs (exec (.launchComplete fp 1) (compl true (some ent1) 64)) (fun t => partIs t fun p => p.launches.isEmpty && p.out == 0 && p.done.length == 1 &&
      nextIs (exec (.launchComplete fp 1) t) (· == t) && nextIs (exec (.launchComplete fp 1) (modTask t c0 fun k => { k with evq := [] })) (fun u =>
        evqOf u == 1 && partIs u (·.done.isEmpty))) = true ∧
    nextIs (exec (.launchComplete fp 1) (compl true none 0)) (fun t => (qpAt t 3).cq.length == 1) = true := by decide +kernel

/-- Clusters 1 to 4 of slab 0 are fenced, and a task of launch `n`, waiting at a semaphore since cycle 0, stands on core 0. -/
def crewOf (n : BitVec 32) (f : CrewRes → CrewRes) : CrewRes := f { info := { lseq := n }, pid := fp, cores := [0], tids := [77], unstarted := [] }
def taskOf (n : BitVec 32) : Task :=
  { pid := fp, taskId := 77, crew := { lseq := n }, as := { pc := 8, held := some ⟨.sem, 0⟩ }, xs := { ended := true } }
def onlyCluster0 (n : BitVec 32) (f : CrewRes → CrewRes) (s : State) : State :=
  let s1 := [1, 2, 3, 4].foldl (fun a c => modCluster a ⟨0, c⟩ fun k => { k with fenced := true }) { s with ck := 65536 }
  modCluster (modCore s1 ⟨0, 0⟩ fun k => { k with task := some (taskOf n) }) ⟨0, 0⟩ fun k => { k with crews := [crewOf n f] }
abbrev sResid (since : Nat) : State := onlyCluster0 1 id (withL [] [{ launch1 4 3 with watch := [(0, since)], strata := [(0, { owned := [0], crews := 2, nextCrew := 1, left := 2 })] }] 1 4)
def coresident (l : Launch) : Launch := { l with header := l.header ||| BitVec.ofNat 512 (2 ^ 283), strata := [(0, { owned := [0], crews := 999, left := 2 })] }
/-- The conditions have held for 65,536 cycles, for one less, and on no watch; a co-resident stratum that can never fit. -/
theorem witness_residency : partIs (sResid 0) (fun p => (residNow (sResid 0) fp p 0).any (·.lseq == 1)) = true ∧ (sResid 0).ck = 65536 ∧
    hCoresid (launch1 4 3) = false ∧ nextIs (exec (.residency fp 0 1) (sResid 1)) (· == sResid 1) = true ∧
    nextIs (exec (.residency fp 0 1) (sResid 0)) (fun t => (coreAt t ⟨0, 0⟩).task.map (fun k => (k.as.pc, k.susp.map (·.cls))) == some (8, some 16)) = true ∧
    (let s := withL [] [coresident (launch1 1 3)] 1 1
     hCoresid (coresident (launch1 1 3)) && decide (capacity s fp 0 (coresident (launch1 1 3)) true < 999) &&
     nextIs (exec (.residency fp 0 1) s) (fun t => (slabAt t (slabOnDie s fp 0)).pending.map (fun r => (r.cls, r.susp)) == [(16, false)] && t.cores == s.cores)) = true := by
  decide +kernel
abbrev sPre : State := modSlab (onlyCluster0 9 id (sCand 4 0)) sl0 fun b => { b with buckets := [8, 0, 0] }
theorem witness_preempt : (match (candidates sPre sl0).find? (fun y => y.l.lseq == 1) with
      | some x => x.cls == 0 && Claims.victims sPre sl0 x == [⟨0, 0⟩] && (dieClusters sPre fp 0).all fun d =>
          !fits sPre fp (crewInfo x.l x.crew) (hCrew x.l) d && (clusterAt sPre d).reserved != some 1
      | none => false) = true ∧
    nextIs (exec (.preempt sl0 1) sPre) (fun t => (clusterAt t ⟨0, 0⟩).reserved == some 1) = true := by decide +kernel
/-- A crew that a ready launch of a higher class wants to replace yields when a slot is free. -/
def yielding (g : State → State) : State :=
  let s := g (onlyCluster0 9 id (sCand 4 0))
  modTask { s with cur := some { core := ⟨0, 0⟩, x := .as } } ⟨0, 0⟩ fun t => { t with as := { pc := 0 } }
theorem witness_yield_taken : [yielding id, yielding saveArea].map (fun s => (readyB iYield s, freeSlots s sl0, (clusterAt s ⟨0, 0⟩).crews.map (·.heard),
      nextIs (exec iYield s) fun t => (clusterAt t ⟨0, 0⟩).crews.map (·.choice) == [3])) = [(true, 0, [false], false), (true, 2, [false], true)] ∧
    (match candidates (yielding saveArea) sl0 with
      | [x] => decide (x.cls ≤ crewClass (yielding saveArea) ⟨0, 0⟩ (crewOf 9 id)) &&
          (dieClusters (yielding saveArea) fp 0).all (fun d => !fits (yielding saveArea) fp (crewInfo x.l x.crew) (hCrew x.l) d) &&
          fits (withoutCrews (yielding saveArea) ⟨0, 0⟩ fun y => y == crewOf 9 id) fp (crewInfo x.l x.crew) (hCrew x.l) ⟨0, 0⟩
      | _ => false) = true := by decide +kernel
abbrev sDrain (w : Nat) : State := onlyCluster0 9 (fun c => { c with choice := 1, drainBy := some w }) (sCand 4 0)
theorem witness_drain : (crewAt (sDrain 65536) ⟨0, 0⟩ 9 0).map (fun c => (c.choice, c.drainBy)) = some (1, some 65536) ∧ (sDrain 65537).ck < 65537 ∧
    (sDrain 65536).ck = 65536 := by decide +kernel
abbrev sCkpt : State := saveArea (onlyCluster0 9 (fun c => { c with choice := 3 }) (sCand 4 0))
theorem witness_checkpoint : (match crewAt sCkpt ⟨0, 0⟩ 9 0 with
      | some cr => captureReady sCkpt ⟨0, 0⟩ cr && (slotOf sCkpt cr.pid cr.info).isNone && freeSlots sCkpt sl0 == 2 | none => false) = true ∧
    nextIs (exec (.checkpoint ⟨0, 0⟩ 9 0) sCkpt) (fun t => (slabAt t sl0).images.length == 1 && (coreAt t ⟨0, 0⟩).task.isNone) = true := by decide +kernel
abbrev sRest : State := modSlab (match execCheckpoint ⟨0, 0⟩ 9 0 sCkpt with | .next t => t | _ => sCkpt) sl0 fun b => { b with images := b.images.map fun im => { im with held := false, resumable := some 1 } }
theorem witness_restore : (match (eligibleImages sRest sl0).findSome? (fun y => (imageFits sRest y.pid sl0.die y).map fun c => (y, c)) with
      | some (im, c) => c == ⟨0, 0⟩ && im.banks.all (fun b => (bankAt (clusterAt sRest c) b.idx).transit.isNone) | none => false) = true ∧
    nextIs (exec (.crewRestore sl0) sRest) (fun t => (coreAt t ⟨0, 0⟩).task.map (·.taskId) == some 77 &&
      ((clusterAt t ⟨0, 0⟩).crews.map (·.tids)) == [[77]]) = true := by decide +kernel

/-! ### Records, memory events and packets -/

abbrev sHeld (w : HoldWhy) (ck : Nat) : State := { setup (.add fR) (fun t => { t with as := { t.as with held := some ⟨w, 0⟩ } }) with ck := ck }
def wdogOf (w : HoldWhy) (ck : Nat) : Option Nat :=
  match execWatchdog c0 .as (sHeld w ck) with | .next t => ((coreAt t c0).task.bind (·.susp)).map (·.cls) | _ => some 0
/-- A watched hold at its limit and before it, and a hold that is not watched. -/
theorem witness_watchdog : bitsN (slabAt (sHeld .extent 0) (coreSlab c0)).wdog 0 32 = 0x4000 ∧ watched .extent = true ∧ watched .event = false ∧
    ((coreAt (sHeld .extent 0) c0).task.map fun t => ((strandOf t .as).held, t.susp.isNone)) = some (some ⟨.extent, 0⟩, true) ∧
    [(HoldWhy.extent, 0xFFFFFF), (.extent, 0x1000000), (.event, 0x1000000)].map (fun x => wdogOf x.1 x.2) = [none, some 20, none] := by decide +kernel
abbrev sEnt (rep : Bool) : State := { modEntry sRecv qle ((queueAt sRecv qle).map (·.serial)).head! (fun e => { e with since := 0, reported := rep }) with ck := 0x1000000 }
theorem witness_watchdogEngine : [false, true].map (fun r => match nextEntry (sEnt r) qle with
      | some e => e.st != .halted && !e.done && e.reported == r | none => false) = [true, true] ∧
    (match exec (.watchdogEngine qle) (sEnt false) with | .next t => (slabAt t sl0).pending.map (·.cls) | _ => []) = [20] := by decide +kernel
/-- The record ring of 64 in object 7, in use up to `n` records; no ring while FQ is 0. -/
abbrev sRing (n : Nat) (fq : W64) : State := modSlab (withObj 7 (live 0) 4096 mapped (place (.add fR))) sl0 fun b =>
  { b with pending := [rec0], fq := fq, fring := List.replicate n rec0, causeTail := BitVec.ofNat 28 n }
theorem witness_recordPost : ringBase (sRing 0 0) fp sl0 0 64 = none ∧ ringBase (sRing 0 0x700000100) fp sl0 0x700000100 64 = some (0x1C00000, 64) ∧
    recReady (sRing 63 0x700000100) sl0 rec0 = true ∧ (slabAt (sRing 63 0x700000100) sl0).fbuf.isEmpty = true ∧ (0x700000100 : W64).getLsbD 8 = true ∧
    [(0, 0), (63, 0x700000100), (64, 0x700000100)].map (fun x => match execFaultRecordPost sl0 (sRing x.1 x.2) with
      | .next t => ((slabAt t sl0).pending.length, (slabAt t sl0).fbuf.length, (slabAt t sl0).fring.length) | _ => (9, 9, 9)) =
      [(0, 1, 0), (0, 0, 64), (1, 0, 64)] := by decide +kernel
abbrev sSup : State := modSlab (modCore (place (.add fR)) c0 fun k => { k with task := none }) sl0 fun b => { b with supst := 1 }
theorem witness_restart : (slabAt sSup sl0).supst = 1 ∧ (coreAt sSup c0).fenced = false ∧ (clusterAt sSup k0).fenced = false ∧
    (slabAt (place (.add fR)) sl0).supst ≠ 1 ∧ (match execSupervisorRestart sl0 sSup with
    | .next t => (coreAt t c0).task.map (·.taskId) | _ => none) = some supId := by decide +kernel

theorem witness_walk : (hereOf (place (.add fR)) c0 .as).isSome = true ∧ (hereOf (sHeld .extent 9) c0 .as).isSome = true ∧
    (hereOf (sHeld .moving 9) c0 .as).isSome = true ∧ (hereOf (sHeld .sidelogLoad 9) c0 .as).isSome = true := by decide +kernel
def side1 (a : Nat) : SideEnt := { loc := ⟨0, 0, a⟩, op := .bytes [7], tag := 3 }
abbrev sSide (a : Nat) : State := setup (.add fR) fun t => { t with side := [side1 a] }
def sideRes (a : Nat) : Option Res := (locate (twoDies (sSide a)) (whoOf (me (sSide a))) (side1 a).loc).2
/-- A side-log entry whose home is on its die, and one whose home is on another. -/
theorem witness_replay : (match sideRes 0x4000 with
      | some r => r.home.die == 0 && (homeRefuses (sSide 0x4000) r.home r.pa).isNone &&
          !conflicts (whoOf (me (sSide 0x4000))) (homeLine (sSide 0x4000) r)
            ((writeOp 0 0 (r.loc.byte % 256) (.bytes [7])).2.2 &&& ~~~ myMask (whoOf (me (sSide 0x4000))) (homeLine (sSide 0x4000) r)) false &&
          (homeRefuses (fenced (sSide 0x4000)) r.home r.pa).isSome
      | none => false) = true ∧
    (sideRes (2 ^ 47 + 0x4000)).map (·.home.die) = some 1 ∧
    (match execSideLogReplay c0 (sSide 0x4000) with | .next t => (coreAt t c0).task.map (·.side.length) | _ => none) = some 0 ∧
    (let s := modTask (sSide 0x4000) c0 fun t => { t with side := t.side ++ [{ side1 0x4000 with sent := true }] }
     nextIs (exec (.sideLogReplay c0) s) fun t => (coreAt t c0).task.map (·.side.length) == some 2) = true ∧
    (match execSideLogReplay c0 (twoDies (sSide (2 ^ 47 + 0x4000))) with | .next t => (pairAt t 0 1).flight.length | _ => 0) = 1 := by decide +kernel
abbrev key7 : LineKey := ⟨fp, 7, 0, 3⟩
theorem witness_fill : (let e := walk sObj fp (hwWho sObj fp 0).die ⟨7, 0, 0⟩
      extV e.ext && wState e.word0 == 1 && e.wf && (lkp sObj.l2 key7).isNone &&
      (let r := resOf (hwWho sObj fp 0) 7 0 (256 * 3) e; (homeRefuses sObj r.home r.pa).isNone && (l2Mates sObj r.home r.pa).length == 0)) = true ∧
    (let s := again (.lineFill key7 none) sObj
     (lkp s.l2 key7).any (fun l => l.recs.isEmpty && l.marks.isEmpty && l.pend.isEmpty) &&
     nextIs (exec (.lineFill ⟨fp, 7, 0, 4⟩ (some key7)) s) (fun t => (lkp t.l2 key7).isNone && (lkp t.l2 ⟨fp, 7, 0, 4⟩).isSome)) = true ∧
    (match execLineFill key7 none sObj with | .next t => (lkp t.l2 key7).isSome | _ => false) = true := by decide +kernel
/-- A FOLLOW object whose extent another slab of the partition has written 64 times: moved twice, and moved four times. -/
abbrev sFollow (moves : Nat) : State := modPart (withObj 7 (live 0 + 2 ^ 47) 0x200000 (mapped + moves * 2 ^ 5) (place (.add fR))) fp fun p =>
  { p with slabs := [sl0, ⟨0, 1⟩], follow := [(⟨7, 0, 0⟩, (0, 64, 1))] }
def followB (m : Nat) : Bool :=
  let s := sFollow m
  let e := walk s fp 0 ⟨7, 0, 0⟩
  wHome e.word0 == 2 && !wDist e.word0 && wState e.word0 == 1 && extV e.ext && bitsN e.ext 5 3 == m
/-- A store under the old translation keeps the extent marked as moving; the move goes on once it is answered. -/
theorem witness_moving : (let s := { sFollow 2 with net := [((0, 1), { kept := [(store7, 0)] })] }
    !quietExt s fp ⟨7, 0, 0⟩ && quietExt (sFollow 2) fp ⟨7, 0, 0⟩ &&
    nextIs (exec (.extentMigration fp 7 0 (BitVec.ofNat 64 (2 ^ 46 + 0x200000))) s) (fun t => extMoving t fp ⟨7, 0, 0⟩ &&
      nextIs (exec (.extentMigration fp 7 0 (BitVec.ofNat 64 (2 ^ 46 + 0x200000))) { t with net := [] }) fun u =>
        !extMoving u fp ⟨7, 0, 0⟩ && bitsN (walk u fp 0 ⟨7, 0, 0⟩).ext 5 3 == 3)) = true := by decide +kernel
theorem witness_migration : [2, 4].all followB = true ∧ paSlab (2 ^ 46 + 0x200000) = ⟨0, 1⟩ ∧ (sFollow 2).l2 = [] ∧
    (match execExtentMigration fp 7 0 (BitVec.ofNat 64 (2 ^ 46 + 0x200000)) (sFollow 2) with
      | .next t => bitsN (walk t fp 0 ⟨7, 0, 0⟩).ext 12 52 | _ => 0) = (2 ^ 46 + 0x200000) / 4096 ∧
    (match execExtentMigration fp 7 0 0 (sFollow 4) with | .next t => bitsN (walk t fp 0 ⟨7, 0, 0⟩).ext 8 1 | _ => 0) = 1 := by decide +kernel
theorem witness_migrationWindow : [119999, 120000].map (fun n => match execMigrationWindow fp { place (.add fR) with ck := n } with
    | .next t => (partAt t fp).map (·.windowAt) | _ => none) = [some 0, some 120000] := by decide +kernel

/-- Both dies belong to the partition; one packet on the wire from die 0 to die 1, next in order, under the partition's key. -/
abbrev sBase : State := place (.add fR)
abbrev sNet : State := twoDies sBase
def packet (n : BitVec 24) (b : Body) : Packet := sealPkt sNet 0 1 n 9 b
def wire (l : List Packet) (s : State) : State := { s with net := [((0, 1), { flight := l })] }
abbrev onWire (b : Body) (s : State) : State := wire [packet 0 b] s
abbrev pLoc : Where := ⟨0, 0, 2 ^ 47 + 0x4000⟩
def pRes : Res := match (locate sNet (hwWho sNet fp 1) pLoc).2 with | some r => r | none => resOf (whoOf (me sBase)) 0 0 0 (physEntry 0)
abbrev bWr : Body := .write fp c0 supId pRes (.bytes [1]) {}
abbrev bRd (v : Bool) : Body := .read fp c0 supId pRes 8 v false
abbrev bAt : Body := .atomic fp c0 supId pRes 0 0xF 1 0 0 {}
/-- It would be taken. -/
def takenB (b : Body) (s : State) : Bool :=
  let t := onWire b s
  (pairAt t 0 1).flight.all (!malformed ·) && authentic t 0 1 (packet 0 b) && (pairAt t 0 1).expect == 0 && reaches t 0 1 && !bufferFull t 0 1 b
/-- Forged by its epoch and by its secret; ahead of its turn, once and twice; accepted before; malformed. -/
theorem witness_arrival : pRes.home.die = 1 ∧ authentic (onWire bWr sNet) 0 1 (packet 0 bWr) = true ∧
    authentic (onWire bWr sNet) 0 1 { packet 0 bWr with key := 2 } = false ∧ authentic (onWire bWr sNet) 0 1 { packet 0 bWr with secret := 7 } = false ∧
    (packet 5 bWr).seq ≠ (pairAt (onWire bWr sNet) 0 1).expect ∧ behind (pairAt (onWire bWr sNet) 0 1) 5 = false ∧
    behind (pairAt (onWire bWr sNet) 0 1) 0xFFFFFF = true ∧ [({ packet 0 bWr with zeros := false } : Packet), packet 0 .reserved].all malformed = true ∧
    [({ packet 0 bWr with key := 2 } : Packet), { packet 0 bWr with secret := 7 }, packet 5 bWr, { packet 5 bWr with circ := true }, packet 0xFFFFFF bWr, packet 0 .reserved].map (fun p =>
      match execWrite 0 1 (wire [p] sNet) with
      | .next t => ((pairAt t 0 1).flight.length, (pairAt t 1 0).flight.length) | _ => (9, 9)) = [(0, 0), (0, 0), (1, 0), (0, 1), (0, 1), (0, 0)] ∧
    nextIs (execWrite 0 1 (wire [packet 0 .reserved] sNet)) (fun t => (linkAt t 1 (arrivalPort sNet 0 1)).drop == 1) = true := by decide +kernel
/-- The home's answer: 1 done, 2 a conflict, 3 refused. -/
def code {α : Type} (a : HAns α) : Nat := match a with | .ok _ _ => 1 | .conflict _ => 2 | .refused _ => 3
/-- Another task of another core has written the byte; the slab is fenced. -/
def written (s : State) : State := match homeStore s (remoteWho fp ⟨0, 5⟩ 78) pRes (.bytes [1]) {} with | .ok s2 _ => s2 | _ => s
def walled (s : State) : State := modSlab s ⟨1, 0⟩ fun b => { b with fence := true }
theorem witness_packetWrite : [sNet, written sNet, walled sNet].map (fun s => (takenB bWr s, code (homeStore (onWire bWr s) (remoteWho fp c0 supId) pRes (.bytes [1]) {}))) =
    [(true, 1), (true, 2), (true, 3)] := by decide +kernel
theorem witness_packetRead : [sNet, written sNet, walled sNet].map (fun s => (takenB (bRd false) s, code (homeLoad (onWire (bRd false) s) (remoteWho fp c0 supId) pRes 8 false))) =
      [(true, 1), (true, 2), (true, 3)] ∧
    [sNet, walled sNet].map (fun s => (takenB (bRd true) s, code (homeVersioned (onWire (bRd true) s) (remoteWho fp c0 supId) pRes))) = [(true, 1), (true, 3)] := by
  decide +kernel
theorem witness_packetAtomic : [sNet, written sNet, walled sNet].map (fun s => (takenB bAt s, code (homeAtomic (onWire bAt s) (remoteWho fp c0 supId) pRes 0 0xF 1 0 0 {}))) =
      [(true, 1), (true, 2), (true, 3)] ∧ dieFeature (onWire bAt sNet) fp 1 = 0x3FF ∧ dieFeature (onWire bAt sBase) fp 1 = 0 ∧ atomicFeature 0 0xF 0 = 0 ∧ atomicFeature 33 1 0 ≠ 0 := by decide +kernel
/-- An entry of the sender's LE queue, for the data, flags and chains of engine entries. -/
abbrev entry0 : Entry := match queueAt (sSendt 0) qle with | e :: _ => e | [] => ent1
abbrev sLe : State := twoDies (sSendt 0)
def flagCode (s : State) : Nat := code (flagAt (onWire (.flag fp pRes qle entry0.serial) s) (entWho qle entry0) pRes)
theorem witness_packetEntry : (entryAt sLe qle entry0.serial).isSome = true ∧ (entryAt sLe qle 999).isNone = true ∧
    [sLe, written sLe, walled sLe].map (fun s => (takenB (.flag fp pRes qle entry0.serial) s, flagCode s)) = [(true, 1), (true, 2), (true, 3)] ∧
    takenB (.ewrite fp pRes [1, 2] qle entry0.serial) sLe = true ∧
    eaOk (entStoreAt (entWho qle entry0) entry0 2 (ofBytes [1, 2]) (onWire (.ewrite fp pRes [1, 2] qle entry0.serial) sLe) pRes) = true := by decide +kernel
def acks (o : Host.Outcome State Fault Refusal) : List Nat := match o with | .next t => (pairAt t 1 0).flight.map (typeOf ·.body) | _ => []
abbrev bSem : Body := .semadd fp 2 7 qle entry0.serial
/-- A SEMADD that lands, at a fenced cluster, for another partition's slab, and where no ring reaches. -/
theorem witness_semadd : takenB bSem sLe = true ∧ (clusterAt sLe ⟨1, 2⟩).fenced = false ∧ (slabAt sLe (clusterSlab ⟨1, 2⟩)).fence = false ∧
    (slabAt sLe (clusterSlab ⟨1, 2⟩)).pid = fp ∧ reaches (onWire bSem (modDie sLe 1 fun d => { d with fencedRouter := true })) 0 1 = false ∧
    [sLe, modCluster sLe ⟨1, 2⟩ (fun k => { k with fenced := true }), modSlab sLe ⟨1, 0⟩ (fun b => { b with pid := 5 }),
      modDie sLe 1 (fun d => { d with fencedRouter := true })].map (fun s => acks (execSemadd 0 1 (onWire bSem s))) = [[5], [6], [6], [6]] := by decide +kernel
abbrev bFwd : Body := .forward fp 0 (2 ^ 47 + 0x4000) [1, 2] [] none 0 qle entry0.serial 0
abbrev bStr : Body := .stream fp 2 1 [5] qle entry0.serial 0
theorem witness_chain : takenB bFwd sLe = true ∧ eaOk (forwardAt qle entry0 0 (2 ^ 47 + 0x4000) [1, 2] none 0 0 1 [] (onWire bFwd sLe)) = true ∧
    (match forwardAt qle entry0 0 (2 ^ 47 + 0x4000) [1, 2] none 0 0 1 [] (onWire bFwd (walled sLe)) with | .fault _ _ => true | _ => false) = true ∧
    acks (execForward 0 1 (onWire bFwd (walled sLe))) = [5, 6] ∧ takenB bStr sLe = true ∧ acks (execStream 0 1 (onWire bStr sLe)) = [5] ∧
    acks (execStream 0 1 (onWire bStr (modDie sLe 1 fun d => { d with fencedRouter := true }))) = [6] ∧
    takenB (.rdata fp c0 supId 0 0 0 false) sNet = true ∧ takenB (.aresp fp c0 supId 0 0 true false) sNet = true := by decide +kernel

theorem exportOf_wire (l : List Packet) (s : State) (a b : DieId) : exportOf (wire l s) a b = exportOf s a b := rfl
theorem packet_mgmt : packet 0 (.mgmt 5) = { seq := 0, key := 0, secret := (exportOf sNet 0 1).getD 0, tag := 9, body := .mgmt 5 } := rfl
/-- The partition no longer holds the other die; the store of a task that is gone, and data of an entry that is gone; a full buffer,
once and twice round; a chain that an earlier packet found shut at the die's place, and after it. -/
def lost (s : State) : State := modPart s fp fun p => { p with dies := [0], slabs := [sl0] }
abbrev bGone : Body := .write fp c0 0x999 pRes (.bytes [1]) {}
abbrev bEw (n : Nat) : Body := .ewrite fp pRes [1] qle n
theorem witness_foreign : holdsSlab (lost sNet) fp pRes.home = false ∧ dieInPart (lost sLe) fp 1 = false ∧
    [acks (execWrite 0 1 (onWire bWr (lost sNet))), acks (execRead 0 1 (onWire (bRd false) (lost sNet))), acks (execAtomic 0 1 (onWire bAt (lost sNet))),
      acks (execFlag 0 1 (onWire (.flag fp pRes qle entry0.serial) (lost sLe))), acks (execWrite 0 1 (onWire (bEw entry0.serial) (lost sLe)))] =
        [[6], [6], [6], [6], [6]] ∧ acks (execForward 0 1 (onWire bFwd (lost sLe))) = [5, 6] ∧
    deadStore (onWire bGone sNet) fp 0x999 (.bytes [1]) = true ∧ acks (execWrite 0 1 (onWire bGone sNet)) = [5] ∧ acks (execWrite 0 1 (onWire (bEw 999) sLe)) = [5] := by
  decide +kernel
def jammed (s : State) : State := modDie s 1 fun d => { d with full := [0] }
theorem witness_jammed : bufferFull (onWire bWr (jammed sNet)) 0 1 bWr = true ∧ [packet 0 bWr, { packet 0 bWr with circ := true }].map (fun p =>
      match execWrite 0 1 (wire [p] (jammed sNet)) with
      | .next t => ((pairAt t 0 1).flight.map (·.circ), acks (.next t), (linkAt t 1 (arrivalPort sNet 0 1)).returns) | _ => ([], [], 9)) =
    [([true], [], 0), ([], [7], 1)] := by decide +kernel
def cutAt (n : Nat) (s : State) : State := modEntry s qle entry0.serial fun e => { e with cut := some n, acks := 1 }
theorem witness_cut : [0, 1].map (fun n => match execForward 0 1 (onWire bFwd (cutAt n sLe)) with
    | .next t => ((entryAt t qle entry0.serial).map (·.acks), !t.l2.isEmpty) | _ => (none, false)) = [(some 0, false), (some 1, true)] := by decide +kernel
/-- A packet of firmware, under the key that the sessions export. -/
theorem witness_mgmt : authentic (onWire (.mgmt 5) sNet) 0 1 (packet 0 (.mgmt 5)) = true ∧ (packet 0 (.mgmt 5)).seq = 0 ∧
    malformed (packet 0 (.mgmt 5)) = false ∧ bufferFull (onWire (.mgmt 5) sNet) 0 1 (.mgmt 5) = false := by
  obtain ⟨k, hk⟩ : ∃ k, exportOf sNet 0 1 = some k := by
    unfold exportOf; rw [show sessionUp sNet 0 1 = true by decide +kernel]; exact ⟨_, rfl⟩
  rw [packet_mgmt]
  refine ⟨?_, rfl, rfl, by decide +kernel⟩
  simp only [authentic, bodyPid, onWire, exportOf_wire, hk, Option.getD_some, beq_self_eq_true, Bool.and_self]

/-- An answer on the wire from die 1 to die 0, which keeps packet 4. -/
def answered (b kept : Body) (f : Pair → Pair) (s : State) : State :=
  { s with net := [((0, 1), f { kept := [(packet 4 kept, 0)] }), ((1, 0), { flight := [packet 0 b] })] }
abbrev bAck : Body := .ack (some fp) (some 4) supId none
abbrev bAckE (n : BitVec 24) : Body := .ack (some fp) (some n) 0 (some (qle, entry0.serial))
abbrev bRef (posted : Bool) : Body := .refuse (some fp) (some 4) supId c0 1 0 (some 0) posted none 0
abbrev bRefE : Body := .refuse (some fp) (some 4) 0 ⟨0, 0⟩ 1 0 (some 0) false (some (qle, entry0.serial)) 0
abbrev bFlag : Body := .flag fp pRes qle entry0.serial
def keptOf (o : Host.Outcome State Fault Refusal) : Nat := match o with | .next t => (pairAt t 0 1).kept.length | _ => 9
theorem witness_ack : (pairAt (answered bAck bWr id sNet) 1 0).flight.map (fun p => (p.body == bAck, authentic sNet 1 0 p, malformed p)) = [(true, true, false)] ∧
    keptOf (execAck 1 0 (answered bAck bWr id sNet)) = 0 ∧ keptOf (execAck 1 0 (answered (bAckE 4) bFlag id sLe)) = 0 ∧
    keptOf (execAck 1 0 (answered (bAckE 5) bWr id sNet)) = 1 ∧
    keptOf (execRefuse 1 0 (answered (bRef true) bWr id sNet)) = 0 ∧ keptOf (execRefuse 1 0 (answered (bRef false) (bRd false) id sNet)) = 0 ∧
    nextIs (execRefuse 1 0 (answered bRefE bFlag id sLe)) (fun t => (entryAt t qle entry0.serial).map (·.st) == some .halted) = true := by decide +kernel
abbrev bBusy : Body := .busy (some fp) 4
theorem witness_busy : (pairAt (answered bBusy bWr id sNet) 0 1).resendAt = none ∧ authentic sNet 1 0 (packet 0 bBusy) = true ∧
    (match execBusy 1 0 (answered bBusy bWr id sNet) with | .next t => (pairAt t 0 1).resendAt | _ => none) = some (4, 256) ∧
    (pairAt (answered bBusy bWr (fun q => { q with resendAt := some (4, 256) }) { sNet with ck := 256 }) 0 1).resendAt = some (4, 256) ∧
    (pairAt { answered bBusy bWr id sNet with ck := 65536 } 0 1).kept.map (fun k => decide (k.2 + 65536 ≤ 65536)) = [true] := by decide +kernel
/-- A DEMAND of more than 64 flits; a grant used in its last cycle, and one cycle late, when the sender asks again. -/
theorem witness_grant : (match execDemand 1 0 (answered (.demand (some fp) 65) bWr id sNet) with | .next t => (pairAt t 1 0).grants | _ => []) = [(64, 0)] ∧
    [4095, 4096].map (fun n => match execGrant 1 0 (answered (.grant (some fp) 5) bWr (fun q => { q with grants := [(5, 0)], waiting := [packet 0 bWr] }) { sNet with ck := n }) with
      | .next t => ((pairAt t 0 1).waiting.length, (pairAt t 0 1).flight.map (typeOf ·.body)) | _ => (9, [])) = [(0, [5, 0]), (1, [5, 8])] ∧
    ([((5 : Nat), (0 : Nat))].filter fun g => decide (4095 < g.2 + 4096)) = [(5, 0)] ∧ ([((5 : Nat), (0 : Nat))].filter fun g => decide (4096 < g.2 + 4096)) = [] := by decide +kernel

/-! ### Host, partitions, firmware -/

/-- Queue pair 3 of package 0 belongs to the partition; pair 4 to none. -/
def hostS (s : State) : State := modQp s 3 fun q => { q with pid := fp }
abbrev hS : State := hostS sObj
def cmd (op : Nat) (rest : Nat) : BitVec 256 := BitVec.ofNat 256 (op * 2 ^ 248 + 5 * 2 ^ 208 + rest)
/-- A command whose body is 0. -/
def headerOnly (h : BitVec 256) : BitVec 2304 := h.setWidth 2304
def openB (s : State) (n : Nat) : Bool := portUp s (qpPkg n) && !(qpAt s n).error && (qpAt s n).pid != 0 && (qpAt s n).waiting.isEmpty
def cqOf (o : Host.Outcome State Fault Refusal) : List Nat := match o with | .next t => (qpAt t 3).cq.map fun c => bitsN c 240 8 | _ => [999]
/-- A copy that names object 7 is queued. -/
abbrev sCopying : State := hostS (setQueue sObj qce [{ ent1 with cmd := .cpyl fE, caps := [capO] }])
/-- A TRUNC on record 0 of die 0 runs. -/
abbrev sTrunc : State := hostS (setQueue sObj ⟨0, 0, .su⟩ [{ ent1 with cmd := .trunc fE, st := .running }])
theorem witness_host : openB hS 3 = true ∧ [cmd 7 0, cmd 2 0, cmd 3 (2 ^ 76), cmd 4 (7 * 2 ^ 176), cmd 6 0, cmd 1 0].map cmdOk = [true, true, true, true, true, true] ∧
    [cmd 9 0, cmd 7 1].map cmdOk = [false, false] ∧ truncRuns (arrived hS 3 (cmd 2 0) 0) 0 0 = false ∧
    copyNames (arrived hS 3 (cmd 4 (7 * 2 ^ 176)) 0) fp ((cmd 4 (7 * 2 ^ 176)).extractLsb' 176 32) = false ∧
    copyNames (arrived sCopying 3 (cmd 4 (7 * 2 ^ 176)) 0) fp ((cmd 4 (7 * 2 ^ 176)).extractLsb' 176 32) = true ∧ openB sCopying 3 = true ∧
    partIs (arrived hS 3 (cmd 1 0) 0) (fun p => p.subs.all fun x => x.qp != some 3) = true ∧
    truncRuns (arrived sTrunc 3 (cmd 2 0) 0) 0 0 = true ∧ openB sTrunc 3 = true ∧ cqOf (execFrame 3 (cmd 2 0) sTrunc) = [] ∧
    cqOf (execNop 3 (cmd 7 0) hS) = [0] ∧ cqOf (execUnknownOp 3 (headerOnly (cmd 9 0)) hS) = [255] ∧ cqOf (execDeregmr 3 (cmd 4 (7 * 2 ^ 176)) sCopying) = [] := by decide +kernel
theorem witness_hostPairs : portUp hS (qpPkg 4) = true ∧ (qpAt hS 4).error = false ∧ (qpAt hS 4).pid = 0 ∧ (qpAt hS (qpOf 0 4)).rate ≠ 0 ∧ portUp hS 0 = true ∧
    (pkgAt hS 0).session = false ∧ (pkgAt (modPkg hS 0 fun k => { k with session := true }) 0).session = true ∧ (pkgAt hS 0).fwstate ≠ 2 := by decide +kernel
/-- Any command on pair 4, which belongs to no partition. -/
def naked (o : Host.Outcome State Fault Refusal) : Bool := match o with | .next t => (qpAt t 4).error && (qpAt t 4).naks == (qpAt hS 4).naks + 1 && (qpAt t 4).waiting.isEmpty | _ => false
theorem witness_nak : [execHostLaunch 4 (cmd 1 0) 0 hS, execFrame 4 (cmd 2 0) hS, execRegmr 4 (cmd 3 (2 ^ 76)) hS, execDeregmr 4 (cmd 4 (7 * 2 ^ 176)) hS,
    execResync (some 4) 0 (cmd 6 0) hS, execNop 4 (cmd 7 0) hS, execUnknownOp 4 (headerOnly (cmd 9 0)) hS, execPactCreate (some 4) 0 (cmd 5 (2 ^ 204 + 9 * 2 ^ 171 + 4 * 2 ^ 121)) hS,
    execPactDestroy (some 4) 0 (cmd 5 (5 * 2 ^ 204 + 2 ^ 171)) hS].all naked = true := by decide +kernel
/-- The management port in session. -/
abbrev mgmt (s : State) : State := modPkg s 0 fun k => { k with session := true }
def pactH (act : Nat) (kill : Nat) (pid mask : Nat) : BitVec 256 := cmd 5 (act * 2 ^ 204 + kill * 2 ^ 203 + pid * 2 ^ 171 + mask * 2 ^ 121)
def shapeSlabs (m : Nat) : Option (List SlabId) := (shapeOf 0 0 0 m).map (·.slabs)
def actionOf (o : Host.Outcome State Fault Refusal) (pid : BitVec 32) : Option (Nat × Nat) :=
  match o with | .next t => (partAt t pid).bind fun p => p.action.map fun a => (a.act, a.step) | _ => none
theorem witness_pactCreate : cmdOk (pactH 1 0 9 4) = true ∧ partAt (mgmt hS) 9 = none ∧ shapeSlabs 4 = some [⟨0x800, 0⟩] ∧
    (match shapeOf 0 0 0 4 with | some x => !breaksWrap (mgmt hS) x && x.slabs.all fun sl => !inAction (mgmt hS) sl && (slabAt (mgmt hS) sl).pid == 0 | none => false) = true ∧
    hNqp (pactH 1 0 9 4) ≤ (freePairs (mgmt hS) 0).length ∧ actionOf (execPactCreate none 0 (pactH 1 0 9 4) (mgmt hS)) 9 = some (1, 1) := by decide +kernel
theorem witness_pactResize : cmdOk (pactH 2 0 1 2) = true ∧ shapeSlabs 2 = some [⟨0, 1⟩] ∧ partIs (mgmt hS) (fun p => p.action.isNone && p.slabs == [sl0] &&
      !homed (mgmt sBase) fp (p.slabs.filter fun sl => !([(⟨0, 1⟩ : SlabId)].contains sl))) = true ∧
    [sl0, ⟨0, 1⟩].all (fun sl => !inAction (mgmt sBase) sl) = true ∧ (slabAt (mgmt sBase) ⟨0, 1⟩).pid = 0 ∧
    actionOf (execPactResize none 0 (pactH 2 0 1 2) (mgmt sBase)) fp = some (2, 1) := by decide +kernel
theorem witness_pactWhole : [pactH 4 0 1 0, pactH 5 1 1 0, pactH 3 0 1 0, pactH 3 0 1 1].map cmdOk = [true, true, true, true] ∧
    actionOf (execPactUncoreReset none 0 (pactH 4 0 1 0) (mgmt hS)) fp = some (4, 1) ∧ actionOf (execPactDestroy none 0 (pactH 5 1 1 0) (mgmt hS)) fp = some (5, 1) ∧
    [0, 1].all (fun m => (if m = 0 then [sl0] else maskSlabs 0 m).all fun sl => !inAction (mgmt hS) sl && sl == sl0) = true := by decide +kernel
/-- An action of one slab at a step, with or without a launch. -/
def acting (act step : Nat) (ls : List Launch) : State :=
  modPart (withL [] ls ls.length 1) fp fun p => { p with action := some { act := act, step := step, kill := false, slabs := [sl0], newSlabs := [sl0], newShape := 0, newLo := 0, newHi := 0, qp := none, ctag := 0 } }
def stepOf (o : Host.Outcome State Fault Refusal) : Option (BitVec 6 × Nat) :=
  match o with | .next t => (partAt t fp).map fun p => (p.epoch, (p.action.map (·.step)).getD 9) | _ => none
theorem witness_steps : [acting 4 1 [], acting 4 1 [launch1 1 3], acting 5 3 [], acting 4 3 []].map (fun s => (partAt s fp).bind fun p => p.action.map fun a => (a.act, a.step, p.launches.length)) =
      [some (4, 1, 0), some (4, 1, 1), some (5, 3, 0), some (4, 3, 0)] ∧
    actionOf (execPartitionDrainDone fp (acting 4 1 [])) fp = some (4, 2) ∧
    [2, 4].map (fun n => stepOf (step { acting 4 n [] with agenda := [.partStep fp] })) = [some (1, 3), some (1, 9)] ∧
    (match step { acting 5 4 [] with agenda := [.partStep fp] } with | .next t => (partAt t fp).isNone | _ => false) = true ∧
    (match execScrubComplete fp 5 (acting 4 3 []) with | .next t => (partAt t fp).map fun p => (p.epoch, p.secret, p.action.map (·.step)) | _ => none) = some (2, 5, some 4) := by decide +kernel

/-- An image whose header has no magic word. -/
def noImage : FwImage := { header := 0, keyBlock := 0, body := [], rsaSig := [], slhSig := [] }
def mhzOf (o : Host.Outcome State Fault Refusal) : Nat := match o with | .next t => (pkgAt t 0).mhz | _ => 0
theorem witness_firmware : (pkgAt (mgmt hS) 0).session = true ∧ imageOk (pkgAt (mgmt hS) 0) noImage = false ∧ (pkgAt (mgmt hS) 0).fwstate = 0 ∧
    (let k := pkgAt (modPkg (mgmt hS) 0 fun k => { k with svn := 63, svnFloor := 62 }) 0; k.svn = 63 ∧ k.svnFloor < 63) ∧
    copyOk (pkgAt hS 0) (pkgAt hS 0).active = true ∧ copyOk (pkgAt hS 0) (pkgAt hS 0).staging = false ∧
    (let k := pkgAt (modPkg hS 0 fun k => { k with svnFloor := 1 }) 0; copyOk k k.active = false ∧ copyOk k k.staging = false) := by decide +kernel
/-- Another image is being transferred: this one is turned away, that one taken; a transfer begins. -/
def sending (s : State) : State := setPkg s 0 { pkgAt s 0 with transfer := some noImage }
abbrev image1 : FwImage := { noImage with header := 1 }
theorem witness_transfer : (match execFirmwareDelivery 0 image1 (sending (mgmt hS)), execFirmwareDelivery 0 noImage (sending (mgmt hS)) with
      | .next t, .next u => ((pkgAt t 0).answers, (pkgAt t 0).staging, (pkgAt u 0).answers, (pkgAt u 0).staging, (pkgAt u 0).transfer) | _, _ => ([], .shipped, [], .shipped, none)) =
        ([.busy], .empty, [], .image noImage, none) ∧
    nextIs (step { mgmt hS with agenda := [.transfer 0 image1] }) (fun t => (pkgAt t 0).transfer == some image1) = true := by decide +kernel
/-- A boot whose links 0 and 2 of die 0 fail, whose die 7 fails and whose expander of logical die 1 is off. -/
theorem witness_boot : (match step { hS with agenda := [.training 0 5 1 0 false] } with
    | .next t => (match execPackageReset 0 3 0x80 t with
      | .next u => ((pkgAt u 0).cxlOff, (pkgAt u 0).wrap, (dieAt u 0).live, (dieAt u (dieOfPkg 0 7)).live, (dieAt u 0).downLinks, (pkgAt u 0).fwstate) | _ => (0, 0, false, false, [], 9))
    | _ => (0, 0, false, false, [], 8)) = (1, 3, true, false, [0, 2], 0) := by decide +kernel
/-- No copy is sound: the package recovers, then waits for redelivery. -/
theorem witness_recover : (match execPackageReset 0 3 0 (modPkg hS 0 fun k => { k with svnFloor := 1 }) with
    | .next u => ((pkgAt u 0).fwstate, (dieAt u 0).live, match step { u with agenda := [.boot 0] } with | .next v => ((pkgAt v 0).fwstate, (dieAt v 0).live) | _ => (9, true))
    | _ => (9, true, 9, true)) = (1, false, 2, false) := by decide +kernel
/-- The first and the last channel of slab 0 and 1, the expander of logical die 1, a link port. -/
theorem witness_channels : [0, 31].map (fun i => match execUncorrectableError 0 3 i hS with
      | .next t => ((slabAt t sl0).fencedChans.length, (slabAt t ⟨0, 1⟩).fencedChans.length) | _ => (9, 9)) = [(1, 0), (0, 1)] ∧ hasExpander hS 2048 = true ∧
    (match execUncorrectableError 2048 3 32 hS with | .next t => ((slabAt t ⟨2048, 0⟩).fencedChans, (slabAt t ⟨2048, 1⟩).fencedChans) | _ => ([], [])) = ([16], [16]) ∧
    [0, 5].map (fun i => match execUncorrectableError 0 4 i hS with | .next t => (dieAt t 0).fencedPorts.length | _ => 9) = [1, 1] := by decide +kernel
theorem witness_power : [4601, 4600].map (fun d => mhzOf (execPowerCapTick 0 d hS)) = [1150, 1200] ∧ [105, 106].map (fun c => mhzOf (execThermalTrip 0 c false hS)) = [1200, 1150] ∧
    [1999, 2000, 4600, 4601].map (fun w => match execPowerCap 0 w (mgmt hS) with | .next t => (pkgAt t 0).cap | _ => 0) = [4600, 2000, 4600, 4600] ∧
    [(115, true), (116, false)].map (fun x => match execThermalTrip 0 x.1 x.2 hS with | .next t => (slabAt t sl0).fence | _ => false) = [true, true] ∧
    (let s := modPart hS fp fun p => { p with slabs := [sl0, ⟨2, 0⟩] }
     s.parts.any (fun p => p.2.slabs.any (fun a => pkgOf a.die == 0) && p.2.slabs.any fun b => pkgOf b.die == 2)) = true := by decide +kernel
theorem witness_units : [(0, 0), (1, 9), (2, 159), (5, 0)].map (fun x => match execUncorrectableError 0 x.1 x.2 hS with | .next t => t == hS | _ => true) = [false, false, false, false] ∧
    (logicalCluster 0).isSome = true ∧ (match execCorrectedError 0 4 0 hS with | .next t => lkpD (dieAt t 0).corrected (4, 0) 0 | _ => 0) = 1 := by decide +kernel

/-! ### Homes on another die, releases, and the checks of every access form -/

/-- The form's check, and its place where it passes. -/
def chkOf (i : Instr) (s : State) (f : FmtM) : Option (State × Chk) := ((checksOf s (me s) f).find? fun x => x.1 == i).map (·.2)
def passes (i : Instr) (s : State) (f : FmtM) (g : State → Res → Bool) : Bool := match chkOf i s f with | some p => okB p g | none => false
/-- At a home on die 1: physical memory, and object 7 there. -/
abbrev far (i : Instr) : State := twoDies (setup i fun t => { regs 40 (2 ^ 47 + 0x4000) 3 t with wq := [1, 2, 3] })
abbrev farObj (flags : Nat) (i : Instr) (v : W64 := 0) : State :=
  twoDies (withObj 7 (live flags) 4096 (2 ^ 47 + mapped) (setup i (capIn capO ∘ regs v 224 99)))
/-- The state in which a strand has asked a home on another die. -/
def askHome (s u : State) (r : Res) (b : Body) : State :=
  hold (me s) .remote (modTask (sendPkt { u with serial := u.serial + 1 } 0 r.home.die (BitVec.ofNat 32 u.serial) b) c0 fun t =>
    { t with remote := .sent r (BitVec.ofNat 32 u.serial) true })
abbrev fLd8 : FmtM := ⟨6, 1, 5, 0xB, 0, 0, 0, 0⟩
abbrev fLdvF : FmtM := ⟨30, 2, 5, 0xF, 0, 0, 0, 0⟩
abbrev farLoads : List (Instr × FmtM × State) :=
  [(.ld fLd8, fLd8, far (.ld fLd8)), (.cld fCld, fCld, farObj capStore (.cld fCld)), (.ldt fLdt, fLdt, far (.ldt fLdt)), (iAcq, fAcq, far iAcq),
   (.ldv fLdvF, fLdvF, farObj versioned (.ldv fLdvF))]
theorem witness_far_loads : farLoads.all (fun x => let s := x.2.2; let i := x.1
    readyB i s && passes i s x.2.1 fun s1 r => r.home.die == 1 && (l1Find (clusterAt s1 k0) r.key).isNone && !sideOverlap (me s).t r.loc 256 &&
      goesTo i s (askHome s s1 r (.read fp c0 supId r (loadBytes i x.2.1) (i == .ldv fLdvF) (i == iAcq)))) = true := by decide +kernel
/-- The answer of another die, under the strand. -/
def told (x : Remote) (s : State) : State := modTask s c0 fun t => { t with remote := x }
def farRes (i : Instr) (f : FmtM) (s : State) : Res := match chkOf i s f with | some (_, .ok r) => r | _ => pRes
theorem witness_far_answers : farLoads.all (fun x => let r := farRes x.1 x.2.1 x.2.2
    isHeld (told (.sent r 5 true) x.2.2) .remote &&
    [0, 3, 1].map (fun why => (faultOfStep (told (.refused r why 9) x.2.2)).map (·.1)) == [some 13, some 21, some 14] &&
    (match exec x.1 (told (.line r true (7 <<< 1792) 0xFF 5 false) x.2.2) with
      | .next t => (coreAt t c0).task.map (fun k => (k.as.pc, k.remote == .idle)) == some (8, true) | _ => false)) = true ∧
    (match exec (.cld fCld) (told (.line (farRes (.cld fCld) fCld (farObj capStore (.cld fCld))) true (7 <<< 1792) 0x80 5 false) (farObj capStore (.cld fCld))) with
      | .next t => (coreAt t c0).task.map fun k => rdC k 3 | _ => none) = some { tag := true, bits := 7 } := by decide +kernel
/-- A store to another die has been posted. -/
def posted (s u : State) (r : Res) (op : WOp) (ord : Ordr) (k : State → State) : State :=
  k (l1Posted (modTask (noFill (sendPkt u 0 r.home.die (me s).t.stag (.write fp c0 supId r op ord)) k0 fun q => q.key == r.key) c0 fun t =>
    { t with stag := nextTag t.stag, unacked := upd t.unacked r.home.die 0 (· + 1)
             unackedOrd := if ord.kind = 0 then t.unackedOrd else upd t.unackedOrd r.home.die 0 (· + 1) }) (me s) r op)
def postsB (i : Instr) (f : FmtM) (s : State) (op : WOp) (ord : Ordr) (k : State → State) : Bool :=
  readyB i s && (me s).t.side.isEmpty && passes i s f fun s1 r => r.home.die == 1 && !ordWait (me s).t (some r.home.die) &&
    (if ord.kind = 2 then relDone (releaseSteps s1 (me s) f.scope.toNat (some r.home.die)) else fun g => g s1) fun s2 => goesTo i s (posted s s2 r op ord k)
abbrev fCstF : FmtM := ⟨2, 2, 5, 0, 0, 0, 0, 0⟩
theorem witness_far_stores : postsB (.st fSt) fSt (far (.st fSt)) (.bytes (bytesOf 8 3)) {} (retire (me (far (.st fSt)))) = true ∧
    postsB (.cst fCstF) fCstF (farObj capStore (.cst fCstF)) (.cap capO) {} (retire (me (farObj capStore (.cst fCstF)))) = true ∧
    postsB (.stt fLdt) fLdt (far (.stt fLdt)) (.bytes (bytesOf 128 1 ++ bytesOf 128 2)) {}
      (fun t => retire (me (far (.stt fLdt))) (modTask t c0 fun k => { k with wq := [3] })) = true ∧
    postsB (.rel fRel) fRel (far (.rel fRel)) (.release (bytesOf 4 3)) { kind := 2, scope := 3 } (retire (me (far (.rel fRel)))) = true := by decide +kernel
/-- What whole words, a part of a word and a reduction leave in a line of the L1 that a load has filled. -/
def l1After (op : WOp) : List (Bool × Bool × W64 × Nat) :=
  let s := again iLd sLd
  match (mCheck sLd (me sLd) fLd askLd).2 with
  | .ok r => (match l1Find (clusterAt (l1Posted s (me s) r op) k0) r.key with
    | some y => [(y.own.any (·.task == supId), y.valid.getLsbD 63, y.valid, if y.bytes = 0 then 0 else 1)] | none => [])
  | _ => []
theorem witness_posted_l1 : [WOp.bytes [1, 2, 3, 4], .bytes [1, 2], .reduce 0 32 5].map l1After =
    [[(true, true, -1, 0)], [(true, true, -1, 0)], [(false, false, 0x7FFFFFFFFFFFFFFF, 0)]] := by decide +kernel
abbrev farAtomics : List (Instr × FmtM × State) :=
  [(.amo fAmo, fAmo, far (.amo fAmo)), (.amofFadd (fA4 1 0 0), fA4 1 0 0, far (.amofFadd (fA4 1 0 0))), (.amofFmax (fA4 3 1 0), fA4 3 1 0, far (.amofFmax (fA4 3 1 0))),
   (.cas (fC4 0xF), fC4 0xF, far (.cas (fC4 0xF))), (.casv ⟨4, 2, 5, 0xF, 2, 3, 0, 0⟩, ⟨4, 2, 5, 0xF, 2, 3, 0, 0⟩, farObj versioned (.casv ⟨4, 2, 5, 0xF, 2, 3, 0, 0⟩) 5)]
abbrev fRed : FmtM := ⟨6, 1, 5, 0xF, 1, 3, 23, 0⟩
theorem witness_far_atomics : farAtomics.all (fun x => let s := x.2.2; let i := x.1; let f := x.2.1
    readyB i s && passes i s f fun s1 r => r.home.die == 1 &&
      (if f.ord = 2 ∨ f.ord = 3 then relDone (releaseSteps s1 (me s) f.scope.toNat (some r.home.die)) else fun g => g s1) fun s2 =>
        (match (atomicAsks s (me s) f).find? (·.1 == i) with
        | some (_, fn, b, e, kind) => goesTo i s (askHome s (noFill s2 k0 fun q => q.key == r.key) r
            (.atomic fp c0 supId r fn f.ty b e kind { kind := f.ord, scope := f.scope }))
        | none => false)) = true ∧
    postsB (.amoReduce (fA4 0xF 23 0)) (fA4 0xF 23 0) (far (.amoReduce (fA4 0xF 23 0))) (.reduce 7 64 3) {} (retire (me (far (.amoReduce (fA4 0xF 23 0))))) = true ∧
    postsB (.amoReduce fRed) fRed (far (.amoReduce fRed)) (.reduce 7 64 3) { kind := 1, scope := 3 } (fun t =>
      hold (me (far (.amoReduce fRed))) .remote (modTask t c0 fun k => { k with remote := .posted (me (far (.amoReduce fRed))).t.stag })) = true := by decide +kernel
theorem witness_far_olds : (farAtomics ++ [(Instr.amoReduce fRed, fRed, far (.amoReduce fRed))]).all (fun x => let r := farRes x.1 x.2.1 x.2.2
    isHeld (told (.sent r 5 true) x.2.2) .remote && isHeld (told (.posted 5) x.2.2) .remote &&
    [0, 3, 1].map (fun why => (faultOfStep (told (.refused r why 9) x.2.2)).map (·.1)) == [some 13, some 21, some 14] &&
    faultOfStep (told (.unsupported r 1) x.2.2) == some (15, 1)) = true ∧
    farAtomics.all (fun x => (after (told (.old (farRes x.1 x.2.1 x.2.2) 41 6 true) x.2.2)).map (·.as.pc) == some 8) = true ∧
    (after (told .accepted (far (.amoReduce fRed)))).map (·.as.pc) = some 8 := by decide +kernel

/-- Object 7 with word 0 `w0` and its extent entry, under an access by the capability `k`. -/
abbrev onObj (w0 ext : Nat) (k : CapReg) (i : Instr) : State := withObj 7 w0 4096 ext (setup i (capIn k))
/-- Checks 6 to 11 on an LD: FREE, STATE 3, FMT 0x7, TIER 3 and a foreign die; on an LDV an unversioned object; a MOVING object and a missing extent
hold, as does an extent that moves. -/
theorem witness_laterChecks : [0x3001 * 2 ^ 48, live 0 + 2 ^ 63, 2 ^ 62 + 7 * 2 ^ 58 + 2 ^ 48].map (fun w0 => (faultOfStep (onObj w0 mapped capO (.ld (fA 2)))).map (·.1)) =
      [some 8, some 8, some 6] ∧
    [mapped + 3 * 2 ^ 9, 2 ^ 47 + mapped].map (fun x => (faultOfStep (onObj (live 0) x capO (.ld (fA 2)))).map (·.1)) = [some 8, some 8] ∧
    (faultOfStep (onObj (live 0) mapped capO (.ldv fLdvF))).map (·.1) = some 17 ∧
    isHeld (onObj (live 0 + 2 ^ 62) mapped capO (.ld (fA 2))) .moving = true ∧ isHeld (onObj (live 0) 0 capO (.ld (fA 2))) .extent = true ∧
    isHeld (modPart (onObj (live 0) mapped capO (.ld (fA 2))) fp fun p => { p with moving := [(⟨7, 0, 0⟩, sl0)] }) .extent = true := by decide +kernel
/-- LDT on a distributed object: no tag, no right, outside, misaligned, displaced, no line boundary on its die, another LGEN; another format. -/
abbrev onDist (k : CapReg) (co : W64) (d : BitVec 24) (ty : BitVec 4 := 0) : State :=
  distd (setup (.ldt ⟨0, 2, 5, ty, 0, 0, 0, d⟩) fun t => { t with c := [(2, k)], a := [(5, co)] })
theorem witness_tileChecks : [(CapReg.mk false 0, 0, 0), ({ cap512 with bits := mkCap 7 0 0x7F0 0 512 0 }, 0, 0), (cap512, 8, 0),
      ({ cap512 with bits := mkCap 7 0 0x7FF 0 512 1 }, 0, 0), (cap512, 0, 1), (cap512, 0x10000, 0), ({ cap512 with bits := mkCap 7 1 0x7FF 0 512 0 }, 0, 0)].map (fun x =>
        (faultOfStep (onDist x.1 x.2.1 x.2.2)).map (·.1)) = [some 5, some 4, some 3, some 9, some 9, some 9, some 7] ∧
    (faultOfStep (onDist cap512 0 0 1)).map (·.1) = some 6 ∧ (after (onDist cap512 0 0)).map (·.as.pc) = some 8 := by decide +kernel
/-- Every access form meets a fault, a MOVING object and a missing extent; CLD and CST an object without capabilities and a coded one. -/
abbrev accessForms : List (Instr × FmtM × Nat) :=
  [(.ld (fA 2), fA 2, 0), (.st (fA 2), fA 2, 0), (.cld fCld, fCld, capStore), (.cst fCst, fCst, capStore), (.ldt ⟨0, 2, 5, 0xC, 0, 0, 0, 0⟩, ⟨0, 2, 5, 0xC, 0, 0, 0, 0⟩, 0),
   (.stt ⟨0, 2, 5, 0xC, 0, 0, 0, 0⟩, ⟨0, 2, 5, 0xC, 0, 0, 0, 0⟩, 0), (.ldv fLdvF, fLdvF, versioned), (.acq ⟨6, 2, 5, 0xB, 1, 2, 0, 0⟩, ⟨6, 2, 5, 0xB, 1, 2, 0, 0⟩, 0),
   (.rel ⟨6, 2, 5, 0xE, 2, 3, 0, 0⟩, ⟨6, 2, 5, 0xE, 2, 3, 0, 0⟩, 0), (.amo ⟨6, 2, 5, 0xE, 0, 0, 0, 0⟩, ⟨6, 2, 5, 0xE, 0, 0, 0, 0⟩, 0),
   (.amoReduce ⟨6, 2, 5, 0xF, 0, 0, 23, 0⟩, ⟨6, 2, 5, 0xF, 0, 0, 23, 0⟩, 0), (.amofFadd ⟨6, 2, 5, 1, 0, 0, 0, 0⟩, ⟨6, 2, 5, 1, 0, 0, 0, 0⟩, 0),
   (.amofFmax ⟨6, 2, 5, 3, 0, 0, 1, 0⟩, ⟨6, 2, 5, 3, 0, 0, 1, 0⟩, 0), (.cas ⟨30, 2, 5, 0xF, 0, 0, 0, 0⟩, ⟨30, 2, 5, 0xF, 0, 0, 0, 0⟩, 0),
   (.casv ⟨30, 2, 5, 0xF, 0, 0, 0, 0⟩, ⟨30, 2, 5, 0xF, 0, 0, 0, 0⟩, versioned)]
abbrev readied (s : State) : State := modTask s c0 fun t => { t with wq := [1, 2, 3] }
theorem witness_access_forms : accessForms.all (fun x =>
    let at1 := fun (w0 ext : Nat) => readied (onObj w0 ext capO x.1)
    readyB x.1 (at1 (live x.2.2) mapped) && passes x.1 (at1 (live x.2.2) mapped) x.2.1 (fun _ _ => true) &&
    (faultOfStep (at1 (0x3001 * 2 ^ 48 + x.2.2) mapped)).map (·.1) == some 8 && isHeld (at1 (live x.2.2 + 2 ^ 62) mapped) .moving) = true ∧
    [Instr.cld fCld, .cst fCst].all (fun i => faultOfStep (onObj (live 0) mapped capO i) == some (5, 2) &&
      (faultOfStep (onObj (2 ^ 62 + 2 ^ 54 + 2 ^ 48 + capStore) mapped capO i)).map (·.1) == some 6) = true := by decide +kernel
/-- Without a mapping loads and returning atomics hold; stores, reductions and REL go to the side log, which has room for 64, and behind what stands there. -/
def logged (n : Nat) (s : State) : State := modTask s c0 fun t => { t with side := List.replicate n (side1 0x4000) }
def sideLen (s : State) : Option Nat := (after s).map (·.side.length)
theorem witness_unmapped : accessForms.all (fun x => let s := readied (onObj (live x.2.2) 0 capO x.1)
    let stores := match x.1 with | .st _ | .cst _ | .stt _ | .amoReduce _ | .rel _ => true | _ => false
    (match chkOf x.1 s x.2.1 with | some p => unmappedB p | none => false) &&
    (if stores then sideLen s == some 1 else isHeld s .extent)) = true ∧
    [63, 64].map (fun n => sideLen (logged n (onObj (live 0) 0 capO (.st (fA 2))))) = [some 64, some 64] ∧
    isHeld (logged 64 (onObj (live 0) 0 capO (.st (fA 2)))) .sideLog = true ∧ sideLen (logged 1 sSt) = some 2 ∧ isHeld (logged 1 (setup (.ld fLd8) (regs 0 0x4000 0))) .sidelogLoad = true := by
  decide +kernel

/-- What a release meets: a side log, a discarded store, a clash, unacknowledged stores at DIE and CLUSTER scope, nothing, and a refusal. -/
abbrev relAns (scope : Nat) (s : State) : Nat × Nat :=
  match releaseSteps s (me s) scope none with | .wait _ => (1, 0) | .fault _ f => (2, f.cls) | .done _ => (0, 0)
abbrev sT (f : Task → Task) : State := setup (.add fR) f
/-- Die 0's line holds an open word of another task beside the task's own unpublished one. -/
def clashing (s : State) : State := { s with l2 := s.l2.map fun x => (x.1, { x.2 with recs := x.2.recs ++ x.2.recs.map fun r => { r with task := 5, clus := 0 } }) }
theorem witness_releases : relAns 3 (sT fun t => { t with side := [side1 0] }) = (1, 0) ∧ relAns 3 (sT fun t => { t with discarded := [side1 0] }) = (2, 8) ∧
    relAns 3 (clashing (again (.st fSt) sSt)) = (2, 13) ∧ [1, 2, 3].map (fun n => relAns n (sT fun t => { t with unacked := [(1, 1)] })) = [(1, 0), (0, 0), (1, 0)] ∧
    [0, 1, 2, 3].map (fun n => relAns n (sT fun t => { t with refusals := [(3, 1, 7)] })) = [(0, 0), (0, 0), (0, 0), (2, 14)] ∧
    relAns 1 (sT fun t => { t with refusals := [(3, 17, 7)] }) = (2, 14) := by decide +kernel
/-- An unpublished store, published: its word stands in the line and its record is gone; at CLUSTER scope it is closed. -/
def recsOf (s : State) : List (Nat × Bool × Nat) := s.l2.flatMap fun x => x.2.recs.map fun r => (r.mask.toNat, r.closed == r.mask, lineGet x.2.data 0 8)
theorem witness_publish : (let s := again (.st fSt) sSt
    [0, 1].map (fun n => recsOf (publishAll s (whoOf (me sSt)) n)) = [[(3, false, 0)], [(3, true, 0)]] ∧
    recsOf (publishAll s (whoOf (me sSt)) 2) = [] ∧ l2Bytes 0 (publishAll s (whoOf (me sSt)) 2) = [77]) := by decide +kernel
/-- An acquire keeps the task's own words of a line and drops the others; at CLUSTER scope it drops none. -/
theorem witness_acquire : (let s := again (.st fSt) sSt
    [1, 2].map (fun n => (clusterAt (acquireInval s (whoOf (me sSt)) n) k0).l1.map fun x => x.2.valid) = [[-1], [3]]) := by decide +kernel
/-- The inputs of R236's table in FP32, then ordinary ones: 1.5 is a half, 1.25 none. -/
theorem witness_specialInputs : [0x7FC00000, 0x80000000, 0xFF800000, 0xBF800000, 0x40000000].map (decodeF 1) =
      [FVal.nan, .fin true 0 (-149), .inf true, .fin true 8388608 (-23), .fin false 8388608 (-22)] ∧
    unaryF 0x6D 1 .rne 0x40400000 = 0x41000000 ∧ unaryF 0x6E 1 .rne 0x41000000 = 0x40400000 ∧ unaryF 0x70 1 .rne 0xC0000000 = 0x80000000 ∧
    unaryF 0x71 1 .rne 0x3FC00000 = 0 := by decide +kernel
theorem witness_halves : Claims.IsInt 3 0 ∧ Claims.IsHalf 3 (-1) ∧ ¬ Claims.IsInt 5 (-2) ∧ ¬ Claims.IsHalf 5 (-2) := by
  unfold Claims.IsHalf Claims.IsInt; decide +kernel

/-! ### Failures and effects of the events that the statements above reach through helpers -/

/-- A crew with semaphores 0 to 3: a command that waits for, or signals, semaphore 9. -/
def fewSems (t : Task) : Task := { t with crew := { t.crew with lseq := 1, semlo := 0, semn := 4 } }
theorem witness_issue_semaphores : [Instr.cpyl ⟨6, 2, 4, 5, 1, 0, 9, 0, 0, 1⟩, .cpyl ⟨6, 2, 4, 5, 0, 1, 0, 9, 0, 0⟩, .cpyl ⟨6, 2, 4, 5, 1, 1, 3, 9, 0, 1⟩].all (fun i =>
    let s := modTask (eState i windowCap 0 0x4000 (32 * 2 ^ 24 + 64)) c0 fewSems
    readyB i s && faultI i s == some (3, 9)) = true := by decide +kernel
/-- The packet's granules at a home on another die are asked for; a LAUNCH that has held goes on behind those that it has read. -/
abbrev farLaunch : State := twoDies (withObj 7 (live capStore) 4096 (2 ^ 47 + mapped) (setup (.launch fLa) fun t => { t with c := [(2, windowCap), (4, capO)] }))
theorem witness_launch_far : readyB (.launch fLa) farLaunch = true ∧ isHeld farLaunch .remote = true ∧
    nextIs (exec (.launch fLa) farLaunch) (fun t => (pairAt t 0 1).flight.map (sortOf ·.body) == [2]) = true ∧
    (match (List.range 3).foldl (fun a i => a.bind fun t => granuleStep (me sLaunch) fLa t i) (some sLaunch) with
      | some t => (me t).t.as.got.length == 3 && readyB (.launch fLa) t &&
          nextIs (exec (.launch fLa) t) fun u => (partAt u fp).map (fun p => p.subs.length) == some 1
      | none => false) = true := by decide +kernel
/-- A completion that signals a semaphore and returns a result. -/
def finished : State := modEntry (tableRun (.kvunmap fE2) 0 1 0) qaeT ((queueAt (tableRun (.kvunmap fE2) 0 1 0) qaeT).map (·.serial)).head! fun e => { e with sv := true, ssem := 5 }
theorem witness_completion : (match queueAt finished qaeT with
    | e :: _ => let t := completeEntry finished qaeT e
        (queueAt t qaeT).isEmpty && semAt t k0 5 == 1 && (me finished).t.pendReg.length == 1 && (me t).t.pendReg.isEmpty && lkpD (me t).t.a 6 0 == 4
    | [] => false) = true := by decide +kernel
/-- A SEND to an object of its own die completes with its flag in one step. -/
theorem witness_send_flag : [Instr.send (fE 0), .send (fE 1)].map (fun i =>
    let s := issued i (eState i windowCap 0 (32 * 2 ^ 24) 0)
    (headOf s qle (·.st == .queued), nextIs (exec (.engineEntryStart qle) s) fun t => (queueAt t qle).isEmpty)) = [(true, true), (true, true)] := by decide +kernel
/-- A facet whose extent lies on a die that is not the partition's stops the entries. -/
theorem witness_reshard_stop : nextIs (exec (.reshdRendezvous fp 7) (physWrite (schedOf lay1 lay2 (sReshd lay2)) 0x200000 (bytesOf 8 (2 ^ 47 + mapped)))) (fun t =>
    headOf t qrs (fun e => e.st == .halted && e.stop == 8)) = true := by decide +kernel
/-- RESUME by launch: RESIDENCY has suspended a task of launch 5; another launch; another class. -/
abbrev byLaunch (fn : BitVec 3) : FmtS := ⟨6, 4, 0, 0, 0, fn, 0x800000⟩
theorem witness_resume_launch : [(Instr.resumeRetry (byLaunch 0), 16), (.resumeSkip (byLaunch 1), 16), (.resumeCont (byLaunch 2), 16), (.resumeKill (byLaunch 3), 16),
      (.resumePark (byLaunch 4), 16), (.resumeAbort (byLaunch 5), 16), (.resumeRetry (byLaunch 0), 3)].map (fun x =>
      let s := saveArea (victim x.2 (setup x.1 (regs (5 * 2 ^ 23) 0 0)))
      (readyB x.1 s, (residTasks s (me s) (5 * 2 ^ 23)).length, aReg s 6)) =
    [(true, 1, some 0), (true, 1, some 0), (true, 1, some 1), (true, 1, some 0), (true, 1, some 0), (true, 1, some 0), (true, 0, some 1)] := by decide +kernel
/-- .kill and .abort of a PARKED task: the image goes with its last task. -/
theorem witness_resume_parked : [Instr.resumeKill (fS 3), .resumeAbort (fS 5)].map (fun i =>
      let s := modSlab (parked i) sl0 fun b => { b with images := b.images.map fun im => { im with info := { lseq := 5 } } }
      (readyB i s, aReg s 6, nextIs (exec i s) fun t => (slabAt t sl0).images.isEmpty)) = [(true, some 0, true), (true, some 0, true)] := by decide +kernel
/-- A task that has ended, and whose entry halted then: every function. -/
def endedTask (stop : Nat) (i : Instr) : State :=
  setQueue (setup i (regs 77 0 0)) qce [{ ent1 with cmd := .cpyl fE, st := .halted, taskId := 77, stop := stop, lseq := 5 }]
theorem witness_resume_ended : (match findTask (endedTask 18 (.resumeCont (fS 2))) fp sl0 77 with | some (.ended _ n) => n == 5 | _ => false) = true ∧
    [(Instr.resumeRetry (fS 0), 8), (.resumeSkip (fS 1), 8), (.resumeCont (fS 2), 18), (.resumeCont (fS 2), 8), (.resumeKill (fS 3), 8), (.resumePark (fS 4), 8),
      (.resumeAbort (fS 5), 8)].map (fun x => (readyB x.1 (endedTask x.2 x.1), aReg (endedTask x.2 x.1) 6)) =
    [(true, some 0), (true, some 0), (true, some 0), (true, some 2), (true, some 0), (true, some 2), (true, some 0)] := by decide +kernel

/-- Launches 1 and 2 on one lode, in their order by class, time and LSEQ. -/
def two (c1 c2 r1 r2 : Nat) : State :=
  let s := withL [] [launch1 1 c1, { launch1 1 c2 with lseq := 2 }] 2 1
  modSlab s sl0 fun b => { b with buckets := [8, 8, 8], lode := b.lode.map fun e => { e with ready := some (if e.lseq = 1 then r1 else r2) } }
theorem witness_candidates : [(1, 0, 0, 0), (1, 1, 5, 4), (1, 1, 4, 4), (3, 1, 0, 9)].map (fun x =>
      (candidates (two x.1 x.2.1 x.2.2.1 x.2.2.2) sl0).map fun c => (c.l.lseq, c.cls)) =
    [[(2, 0), (1, 1)], [(2, 1), (1, 1)], [(1, 1), (2, 1)], [(2, 1), (1, 3)]] ∧
    (candidates (modSlab (two 1 0 0 0) sl0 fun b => { b with buckets := [1, 2, 8] }) sl0).map (fun c => (c.l.lseq, c.cls)) = [(1, 1), (2, 3)] := by decide +kernel
/-- The least load, then the lower number; and nothing that fits. -/
theorem witness_cluster : (let f := fun (s : State) => (candidates s sl0).head?.bind fun x => ownCluster s fp sl0 x.l x.crew
    [two 1 0 0 0, onlyCluster0 9 id (two 1 0 0 0), modCluster (modCore (two 1 0 0 0) ⟨0, 0⟩ fun k => { k with task := some (taskOf 9) }) ⟨0, 0⟩ fun k =>
      { k with crews := [crewOf 9 id] }].map f = [some ⟨0, 0⟩, some ⟨0, 0⟩, some ⟨0, 1⟩]) ∧ (partSlabs (two 1 0 0 0) fp).Nodup ∧
    bestCluster (onlyCluster0 9 id (sCand 4 0)) fp { lseq := 1, size := 4 } 4 (dieClusters (sCand 4 0) fp 0) = none := by decide +kernel
/-- A dispatch charges TOKENS for each task and ends the skipping. -/
theorem witness_dispatch : (let s := modSlab (two 1 0 0 0) sl0 fun b => { b with lode := b.lode.map fun e => { e with skipped := some 0 } }
    (dieSlabs s fp 0).contains sl0 && (slabAt s sl0).buckets.length == 3 &&
    nextIs (exec (.crewPlace sl0) s) fun t => (slabAt t sl0).buckets == [6, 8, 8] && (slabAt t sl0).lode.map (·.skipped) == [some 0, none]) = true := by decide +kernel
/-- Launch 1, with crews of four, fits nothing; launch 2, with crews of one, is placed behind it until launch 1 blocks. -/
def skipping (block : Bool) : State :=
  let s := onlyCluster0 9 id (withL [] [launch1 4 3, { launch1 1 3 with lseq := 2 }] 2 1)
  modSlab s sl0 fun b => { b with lode := b.lode.map fun e => { e with blocking := block && e.lseq == 1 } }
theorem witness_skipping : [false, true].map (fun b => (candidates (skipping b) sl0).map (fun x => (x.l.lseq, (placeCand (skipping b) fp sl0 x).isSome, contended (skipping b) fp sl0 x))) =
      [[(1, false, false), (2, true, false)], [(1, false, false), (2, true, false)]] ∧
    [false, true].map (fun b => match exec (.crewPlace sl0) (skipping b) with
      | .next t => ((slabAt t sl0).lode.map (·.skipped), (clusterAt t ⟨0, 0⟩).crews.length) | _ => ([], 9)) = [([some 65536, none], 2), ([some 65536, none], 1)] ∧
    (let l := coresident (launch1 1 3)
     let s := withL [] [{ l with strata := [(0, { owned := [0], crews := 2, left := 2 })] }] 1 1
     (candidates s sl0).any (fun x => (placeCand s fp sl0 x).isSome) && nextIs (exec (.crewPlace sl0) s) fun t => (dieClusters t fp 0).any fun c => !(clusterAt t c).crews.isEmpty) = true := by
  decide +kernel
/-- A kill and an abort of the task of launch 1 on core 0. -/
theorem witness_kill : partIs (sResid 0) (fun p => (lkp p.launches 1).bind (fun l => (lkp l.strata 0).map (·.left)) == some 2) = true ∧
    (let t := killTask (sResid 0) ⟨0, 0⟩
     (coreAt (sResid 0) ⟨0, 0⟩).task.isSome && (coreAt t ⟨0, 0⟩).task.isNone && partIs t fun p => (lkp p.launches 1).bind (fun l => (lkp l.strata 0).map (·.left)) == some 1) = true ∧
    [9, 7].map (fun st => (partAt (abortLaunch (modLaunch (sResid 0) fp 1 fun l => { l with status := 8 }) fp 1 st) fp).bind fun p => (lkp p.launches 1).map fun l => (l.status, l.ending)) =
      [some (9, true), some (8, true)] ∧
    (clusterAt (abortLaunch (modCluster (sResid 0) ⟨0, 0⟩ fun k => { k with reserved := some 1 }) fp 1 9) ⟨0, 0⟩).reserved = none := by decide +kernel
/-- Launches 1 and 2 block each other: each is reported, once. -/
def blocked : State :=
  let mk := fun (n : BitVec 32) => { launch1 4 3 with lseq := n, watch := [(0, 0)], strata := [(0, { owned := [0], crews := 2, nextCrew := 1, left := 2 })] }
  let s := onlyCluster0 1 id (withL [] [mk 1, mk 2] 2 4)
  modCluster (modCore s ⟨0, 1⟩ fun k => { k with task := some { taskOf 2 with taskId := 78 } }) ⟨0, 0⟩ fun k =>
    { k with crews := k.crews ++ [{ info := { lseq := 2 }, pid := fp, cores := [1], tids := [78], unstarted := [] }] }
theorem witness_blocked : partIs blocked (fun p => (residNow blocked fp p 0).map (·.lseq) == [1, 2]) = true ∧
    nextIs (exec (.residency fp 0 1) blocked) (fun t => partIs t (fun p => (residNow t fp p 0).map (·.lseq) == [1, 2]) &&
      nextIs (exec (.residency fp 0 1) t) (fun u => u == t) &&
      nextIs (exec (.residency fp 0 2) t) fun u => [0, 1].all fun k => (coreAt u ⟨0, k⟩).task.any fun x => x.susp.any fun r => r.cls == 16) = true := by decide +kernel

/-- BUSY for an earlier packet while one is awaited; an ACK whose buffer is full; the numbered answers are the next in order. -/
theorem witness_answers : (match execBusy 1 0 (answered bBusy bWr (fun q => { q with resendAt := some (6, 200) }) sNet) with | .next t => (pairAt t 0 1).resendAt | _ => none) = some (4, 200) ∧
    (match execBusy 1 0 (answered bBusy bWr (fun q => { q with resendAt := some (2, 200) }) sNet) with | .next t => (pairAt t 0 1).resendAt | _ => none) = some (2, 200) ∧
    (let s := modDie (answered bAck bWr id sNet) 0 fun d => { d with full := [typeOf bAck] }
     bufferFull s 1 0 bAck && nextIs (execAck 1 0 s) fun t => (pairAt t 1 0).flight.map (·.circ) == [true] && (pairAt t 0 1).kept.length == 1) = true ∧
    [bRef true, bRefE, .demand (some fp) 65, .grant (some fp) 5].all (fun b => let s := answered b bWr id sNet
      authentic s 1 0 (packet 0 b) && (packet 0 b).seq == (pairAt s 1 0).expect && !bufferFull s 1 0 b && !malformed (packet 0 b)) = true := by decide +kernel
/-- A malformed LAUNCH completes with its packet's LTAG. -/
theorem witness_ltag : cmdOk (cmd 1 1) = false ∧ (match execUnknownOp 3 (headerOnly (cmd 1 1) + BitVec.ofNat 2304 (9 * 2 ^ (256 + 960))) hS with
    | .next t => (qpAt t 3).cq | _ => []) = [completion 1 0xFF 5 0 9 0] := by decide +kernel
/-- What a PACT on the management port answers: a shape, a busy slab, homed data, a taken slab, a wrap, queue pairs, a partition that is not there. -/
def answersOf (h : BitVec 256) (s : State) : List MgmtAns := (pkgAt (pact (mgmt s) none 0 h) 0).answers
def statusOf (l : List MgmtAns) : List Nat := l.map fun | .pact n _ => n | _ => 99
theorem witness_pactRefusals : statusOf (answersOf (pactH 1 0 9 0) hS) = [1] ∧ statusOf (answersOf (pactH 4 0 1 0) (acting 4 1 [])) = [2] ∧
    statusOf (answersOf (pactH 1 0 9 1) (acting 4 1 [])) = [2] ∧ statusOf (answersOf (pactH 2 0 1 2) sObj) = [3] ∧ statusOf (answersOf (pactH 1 0 9 1) hS) = [4] ∧
    statusOf (answersOf (pactH 3 0 1 2) hS) = [4] ∧ statusOf (answersOf (pactH 5 0 9 0) hS) = [7] ∧ statusOf (answersOf (pactH 1 0 0 4) hS) = [7] := by decide +kernel
theorem witness_pactMore : statusOf (answersOf (pactH 1 0 9 4 + 63 * 2 ^ 115) (modQp hS 5 fun q => { q with pid := fp })) = [6] ∧
    (let s := modQp hS 3 fun q => { q with admin := true }
     openB s 3 && (match execPactCreate (some 3) 0 (pactH 1 0 9 4) s with
       | .next t => (partAt t 9).bind (·.action.map fun a => (a.act, a.step, a.qp)) | _ => none) == some (1, 1, some 3)) = true := by decide +kernel
/-- A core reset of slab 0 ends the launch whose task stands there; a scrub clears its memory. -/
theorem witness_reset : (let t := coreReset (sResid 0) sl0
      (((coreAt t ⟨0, 0⟩).task.isNone, (partAt t fp).bind fun p => (lkp p.launches 1).map (·.status)), (slabAt t sl0).queues.isEmpty, t.mem == (sResid 0).mem)) =
        ((true, some 10), true, true) ∧
    (let t := scrubSlab (physWrite sObj 0x4000 [7]) sl0
     (memByte (physWrite sObj 0x4000 [7]).mem 0x4000, memByte t.mem 0x4000, (slabAt t sl0).pid == fp, (slabAt t sl0).images.isEmpty)) = (7, 0, true, true) := by decide +kernel
/-- A boot whose links go on training until a later turn; a sound other copy; a clock that a package of the chain needs. -/
theorem witness_bootLater : (match step { hS with agenda := [.training 0 0 0 0 true] } with
    | .next t => (match execPackageReset 0 3 0 t with
      | .next u => ((pkgAt u 0).fwstate, (pkgAt u 0).booting, (dieAt u 0).live, match step { u with agenda := [.boot 0] } with
        | .next v => ((pkgAt v 0).fwstate, (pkgAt v 0).booting, (dieAt v 0).live) | _ => (9, true, false))
      | _ => (9, false, true, 9, true, false)) | _ => (8, false, true, 9, true, false)) = (1, true, false, 0, false, true) ∧
    (match step { modPkg hS 0 (fun k => { k with fwstate := 1, active := .empty, staging := .shipped }) with agenda := [.boot 0] } with
      | .next v => ((pkgAt v 0).fwstate, (pkgAt v 0).active == .shipped, (pkgAt v 0).selector, (dieAt v 0).live) | _ => (9, false, false, false)) = (0, true, true, true) ∧
    mhzOf (execPowerCapTick 0 0 (modPkg hS 0 fun k => { k with celsius := 106, ownMhz := 1000 })) = 1000 ∧
    mhzOf (execPowerCapTick 0 0 (modPkg hS 0 fun k => { k with celsius := 105, ownMhz := 1000 })) = 1050 ∧
    (let s := modPkg (modPart hS fp fun p => { p with slabs := [sl0, ⟨2, 0⟩, ⟨4, 0⟩] }) 4 fun k => { k with ownMhz := 700 }
     (clockFor s 0, sharePart s 0 2, [700, 1200].map fun m => mhzOf (execClockReport 0 2 m s))) = (700, true, [700, 1200]) := by decide +kernel

/-! ### Results that the spec works out (R46, R48 to R50, R186 and their tables) -/

def aOf (i : Instr) (x y : W64) : Option W64 := aReg (setup i (regs x y 0)) 6
abbrev fRt (ty : BitVec 4) (fn : BitVec 8 := 0) : FmtR := ⟨6, 4, 5, 0, fn, ty, 0⟩
theorem test_add : aOf (.add (fRt 0xC)) 200 100 = some 0x2C ∧ aOf (.add (fRt 8)) 100 100 = some 0xFFFFFFFFFFFFFFC8 := by decide +kernel
theorem test_div : aOf (.div (fRt 0xA)) 0x80000000 (-1) = some 0xFFFFFFFF80000000 ∧ aOf (.rem (fRt 0xB)) (-7) 2 = some (-1) ∧
    aOf (.divz (fRt 0xF)) 5 0 = some 0xFFFFFFFFFFFFFFFF := by decide +kernel
theorem test_mulh : aOf (.mulh (fRt 0xB)) (-1) 1 = some (-1) ∧ aOf (.mulhz (fRt 0xF)) 0xFFFFFFFFFFFFFFFF 2 = some 1 := by decide +kernel
theorem test_shift : aOf (.shl (fRt 0xA)) 1 33 = some 2 ∧ aOf (.sra (fRt 9)) 0x8000 4 = some 0xFFFFFFFFFFFFF800 := by decide +kernel
theorem test_clz : aOf (.clz ⟨6, 4, 0, 0, 0, 0xE, 0⟩) 0 9 = some 32 := by decide +kernel
theorem test_ext : aOf (.ext (fRt 8 4)) 0x80FF 8 = some 0xFFFFFFFFFFFFFF80 ∧ aOf (.ext (fRt 0xD 4)) 0xF000000000000000 60 = some 0xF := by decide +kernel
/-- Lane 0 of VCVT from `src` to `dst`. -/
def cvt (src dst : BitVec 4) (rm : BitVec 3) (x : Nat) : Option Nat :=
  vLane (setup (.vcvt ⟨6, 4, 0, 0, 4, 0, dst, rm, 0, src.setWidth 12⟩) fun t => { t with v := [(4, BitVec.ofNat 1024 x)] }) 6 (fmtWidth dst) 0
theorem test_convert : [cvt 1 4 2 0x43E08000, cvt 1 4 0 0x7F800000, cvt 1 4 0 0xFF800000] = [some 0x7E, some 0x7F, some 0x7F] := by decide +kernel
theorem test_convertSmall : [cvt 1 5 0 0xFF800000, cvt 1 4 0 0x3A800000, cvt 1 3 0 0x00080000] = [some 0xFC, some 0, some 0] := by decide +kernel
theorem test_convertInt : [cvt 1 0xA 0 0x7FC00000, cvt 1 8 0 0x40200000, cvt 1 8 0 0x40600000, cvt 1 8 0 0xC348B333] =
    [some 0, some 2, some 4, some 0x80] := by decide +kernel
theorem test_generator : [1, 2, 3].map (fun n => iterGen n 1) = [0x00042021, 0x04080601, 0x9DCCA8C5] := by decide +kernel
/-- The third SR conversion of the spec's example: both elements round up. -/
def srStep (g : BitVec 32) : State :=
  setup (.vcvt ⟨6, 4, 0, 0, 4, 0, 4, 4, 0, 2⟩) fun t => { t with v := [(4, 0x3C663C40)], gen := [(0, g)] }
theorem test_stochastic : [1, 0x00042021, 0x04080601].map (fun g => (vLane (srStep g) 6 8 0, vLane (srStep g) 6 8 1)) =
    [(some 0x38, some 0x38), (some 0x38, some 0x38), (some 0x39, some 0x39)] := by decide +kernel
/-- The spec's scale group: inputs 0.3, −0.9, 1.2, 0.02, 2.1, −3.3, 0, 0.7 with band scale 0.5. -/
def group8 : Nat := [0x3E99999A, 0xBF666666, 0x3F99999A, 0x3CA3D70A, 0x40066666, 0xC0533333, 0, 0x3F333333].foldr (fun x a => x + 2 ^ 32 * a) 0
def sGroup : State := setup (.vquant ⟨6, 4, 5, 0, 6, 0, 1, 0, 0, 0⟩) fun t => { t with v := [(4, BitVec.ofNat 1024 group8)], x := [(5, 0x3F00)] }
theorem test_vquant : vLane sGroup 6 32 0 = some 0x20F604B1 ∧ vLane sGroup 7 8 0 = some 0x64 := by decide +kernel
/-- The spec's coded block at R = 16: v[0] = 1 + 2^−20, v[15] = 1.5, every other value 1. -/
def block16 : List Nat := [0x3FF0000100000000] ++ List.replicate 14 0x3FF0000000000000 ++ [0x3FF8000000000000]
def code16 : List (Nat × Nat) := [(0, 0xFF), (1, 7), (7, 0x10), (9, 8), (11, 0x88), (12, 0xC0), (13, 0xE0), (14, 0x0C), (15, 0x70), (17, 0x10)]
def code32 : List (Nat × Nat) := code16 ++ [(48, 0x30), (49, 1), (50, 0x30), (51, 0xE0), (52, 3), (53, 0x60), (55, 0x10)]
def bytesSum (l : List (Nat × Nat)) : Nat := l.foldl (fun a x => a + x.2 * 2 ^ (8 * x.1)) 0
theorem test_encode : encodeBlock 16 block16 = (bytesSum code16, some (-20)) ∧ encodeBlock 32 block16 = (bytesSum code32, none) := by decide +kernel
theorem test_decodeBlock : decodeBlock 16 (bytesSum code16) = List.replicate 15 0x3FF0000000000000 ++ [0x3FF8000000000000] ∧
    decodeBlock 32 (bytesSum code32) = block16 := by decide +kernel

end Sys2Proof.Tests
end

/-! The bytes of an encoded instruction and the decoder (R3, R155, R157 to R165, R169, R173). -/

namespace Sys2Proof.Proofs
open Sys2Proof.Machine Sys2Proof.Claims

theorem wordOfBytes_cons (x : Byte) (r : List Byte) : wordOfBytes (x :: r) = wordOfBytes r <<< 8 ||| x.zeroExtend 64 := rfl

/-- Byte `k` of a list stands at bits 8k + 7 : 8k of its word (R3). -/
theorem getLsbD_wordOfBytes (b : List Byte) (i : Nat) (hi : i < 64) :
    (wordOfBytes b).getLsbD i = (b.getD (i / 8) 0).getLsbD (i % 8) := by
  induction b generalizing i with
  | nil => simp [wordOfBytes]
  | cons x r ih =>
    simp only [wordOfBytes_cons, BitVec.truncate_eq_setWidth, BitVec.getLsbD_or, BitVec.getLsbD_shiftLeft, BitVec.getLsbD_setWidth, hi]
    by_cases h8 : i < 8
    · simp [h8, Nat.div_eq_of_lt h8, Nat.mod_eq_of_lt h8]
    · have hdiv : i / 8 = (i - 8) / 8 + 1 := by omega
      have hmod : i % 8 = (i - 8) % 8 := by omega
      rw [ih (i - 8) (by omega), x.getLsbD_of_ge i (by omega), hdiv, hmod]
      simp [h8]

@[simp] theorem length_bytesOfWord (w : W64) : (bytesOfWord w).length = 8 := by simp [bytesOfWord]

/-- The eight bytes of a word make that word. -/
@[simp] theorem wordOfBytes_bytesOfWord (w : W64) : wordOfBytes (bytesOfWord w) = w := by
  refine BitVec.eq_of_getLsbD_eq fun i hi => ?_
  have hb : i / 8 < 8 := by omega
  rw [getLsbD_wordOfBytes _ _ hi]
  simp [bytesOfWord, hb, Nat.mod_lt, Nat.div_add_mod]

theorem decodeBytes_append {b rest : List Byte} {i : Instr} (hb : b.length = 8) (hd : decode (wordOfBytes b) = .ok i) :
    decodeBytes (b ++ rest) = .ok (i, rest) := by
  simp [decodeBytes, hb, List.take_left' hb, List.drop_left' hb, hd]

open Laws.Encoding in
/-- The word of a well-formed form decodes to it (R173), form by form; an event has no word. -/
theorem decode_of_encode (i : Instr) : Statement i := by
  cases i with
  | add f => exact add f | addi f => exact addi f | sub f => exact sub f | mul f => exact mul f
  | mulh f => exact mulh f | mulhz f => exact mulhz f | div f => exact div f | divz f => exact divz f
  | rem f => exact rem f | remz f => exact remz f | and f => exact and f | andi f => exact andi f
  | or f => exact or f | ori f => exact ori f | xor f => exact xor f | xori f => exact xori f | shl f => exact shl f
  | shli f => exact shli f | shr f => exact shr f | shri f => exact shri f | sra f => exact sra f
  | srai f => exact srai f | min f => exact min f | max f => exact max f | minz f => exact minz f
  | maxz f => exact maxz f | slt f => exact slt f | sltz f => exact sltz f | seq f => exact seq f
  | sel f => exact sel f | clz f => exact clz f | ctz f => exact ctz f | popc f => exact popc f
  | mov f => exact mov f | ext f => exact ext f | li f => exact li f | lih f => exact lih f | bc f => exact bc f
  | j f => exact j f | call f => exact call f | ret f => exact ret f | loopb f => exact loopb f
  | loope f => exact loope f | bqp f => exact bqp f | endS f => exact endS f | qpush f => exact qpush f
  | qpop f => exact qpop f | qpeek f => exact qpeek f | qcnt f => exact qcnt f | bqpush f => exact bqpush f
  | vpopq f => exact vpopq f | vpushq f => exact vpushq f | cld f => exact cld f | cst f => exact cst f
  | cnarrow f => exact cnarrow f | crights f => exact crights f | coff f => exact coff f | cget f => exact cget f
  | clgen f => exact clgen f | ld f => exact ld f | st f => exact st f | ldt f => exact ldt f | stt f => exact stt f
  | pfL1 f => exact pfL1 f | pfL2 f => exact pfL2 f | cboClean f => exact cboClean f | cboInval f => exact cboInval f
  | cboFlush f => exact cboFlush f | otqAttr f => exact otqAttr f | otqCnt f => exact otqCnt f
  | otqDims f => exact otqDims f | otqLayout f => exact otqLayout f | otqPlanes f => exact otqPlanes f
  | otqExt f => exact otqExt f | ldv f => exact ldv f | vals f => exact vals f | amo f => exact amo f
  | amoReduce f => exact amoReduce f | amofFadd f => exact amofFadd f | amofFmax f => exact amofFmax f
  | cas f => exact cas f | casv f => exact casv f | fence f => exact fence f | acq f => exact acq f
  | rel f => exact rel f | swait f => exact swait f | swaitTake f => exact swaitTake f | ssig f => exact ssig f
  | sadd f => exact sadd f | bara f => exact bara f | barw f => exact barw f | evpop f => exact evpop f
  | evpopPoll f => exact evpopPoll f | vadd f => exact vadd f | vsub f => exact vsub f | vmul f => exact vmul f
  | vfma f => exact vfma f | vfms f => exact vfms f | vnfma f => exact vnfma f | vmin f => exact vmin f
  | vmax f => exact vmax f | vabs f => exact vabs f | vneg f => exact vneg f | vrcp f => exact vrcp f
  | vrsq f => exact vrsq f | vsqrt f => exact vsqrt f | vexp2 f => exact vexp2 f | vlog2 f => exact vlog2 f
  | vtanh f => exact vtanh f | vsin f => exact vsin f | vcos f => exact vcos f | vcvt f => exact vcvt f
  | vscale f => exact vscale f | vscaleVec f => exact vscaleVec f | vseed f => exact vseed f | vcmp f => exact vcmp f
  | vsel f => exact vsel f | vand f => exact vand f | vor f => exact vor f | vxor f => exact vxor f
  | vnot f => exact vnot f | vshl f => exact vshl f | vshr f => exact vshr f | vsra f => exact vsra f
  | viadd f => exact viadd f | visub f => exact visub f | vimul f => exact vimul f | vimin f => exact vimin f
  | vimax f => exact vimax f | vred f => exact vred f | vperm f => exact vperm f | vbcast f => exact vbcast f
  | vbcastLane f => exact vbcastLane f | vins f => exact vins f | vext f => exact vext f | vmov f => exact vmov f
  | vmovP f => exact vmovP f | vmovV f => exact vmovV f | vlds f => exact vlds f | vldsFifo f => exact vldsFifo f
  | vsts f => exact vsts f | vstsFifo f => exact vstsFifo f | vldsx f => exact vldsx f | vsmax f => exact vsmax f
  | vmerge f => exact vmerge f | vquant f => exact vquant f | vdeq f => exact vdeq f | mxlease f => exact mxlease f
  | mxfree f => exact mxfree f | mxmul f => exact mxmul f | mxmulc f => exact mxmulc f | mxzero f => exact mxzero f
  | mxzeroBlk f => exact mxzeroBlk f | mxrd f => exact mxrd f | mxrdBand f => exact mxrdBand f
  | mxwr f => exact mxwr f | tld f => exact tld f | tst f => exact tst f | tsl f => exact tsl f
  | ttran f => exact ttran f | cpy f => exact cpy f | cpySt f => exact cpySt f | cpyl f => exact cpyl f
  | cpylSt f => exact cpylSt f | cpylOo f => exact cpylOo f | gath f => exact gath f | scat f => exact scat f
  | halo f => exact halo f | reshd f => exact reshd f | reshdInst f => exact reshdInst f | send f => exact send f
  | sendt f => exact sendt f | mcast f => exact mcast f | recvadd f => exact recvadd f | attn f => exact attn f
  | attnc f => exact attnc f | kvmap f => exact kvmap f | kvmapLen f => exact kvmapLen f
  | kvunmap f => exact kvunmap f | cursRd f => exact cursRd f | cursPlay f => exact cursPlay f
  | cursGen f => exact cursGen f | cursInit f => exact cursInit f | cursFree f => exact cursFree f
  | cursRdc f => exact cursRdc f | trunc f => exact trunc f | commit f => exact commit f
  | commitSnap f => exact commitSnap f | sinpop f => exact sinpop f | launch f => exact launch f
  | csrrSysFlstat f => exact csrrSysFlstat f | csrr f => exact csrr f | csrwSysCause f => exact csrwSysCause f
  | csrwSysPrio f => exact csrwSysPrio f | csrwSysSave f => exact csrwSysSave f | csrwSysFq f => exact csrwSysFq f
  | csrwSysFlog f => exact csrwSysFlog f | csrw f => exact csrw f | trap f => exact trap f
  | resumeRetry f => exact resumeRetry f | resumeSkip f => exact resumeSkip f | resumeCont f => exact resumeCont f
  | resumeKill f => exact resumeKill f | resumePark f => exact resumePark f | resumeAbort f => exact resumeAbort f
  | featTest f => exact featTest f | featReq f => exact featReq f | otinvExt f => exact otinvExt f
  | otinvObj f => exact otinvObj f | otinvAll f => exact otinvAll f | btinvAll f => exact btinvAll f
  | btinvSeq f => exact btinvSeq f | idle f => exact idle f | yield f => exact yield f | remain f => exact remain f
  | cfgbankCache f => exact cfgbankCache f | cfgbankScratch f => exact cfgbankScratch f
  | cfgbankFifo f => exact cfgbankFifo f
  | _ => exact fun _ _ h => nomatch h

/-- Settles O4: a word is made again from its eight bytes, and the word of each form decodes to the form. -/
theorem encodedBytesDecodeBack : Obligations.EncodedBytesDecodeBack := by
  intro i w rest hwf he
  have hd : decode (wordOfBytes (bytesOfWord w)) = .ok i := by
    rw [wordOfBytes_bytesOfWord]
    exact decode_of_encode i w hwf he
  exact decodeBytes_append (length_bytesOfWord w) hd

end Sys2Proof.Proofs

/-! Prefetch, cache forms and object queries whose checks pass (R213, R214). -/

namespace Sys2Proof.Proofs
open Sys2Proof.Machine Sys2Proof.Claims

section Prefetch
variable {s s1 : State} {h : Here} {f : FmtM} {r : Res}

/-- The L1 after a prefetch: the filled line, but for the words of `gone`, of which it has what `had` held of them. -/
def prefetched (s : State) (h : Here) (r : Res) (had : L1Line) : State :=
  let c := CoreId.cluster h.core
  let l := homeLine s r
  let gone := flying s c r.home.die r.key (fun _ => true) &&& ~~~ had.valid
  mapL1 (l1Fill s c r (viewFor (whoOf h) l) (tagsFor (whoOf h) l)) c fun q y =>
    if q = r.key then { y with valid := y.valid &&& ~~~ gone, bytes := had.bytes &&& wordBytes gone } else y

/-- PF .l1 into a cluster that holds the line in an open bank. -/
theorem exec_pfL1_held {y : L1Line} (hr : Ready (.pfL1 f) s h)
    (hc : tCheck s h f { rights := 1, n := 256, align := 256 } = (s1, .ok r))
    (hs : refusesFrom s1 h.core.die r.home r.pa = none)
    (hx : l1Find (clusterAt s1 (CoreId.cluster h.core)) r.key = some y)
    (hb : (bankAt (clusterAt s1 (CoreId.cluster h.core)) y.bank).transit = none) :
    exec (.pfL1 f) s = .next (retire h (prefetched (touchExtent (bring s1 r) (whoOf h) r) h r y)) := by
  refine (onStrand_ready hr _).trans ?_
  simp [rLD, hc, hs, hx, hb, prefetched]

/-- PF .l1 into a cluster that does not hold the line and has a cache bank. -/
theorem exec_pfL1_absent (hr : Ready (.pfL1 f) s h)
    (hc : tCheck s h f { rights := 1, n := 256, align := 256 } = (s1, .ok r))
    (hs : refusesFrom s1 h.core.die r.home r.pa = none)
    (hx : l1Find (clusterAt s1 (CoreId.cluster h.core)) r.key = none)
    (hb : cacheBanks (clusterAt s1 (CoreId.cluster h.core)) ≠ []) :
    exec (.pfL1 f) s = .next (retire h (prefetched (touchExtent (bring s1 r) (whoOf h) r) h r { home := r.home })) := by
  refine (onStrand_ready hr _).trans ?_
  simp [rLD, hc, hs, hx, hb, prefetched]

theorem exec_pfL2_served (hr : Ready (.pfL2 f) s h)
    (hc : tCheck s h f { rights := 1, n := 256, align := 256 } = (s1, .ok r))
    (hs : refusesFrom s1 h.core.die r.home r.pa = none) :
    exec (.pfL2 f) s = .next (retire h (touchExtent (bring s1 r) (whoOf h) r)) := by
  refine (onStrand_ready hr _).trans ?_
  simp [rLD, hc, hs]

/-- A prefetch whose check fails, or that the home does not serve, has no effect but to go on. -/
theorem exec_pfL1_unserved {ck : Chk} (hr : Ready (.pfL1 f) s h)
    (hc : tCheck s h f { rights := 1, n := 256, align := 256 } = (s1, ck))
    (hs : ∀ q, ck = .ok q → refusesFrom s1 h.core.die q.home q.pa ≠ none) :
    exec (.pfL1 f) s = .next (retire h s) := by
  refine (onStrand_ready hr _).trans ?_
  cases ck with
  | ok q => simp [rLD, hc, Option.isSome_iff_ne_none.2 (hs q rfl)]
  | fault _ | moving | unmapped _ => simp [rLD, hc]

theorem exec_pfL2_unserved {ck : Chk} (hr : Ready (.pfL2 f) s h)
    (hc : tCheck s h f { rights := 1, n := 256, align := 256 } = (s1, ck))
    (hs : ∀ q, ck = .ok q → refusesFrom s1 h.core.die q.home q.pa ≠ none) :
    exec (.pfL2 f) s = .next (retire h s) := by
  refine (onStrand_ready hr _).trans ?_
  cases ck with
  | ok q => simp [rLD, hc, Option.isSome_iff_ne_none.2 (hs q rfl)]
  | fault _ | moving | unmapped _ => simp [rLD, hc]

/-- Going on with no effect: the strand's program counter is all that changes. -/
theorem goes_of_retire {i : Instr} (hh : here s = some h) (he : exec i s = .next (retire h s)) : Goes i s h (pcOf h + 8) h.t :=
  ⟨_, he, modTask_id s hh _⟩

end Prefetch

section CacheOps
variable {s s1 : State} {h : Here} {f : FmtM} {r : Res} {g : State → Res → State}

theorem exec_cboClean (hr : Ready (.cboClean f) s h) :
    exec (.cboClean f) s = .next (cbo s h f fun u q => cleanLine u h q) := onStrand_ready hr _
theorem exec_cboInval (hr : Ready (.cboInval f) s h) :
    exec (.cboInval f) s = .next (cbo s h f fun u q => invalLine u h q) := onStrand_ready hr _
theorem exec_cboFlush (hr : Ready (.cboFlush f) s h) :
    exec (.cboFlush f) s = .next (cbo s h f fun u q => invalLine (cleanLine u h q) h q) := onStrand_ready hr _

/-- The three cache forms are cache operations. -/
theorem exec_eq_cbo {i : Instr} (hi : i ∈ [Instr.cboClean f, .cboInval f, .cboFlush f]) (hr : Ready i s h) :
    ∃ g, exec i s = .next (cbo s h f g) := by
  simp only [List.mem_cons, List.not_mem_nil, or_false] at hi
  rcases hi with rfl | rfl | rfl
  · exact ⟨_, exec_cboClean hr⟩
  · exact ⟨_, exec_cboInval hr⟩
  · exact ⟨_, exec_cboFlush hr⟩

theorem cbo_unmapped (hc : tCheck s h f { rights := 2, n := 256, align := 256 } = (s1, .unmapped r)) :
    cbo s h f g = retire h s1 := by
  simp [cbo, rST, hc]

theorem cbo_behindStores (hc : tCheck s h f { rights := 2, n := 256, align := 256 } = (s1, .ok r))
    (hb : behindStores h.t r.home.die h.core.die = true) : cbo s h f g = hold h .remote s1 := by
  simp [cbo, rST, hc, hb]

theorem cbo_unserved (hc : tCheck s h f { rights := 2, n := 256, align := 256 } = (s1, .ok r))
    (hb : behindStores h.t r.home.die h.core.die = false) (hs : refusesFrom s1 h.core.die r.home r.pa ≠ none) :
    cbo s h f g = retire h s1 := by
  simp [cbo, rST, hc, hb, Option.isSome_iff_ne_none.2 hs]

theorem cbo_served (hc : tCheck s h f { rights := 2, n := 256, align := 256 } = (s1, .ok r))
    (hb : behindStores h.t r.home.die h.core.die = false) (hs : refusesFrom s1 h.core.die r.home r.pa = none) :
    cbo s h f g = retire h (touchExtent (g s1 r) (whoOf h) r) := by
  simp [cbo, rST, hc, hb, hs]

end CacheOps

section Query
variable {s : State} {h : Here} {f : FmtM} {k : CapReg → Int → TEntry → State}

/-- The capability of an object query admits it: checks 1 to 3 of R74 with any one right (R214). -/
def MayQuery (h : Here) (f : FmtM) : Prop :=
  (rdC h.t f.sa).tag = true ∧ capSealed (rdC h.t f.sa) = false ∧ (capOid (rdC h.t f.sa) ≠ 0 ∨ isSup h.t = true) ∧
    capRights (rdC h.t f.sa) % 2 ^ 11 ≠ 0

/-- The facet die whose copy an object query reads (R75). -/
def queryFacet (s : State) (h : Here) (f : FmtM) : DieId :=
  if wDist (walk s h.t.pid h.core.die ⟨capOid (rdC h.t f.sa), 0, (mAddr s h f).toNat / 2 ^ 21⟩).word0 then h.core.die else 0

/-- The entry that an object query reads. -/
def queryEntry (s : State) (h : Here) (f : FmtM) : TEntry :=
  walk s h.t.pid h.core.die ⟨capOid (rdC h.t f.sa), queryFacet s h f, (mAddr s h f).toNat / 2 ^ 21⟩

/-- An admitted query takes EXTENT on an object of STATE 0 or 3 and else goes on with the entry (R214). -/
theorem otq_of_mayQuery (hm : MayQuery h f) :
    otq s h f k =
      if wState (queryEntry s h f).word0 = 0 ∨ wState (queryEntry s h f).word0 = 3 then
        takeFault s h 8 (BitVec.ofInt 64 (mAddr s h f)) (BitVec.ofNat 64 ((mAddr s h f).toNat / 2 ^ 21))
          ((queryFacet s h f).zeroExtend 64) (capOid (rdC h.t f.sa))
      else k (rdC h.t f.sa) (mAddr s h f) (queryEntry s h f) := by
  obtain ⟨htag, hseal, hoid, hright⟩ := hm
  have hphys : (capSealed (rdC h.t f.sa) || (capOid (rdC h.t f.sa) == 0 && !isSup h.t)) = false := by
    rcases hoid with ho | ho
    · rw [hseal, beq_eq_false_iff_ne.2 ho]; rfl
    · rw [hseal, ho, Bool.not_true, Bool.and_false]; rfl
  simp only [otq, htag, hphys, hright]
  rfl

theorem otq_live (hm : MayQuery h f) (hw : wState (queryEntry s h f).word0 = 1 ∨ wState (queryEntry s h f).word0 = 2) :
    otq s h f k = k (rdC h.t f.sa) (mAddr s h f) (queryEntry s h f) := by
  rw [otq_of_mayQuery hm, if_neg (by omega)]

theorem otq_free (hm : MayQuery h f) (hw : wState (queryEntry s h f).word0 = 0 ∨ wState (queryEntry s h f).word0 = 3) :
    otq s h f k = takeFault s h 8 (BitVec.ofInt 64 (mAddr s h f)) (BitVec.ofNat 64 ((mAddr s h f).toNat / 2 ^ 21))
      ((queryFacet s h f).zeroExtend 64) (capOid (rdC h.t f.sa)) := by
  rw [otq_of_mayQuery hm, if_pos hw]

/-- The counters' first word: ENCODED, and MAXLOSS, which is −128 while LOSSY is 0 (R63, R70). -/
theorem cntWord0_eq (a b : W64) : cntWord0 a b =
    BitVec.ofNat 64 (a.toNat % 2 ^ 48 + (if b.toNat % 2 ^ 48 = 0 then 0x80 else a.toNat / 2 ^ 56) * 2 ^ 56) := by
  have hlow : bitsN a 0 48 = a.toNat % 2 ^ 48 := by simp [bitsN]
  have hbyte : a.toNat / 2 ^ 56 < 2 ^ 8 := by omega
  have hloss : wrapN 8 (maxLoss a.toNat b.toNat) = if b.toNat % 2 ^ 48 = 0 then 0x80 else a.toNat / 2 ^ 56 := by
    unfold maxLoss
    split
    · rfl
    · simp only [wrapN, readInt]
      split <;> omega
  rw [cntWord0, hlow, hloss]

/-- A form that queries a LIVE or MOVING object goes on with what its capability and the entry say. -/
theorem onStrand_otq_live {i : Instr} (hr : Ready i s h) (hm : MayQuery h f)
    (hw : wState (queryEntry s h f).word0 = 1 ∨ wState (queryEntry s h f).word0 = 2)
    {k : Here → CapReg → Int → TEntry → State} :
    onStrand i s (fun h => otq s h f (k h)) = .next (k h (rdC h.t f.sa) (mAddr s h f) (queryEntry s h f)) :=
  (onStrand_ready hr _).trans (congrArg _ (otq_live hm hw))

/-- The six query forms are queries. -/
theorem exec_eq_otq {i : Instr} (hi : i ∈ [Instr.otqAttr f, .otqDims f, .otqCnt f, .otqLayout f, .otqPlanes f, .otqExt f])
    (hr : Ready i s h) : ∃ k, exec i s = .next (otq s h f k) := by
  simp only [List.mem_cons, List.not_mem_nil, or_false] at hi
  rcases hi with rfl | rfl | rfl | rfl | rfl | rfl <;> exact ⟨_, onStrand_ready hr _⟩

/-- The low 48 bits of a word. -/
theorem and_mask48 (x : W64) : x &&& 0xFFFFFFFFFFFF = BitVec.ofNat 64 (x.toNat % 2 ^ 48) := by
  apply BitVec.eq_of_toNat_eq
  have hmask : x.toNat &&& 0xFFFFFFFFFFFF = x.toNat % 2 ^ 48 := Nat.and_two_pow_sub_one_eq_mod x.toNat 48
  rw [BitVec.toNat_and, BitVec.toNat_ofNat, Nat.mod_eq_of_lt (a := x.toNat % 2 ^ 48) (by omega)]
  exact hmask

/-- OTQ .cnt of an object without a codec returns 0, of a coded one the counters at die-list entry 0 (R63, R65). -/
theorem exec_otqCnt (hr : Ready (.otqCnt f) s h) (hm : MayQuery h f)
    (hw : wState (queryEntry s h f).word0 = 1 ∨ wState (queryEntry s h f).word0 = 2) :
    let stored := fun (n : Nat) => otWord s h.t.pid ((partDies s h.t.pid).headD 0) (capOid (rdC h.t f.sa)).toNat n
    exec (.otqCnt f) s = .next (retire h
      (wrG h (f.dst + 1) (if wCoding (queryEntry s h f).word0 = 0 then 0 else BitVec.ofNat 64 ((stored 7).toNat % 2 ^ 48))
        (wrG h f.dst (if wCoding (queryEntry s h f).word0 = 0 then 0 else cntWord0 (stored 6) (stored 7)) s))) := by
  intro stored
  refine (onStrand_otq_live hr hm hw).trans ?_
  simp only [and_mask48]
  by_cases hcode : wCoding (queryEntry s h f).word0 = 0
  · simp only [hcode, ne_eq, not_true_eq_false, decide_false, Bool.false_eq_true, if_false, if_true]
  · simp only [hcode, ne_eq, not_false_eq_true, decide_true, if_false, if_true]
    rfl

/-- OTQ .ext of a byte inside the bounds and aligned returns the extent entry, EPA to the supervisor only (R69, R214). -/
theorem exec_otqExt (hr : Ready (.otqExt f) s h) (hm : MayQuery h f)
    (hw : wState (queryEntry s h f).word0 = 1 ∨ wState (queryEntry s h f).word0 = 2)
    (hlo : (capBase (rdC h.t f.sa) : Int) ≤ mAddr s h f)
    (hhi : mAddr s h f + 1 ≤ capBase (rdC h.t f.sa) + capLen (rdC h.t f.sa))
    (hsize : capBase (rdC h.t f.sa) + capLen (rdC h.t f.sa) ≤
        objBytes s (whoOf h) (capOid (rdC h.t f.sa)) (queryEntry s h f).word0 (queryEntry s h f).dims (queryEntry s h f).layout ∨
      (queryEntry s h f).wf = false)
    (halign : (mAddr s h f).toNat % 8 = 0) :
    exec (.otqExt f) s = .next (retire h (wrG h f.dst
      ((queryEntry s h f).ext &&& (if isSup h.t then 0xFFFFFFFFFFFFFFE0 else 0xFE0)) s)) := by
  refine (onStrand_otq_live hr hm hw).trans ?_
  have hin : (decide (capBase (rdC h.t f.sa) + capLen (rdC h.t f.sa) ≤ objBytes s (whoOf h) (capOid (rdC h.t f.sa))
      (queryEntry s h f).word0 (queryEntry s h f).dims (queryEntry s h f).layout) || !(queryEntry s h f).wf) = true := by
    rcases hsize with hle | hwf
    · rw [decide_eq_true hle, Bool.true_or]
    · rw [hwf, Bool.not_false, Bool.or_true]
  simp [hlo, hhi, hin, halign]

end Query

/-- Settles O28, clause by clause: what a prefetch, a cache form and a query do with the outcome of their checks. -/
theorem cacheAndQueryForms : Obligations.CacheAndQueryForms := by
  intro s s1 h f r c w k a ext facet e may word count enc put put2 served
  refine ⟨?pf1, ?pf2, ?pfNone, ?cbo, ?cboUnmapped, ?live, ?free⟩
  case pf1 =>
    intro hr hc hs x hopen hroom
    cases hx : l1Find (clusterAt s1 c) r.key with
    | some y =>
      simp only [x, hx]
      exact exec_pfL1_held hr hc hs hx (hopen y hx)
    | none =>
      simp only [x, hx]
      exact exec_pfL1_absent hr hc hs hx (hroom hx)
  case pf2 => exact exec_pfL2_served
  case pfNone =>
    intro ck hc hs
    exact ⟨fun hr => goes_of_retire hr.1 (exec_pfL1_unserved hr hc hs),
      fun hr => goes_of_retire hr.1 (exec_pfL2_unserved hr hc hs)⟩
  case cbo =>
    intro hc
    refine ⟨fun hb i hi hr => ?_, fun hb hs => ?_, fun hb hs => ?_⟩
    · obtain ⟨g, hg⟩ := exec_eq_cbo hi hr
      rw [hg, cbo_behindStores hc hb]
    · exact ⟨fun hr => by rw [exec_cboClean hr, cbo_served hc hb hs], fun hr => by rw [exec_cboInval hr, cbo_served hc hb hs],
        fun hr => by rw [exec_cboFlush hr, cbo_served hc hb hs]⟩
    · exact ⟨fun hr => by rw [exec_cboClean hr, cbo_unserved hc hb hs], fun hr => by rw [exec_cboInval hr, cbo_unserved hc hb hs],
        fun hr => by rw [exec_cboFlush hr, cbo_unserved hc hb hs]⟩
  case cboUnmapped =>
    intro hc
    exact ⟨fun hr => by rw [exec_cboClean hr, cbo_unmapped hc], fun hr => by rw [exec_cboInval hr, cbo_unmapped hc],
      fun hr => by rw [exec_cboFlush hr, cbo_unmapped hc]⟩
  case live =>
    intro hm hw
    refine ⟨fun hr => onStrand_otq_live hr hm hw, fun hr => onStrand_otq_live hr hm hw, fun hr => ?_,
      fun hr => onStrand_otq_live hr hm hw, fun hr => onStrand_otq_live hr hm hw, fun hr hlo hhi hsize halign => ?_⟩
    · refine (exec_otqCnt hr hm hw).trans ?_
      simp only [cntWord0_eq]
      rfl
    · refine (exec_otqExt hr hm hw hlo hhi hsize halign).trans ?_
      cases isSup h.t <;> rfl
  case free =>
    intro hm hw i hi hr
    obtain ⟨k, hk⟩ := exec_eq_otq hi hr
    rw [Faults, hk, otq_free hm hw]
    rfl

end Sys2Proof.Proofs

/-! System registers: the values that CSRR delivers and what CSRW writes (R19, R20, R25, R308 to R314). -/

namespace Sys2Proof.Proofs
open Sys2Proof.Machine Sys2Proof.Claims

section Fields
variable {w : Nat}

theorem bitsN_eq_div_mod (b : BitVec w) (lo len : Nat) : bitsN b lo len = b.toNat / 2 ^ lo % 2 ^ len := by
  simp [bitsN, BitVec.extractLsb'_toNat, Nat.shiftRight_eq_div_pow]

/-- A field that lies inside the word is the same field of the number. -/
theorem bitsN_ofNat {lo len : Nat} (h : lo + len ≤ w) (n : Nat) : bitsN (BitVec.ofNat w n) lo len = n / 2 ^ lo % 2 ^ len := by
  have hw : 2 ^ w = 2 ^ lo * 2 ^ (w - lo) := by rw [← pow_add]; congr 1; omega
  rw [bitsN_eq_div_mod, BitVec.toNat_ofNat, hw, Nat.mod_mul_right_div_self,
    Nat.mod_mod_of_dvd _ (Nat.pow_dvd_pow 2 (by omega))]

theorem bitsN_lt (b : BitVec w) (lo len : Nat) : bitsN b lo len < 2 ^ len := (b.extractLsb' lo len).isLt

/-- Two fields of one width are equal as numbers when they are equal as words. -/
theorem bitsN_inj {v : Nat} {a : BitVec w} {b : BitVec v} {lo len : Nat} :
    bitsN a lo len = bitsN b lo len ↔ a.extractLsb' lo len = b.extractLsb' lo len := BitVec.toNat_inj

theorem getLsbD_setBits (b : BitVec w) (lo len v : Nat) {i : Nat} (hi : i < w) :
    (setBits b lo len v).getLsbD i = if lo ≤ i ∧ i < lo + len then v.testBit (i - lo) else b.getLsbD i := by
  simp only [setBits, BitVec.getLsbD_or, BitVec.getLsbD_and, BitVec.getLsbD_not, BitVec.getLsbD_ofNat, Nat.testBit_mul_two_pow,
    Nat.testBit_two_pow_sub_one, Nat.testBit_mod_two_pow, hi]
  by_cases h1 : lo ≤ i
  · by_cases h2 : i < lo + len <;> simp [h1, h2, show (i - lo < len) ↔ i < lo + len by omega]
  · simp [h1]

theorem bitsN_setBits_same (b : BitVec w) {lo len v : Nat} (h : lo + len ≤ w) (hv : v < 2 ^ len) :
    bitsN (setBits b lo len v) lo len = v := by
  have he : (setBits b lo len v).extractLsb' lo len = BitVec.ofNat len v := by
    refine BitVec.eq_of_getLsbD_eq fun i hi => ?_
    rw [BitVec.getLsbD_extractLsb', BitVec.getLsbD_ofNat, getLsbD_setBits b lo len v (by omega)]
    simp [hi]
  rw [bitsN, he, BitVec.toNat_ofNat, Nat.mod_eq_of_lt hv]

theorem bitsN_setBits_above (b : BitVec w) {lo len v k n : Nat} (h : lo + len ≤ k) :
    bitsN (setBits b lo len v) k n = bitsN b k n := by
  refine bitsN_inj.2 (BitVec.eq_of_getLsbD_eq fun i hi => ?_)
  simp only [BitVec.getLsbD_extractLsb', hi, decide_true, Bool.true_and]
  by_cases hw : k + i < w
  · rw [getLsbD_setBits b lo len v hw, if_neg (by omega)]
  · rw [BitVec.getLsbD_of_ge _ _ (by omega), BitVec.getLsbD_of_ge _ _ (by omega)]

end Fields

section Orient

theorem posOf_lt (n : Nat) : Config.posOf n < 8 := by
  unfold Config.posOf
  split <;> decide

/-- POS, ROT and FLIP of SYS.ORIENT, from the physical position (R19). -/
def orientPlace (p : Nat) : Nat := p * 8 + p % 4 * 2 + p / 4

/-- PORTMAP, AXMAP and CHX of SYS.ORIENT, from the physical position (R19). -/
def orientMaps (p : Nat) : Nat :=
  (portsOf p).zipIdx.foldl (fun a x => a + x.1 * 2 ^ (16 + 3 * x.2)) 0 +
    (axesOf p).zipIdx.foldl (fun a x => a + x.1 * 2 ^ (7 + 3 * x.2)) 0 + chxOf p * 2 ^ 3

theorem orientPlace_fields : ∀ p < 8, orientPlace p < 64 ∧ orientPlace p / 8 = p ∧ orientPlace p / 2 % 4 = p % 4 ∧
    orientPlace p % 2 = p / 4 := by decide

theorem orientMaps_fields : ∀ p < 8, orientMaps p < 2 ^ 34 ∧
    (∀ k < 6, orientMaps p / 2 ^ (16 + 3 * k) % 2 ^ 3 = (portsOf p).getD k 0) ∧
    (∀ k < 3, orientMaps p / 2 ^ (7 + 3 * k) % 2 ^ 3 = (axesOf p).getD k 0) ∧
    orientMaps p / 2 ^ 3 % 2 ^ 4 = chxOf p ∧ orientMaps p % 2 ^ 3 = 0 := by decide +kernel

theorem ldie_lt (d : DieId) : ldie d < 8 := by unfold ldie; omega

/-- The number that SYS.ORIENT is, from what the place and the maps contribute. -/
def orientNum (s : State) (d : DieId) (place maps : Nat) : Nat :=
  d.toNat * 2 ^ 47 + ldie d * 2 ^ 44 + place * 2 ^ 38 + (pkgAt s (pkgOf d)).wrap.toNat * 2 ^ 35 + maps

theorem orientOf_full (s : State) (d : DieId) : orientOf s d true =
    BitVec.ofNat 64 (orientNum s d (orientPlace (Config.posOf (ldie d))) (orientMaps (Config.posOf (ldie d)))) := by
  simp only [orientOf, orientNum, orientPlace, orientMaps, if_true]
  exact congrArg (BitVec.ofNat 64) (by omega)

theorem orientOf_public (s : State) (d : DieId) : orientOf s d false = BitVec.ofNat 64 (orientNum s d 0 0) := by
  simp [orientOf, orientNum]

/-- The fields of SYS.ORIENT, each from its own summand (R19). -/
theorem orientNum_fields (s : State) (d : DieId) {place maps : Nat} (hplace : place < 64) (hmaps : maps < 2 ^ 34) :
    let v : W64 := BitVec.ofNat 64 (orientNum s d place maps)
    bitsN v 47 17 = d.toNat ∧ bitsN v 44 3 = ldie d ∧ bitsN v 38 6 = place ∧ bitsN v 35 3 = (pkgAt s (pkgOf d)).wrap.toNat ∧
    bitsN v 0 35 = maps := by
  intro v
  have hd : d.toNat < 2 ^ 17 := d.isLt
  have hl := ldie_lt d
  have hw : (pkgAt s (pkgOf d)).wrap.toNat < 2 ^ 3 := (pkgAt s (pkgOf d)).wrap.isLt
  simp only [v, bitsN_ofNat (w := 64) (lo := 47) (len := 17) (by omega), bitsN_ofNat (w := 64) (lo := 44) (len := 3) (by omega),
    bitsN_ofNat (w := 64) (lo := 38) (len := 6) (by omega), bitsN_ofNat (w := 64) (lo := 35) (len := 3) (by omega),
    bitsN_ofNat (w := 64) (lo := 0) (len := 35) (by omega), orientNum]
  refine ⟨?_, ?_, ?_, ?_, ?_⟩ <;> omega

/-- A field of a field. -/
theorem bitsN_bitsN {w : Nat} (b : BitVec w) {lo len k n : Nat} (h : k + n ≤ len) :
    bitsN b (lo + k) n = bitsN b lo len / 2 ^ k % 2 ^ n := by
  rw [← bitsN_ofNat (w := len) h, bitsN, bitsN, bitsN, BitVec.ofNat_toNat, BitVec.setWidth_eq]
  congr 1
  ext i hi
  simp [show k + i < len by omega, Nat.add_assoc]

/-- SYS.ORIENT (R19): the coordinate, the logical die and the wrap bits to every task, the rest to the supervisor alone (R20). -/
theorem orientOf_fields (s : State) (d : DieId) (full : Bool) :
    let v := orientOf s d full
    let p := Config.posOf (ldie d)
    bitsN v 47 17 = d.toNat ∧ bitsN v 44 3 = ldie d ∧ bitsN v 35 3 = (pkgAt s (pkgOf d)).wrap.toNat ∧
    (full = false → bitsN v 38 6 = 0 ∧ bitsN v 0 35 = 0) ∧
    (full = true → bitsN v 41 3 = p ∧ bitsN v 39 2 = p % 4 ∧ bitsN v 38 1 = p / 4 ∧ bitsN v 34 1 = 0 ∧
      (∀ k : Nat, k < 6 → bitsN v (16 + 3 * k) 3 = (portsOf p).getD k 0) ∧
      (∀ k : Nat, k < 3 → bitsN v (7 + 3 * k) 3 = (axesOf p).getD k 0) ∧ bitsN v 3 4 = chxOf p ∧ bitsN v 0 3 = 0) := by
  intro v p
  cases full
  case false =>
    have hv : v = _ := orientOf_public s d
    obtain ⟨hdie, hldie, hplace, hwrap, hmaps⟩ := orientNum_fields s d (place := 0) (maps := 0) (by omega) (by omega)
    rw [← hv] at hdie hldie hplace hwrap hmaps
    exact ⟨hdie, hldie, hwrap, fun _ => ⟨hplace, hmaps⟩, nofun⟩
  case true =>
    have hv : v = BitVec.ofNat 64 (orientNum s d (orientPlace p) (orientMaps p)) := orientOf_full s d
    obtain ⟨hplaceLt, hpos, hrot, hflip⟩ := orientPlace_fields p (posOf_lt _)
    obtain ⟨hmapsLt, hports, haxes, hchx, hlow⟩ := orientMaps_fields p (posOf_lt _)
    obtain ⟨hdie, hldie, hplace, hwrap, hmaps⟩ := orientNum_fields s d hplaceLt hmapsLt
    rw [← hv] at hdie hldie hplace hwrap hmaps
    have hin : ∀ k n, k + n ≤ 35 → bitsN v k n = orientMaps p / 2 ^ k % 2 ^ n := fun k n hk => by
      rw [← hmaps, ← bitsN_bitsN v hk, Nat.zero_add]
    have hup : ∀ k n, k + n ≤ 6 → bitsN v (38 + k) n = orientPlace p / 2 ^ k % 2 ^ n := fun k n hk => by
      rw [← hplace, ← bitsN_bitsN v hk]
    refine ⟨hdie, hldie, hwrap, nofun, fun _ => ⟨?_, ?_, ?_, ?_, fun k hk => ?_, fun k hk => ?_, ?_, ?_⟩⟩
    · exact (hup 3 3 (by omega)).trans (by omega)
    · exact (hup 1 2 (by omega)).trans (by omega)
    · exact (hup 0 1 (by omega)).trans (by omega)
    · exact (hin 34 1 (by omega)).trans (by omega)
    · exact (hin _ 3 (by omega)).trans (hports k hk)
    · exact (hin _ 3 (by omega)).trans (haxes k hk)
    · exact (hin 3 4 (by omega)).trans hchx
    · exact (hin 0 3 (by omega)).trans (by omega)

end Orient

section Values
variable {s : State} {h : Here}

theorem physCluster_lt : ∀ j < 10, physCluster j < 16 := by decide

/-- SYS.COREID from its fields (R25): die, logical die, physical cluster, slab, cluster, core and strand. -/
def coreIdNum (die ldie phys slab clus core strand : Nat) : Nat :=
  die * 2 ^ 47 + ldie * 2 ^ 44 + phys * 2 ^ 9 + slab * 2 ^ 8 + clus * 2 ^ 4 + core * 4 + strand * 2

theorem coreIdNum_fields {d l q b u c x : Nat} (hd : d < 2 ^ 17) (hl : l < 8) (hq : q < 16) (hb : b < 2) (hu : u < 16) (hc : c < 4)
    (hx : x < 2) :
    let v : W64 := BitVec.ofNat 64 (coreIdNum d l q b u c x)
    bitsN v 47 17 = d ∧ bitsN v 44 3 = l ∧ bitsN v 13 31 = 0 ∧ bitsN v 9 4 = q ∧ bitsN v 8 1 = b ∧ bitsN v 4 4 = u ∧
    bitsN v 2 2 = c ∧ bitsN v 1 1 = x ∧ bitsN v 0 1 = 0 := by
  intro v
  have hbits : ∀ lo len, lo + len ≤ 64 → bitsN v lo len = coreIdNum d l q b u c x / 2 ^ lo % 2 ^ len := fun _ _ h => bitsN_ofNat h _
  rw [hbits 47 17 (by omega), hbits 44 3 (by omega), hbits 13 31 (by omega), hbits 9 4 (by omega), hbits 8 1 (by omega),
    hbits 4 4 (by omega), hbits 2 2 (by omega), hbits 1 1 (by omega), hbits 0 1 (by omega), coreIdNum]
  refine ⟨?_, ?_, ?_, ?_, ?_, ?_, ?_, ?_, ?_⟩ <;> omega

theorem coreIdOf_eq (h : Here) : coreIdOf h = BitVec.ofNat 64 (coreIdNum h.core.die.toNat (ldie h.core.die)
    (if isSup h.t = true then physCluster (h.core.core / 4) else 0) (h.core.core / 20) (h.core.core / 4) (h.core.core % 4)
    (if h.x = .xs then 1 else 0)) := by
  have hslab : h.core.core / 20 = h.core.core / 4 / 5 := by omega
  rw [hslab]
  simp only [coreIdOf, coreIdNum, coreSlab, clusterSlab, CoreId.cluster, slabOfClus, cix]
  cases isSup h.t <;> cases h.x <;> simp

/-- SYS.COREID (R25). -/
theorem coreIdOf_fields (hc : h.core.core < 40) :
    let v := coreIdOf h
    bitsN v 47 17 = h.core.die.toNat ∧ bitsN v 44 3 = ldie h.core.die ∧ bitsN v 13 31 = 0 ∧
    bitsN v 9 4 = (if isSup h.t = true then physCluster (h.core.core / 4) else 0) ∧ bitsN v 8 1 = h.core.core / 20 ∧
    bitsN v 4 4 = h.core.core / 4 ∧ bitsN v 2 2 = h.core.core % 4 ∧ bitsN v 1 1 = (if h.x = .xs then 1 else 0) ∧ bitsN v 0 1 = 0 := by
  have hphys := physCluster_lt (h.core.core / 4) (by omega)
  rw [coreIdOf_eq]
  exact coreIdNum_fields h.core.die.isLt (ldie_lt _) (by split <;> omega) (by omega) (by omega) (by omega) (by split <;> omega)

/-- SYS.CAUSE: HEAD, TAIL and the class of the record at HEAD (R311). -/
theorem causeOf_fields (b : Slab) :
    bitsN (causeOf b) 0 28 = b.causeHead.toNat ∧ bitsN (causeOf b) 28 28 = b.causeTail.toNat ∧
    (b.fring = [] → bitsN (causeOf b) 56 8 = 0) ∧ ∀ r l, b.fring = r :: l → r.cls < 256 → bitsN (causeOf b) 56 8 = r.cls := by
  have hh : b.causeHead.toNat < 2 ^ 28 := b.causeHead.isLt
  have ht : b.causeTail.toNat < 2 ^ 28 := b.causeTail.isLt
  rw [causeOf, bitsN_ofNat (by omega), bitsN_ofNat (by omega), bitsN_ofNat (by omega)]
  refine ⟨by omega, by omega, fun hf => ?_, fun r l hf hr => ?_⟩ <;> simp only [hf] <;> omega

/-- A slab has no more slots than SYS.SAVE names (R312). -/
theorem saveSlots_le (s : State) (sl : SlabId) : saveSlots s sl ≤ bitsN (slabAt s sl).save 16 16 := by
  unfold saveSlots
  dsimp only
  split <;> omega

/-- SYS.SAVE with FREE in its low 16 bits (R312). -/
theorem saveOf_fields (s : State) (sl : SlabId) :
    bitsN (saveOf s sl) 16 48 = bitsN (slabAt s sl).save 16 48 ∧
    bitsN (saveOf s sl) 0 16 = saveSlots s sl - (slabAt s sl).images.length := by
  have hle := saveSlots_le s sl
  have hlt := bitsN_lt (slabAt s sl).save 16 16
  exact ⟨bitsN_setBits_above _ (by omega), bitsN_setBits_same _ (by omega) (show freeSlots s sl < 2 ^ 16 by unfold freeSlots; omega)⟩

end Values

section Writes
variable {s : State} {h : Here} {f : FmtS}

/-- A change of a slab is what it makes of the slab. -/
theorem retire_modSlab_congr {sl : SlabId} {f g : Slab → Slab} (hfg : f (slabAt s sl) = g (slabAt s sl)) :
    (.next (retire h (modSlab s sl f)) : Out) = .next (retire h (modSlab s sl g)) :=
  congrArg (fun b => (.next (retire h (setSlab s sl b)) : Out)) hfg

theorem exec_csrr (hr : Ready (.csrr f) s h) : exec (.csrr f) s =
    .next (retire h (wrG h f.dst (csrValue s h f.csr.toNat) (if f.csr = 0x10 then acquire s h 3 else s))) := onStrand_ready hr _

/-- Bits 27:9 of a ring register stay 0 (R310). -/
theorem ringMask_eq (v : W64) : ringMask v = setBits v 9 19 0 := by simp [ringMask, setBits]

theorem low32_eq (v : W64) : v &&& 0xFFFFFFFF = BitVec.ofNat 64 (v.toNat % 2 ^ 32) := by
  apply BitVec.eq_of_toNat_eq
  have hmask : v.toNat &&& 0xFFFFFFFF = v.toNat % 2 ^ 32 := Nat.and_two_pow_sub_one_eq_mod v.toNat 32
  rw [BitVec.toNat_and, BitVec.toNat_ofNat, Nat.mod_eq_of_lt (a := v.toNat % 2 ^ 32) (by omega)]
  exact hmask

theorem min_toNat_lt (a b : BitVec 28) : min a.toNat b.toNat < 2 ^ 28 := by have := a.isLt; omega

/-- HEAD of SYS.CAUSE moves to the written value, at most to TAIL (R311). -/
theorem causeHead_moved (H T want : BitVec 28) :
    H + BitVec.ofNat 28 (min (want - H).toNat (T - H).toNat) = if (want - H).toNat ≤ (T - H).toNat then want else T := by
  split
  case isTrue hle => rw [Nat.min_eq_left hle, BitVec.ofNat_toNat, BitVec.setWidth_eq, BitVec.add_comm, BitVec.sub_add_cancel]
  case isFalse hlt =>
    rw [Nat.min_eq_right (by omega), BitVec.ofNat_toNat, BitVec.setWidth_eq, BitVec.add_comm, BitVec.sub_add_cancel]

/-- CSRW of SYS.CAUSE also drops the records that HEAD passes. -/
theorem exec_csrwSysCause (hr : Ready (.csrwSysCause f) s h) :
    let b := slabAt s (coreSlab h.core)
    let want : BitVec 28 := (rdG s h f.sa).setWidth 28
    let head := if (want - b.causeHead).toNat ≤ (b.causeTail - b.causeHead).toNat then want else b.causeTail
    exec (.csrwSysCause f) s = .next (retire h (modSlab s (coreSlab h.core) fun b =>
      { b with causeHead := head, fring := b.fring.drop (head - b.causeHead).toNat })) := by
  intro b want head
  refine (onStrand_ready hr _).trans (retire_modSlab_congr ?_)
  have hhead : b.causeHead + BitVec.ofNat 28 (min (want - b.causeHead).toNat (b.causeTail - b.causeHead).toNat) = head :=
    causeHead_moved _ _ _
  have hdrop : (head - b.causeHead).toNat = min (want - b.causeHead).toNat (b.causeTail - b.causeHead).toNat := by
    rw [← hhead, BitVec.add_comm, BitVec.add_sub_cancel, BitVec.toNat_ofNat, Nat.mod_eq_of_lt (min_toNat_lt _ _)]
  change ({ b with causeHead := b.causeHead + BitVec.ofNat 28 _, fring := b.fring.drop _ } : Slab) =
    { b with causeHead := head, fring := b.fring.drop (head - b.causeHead).toNat }
  rw [hdrop, ← hhead]

/-- The ring register keeps the fields above bit 27. -/
theorem nameLog_ringMask (b : Slab) (v : W64) :
    nameLog b (ringMask v) =
      { b with flog := setBits v 9 19 0, flHeld := if bitsN b.flog 28 36 = bitsN v 28 36 then b.flHeld else 0 } := by
  rw [nameLog, ringMask_eq, bitsN_setBits_above v (by omega)]

theorem exec_csrwSysSave (hr : Ready (.csrwSysSave f) s h) :
    let b := slabAt s (coreSlab h.core)
    let v := rdG s h f.sa
    exec (.csrwSysSave f) s = .next (retire h (modSlab s (coreSlab h.core)
      (if bitsN v 16 16 < b.images.length ∨ (bitsN v 32 32 ≠ bitsN b.save 32 32 ∧ b.images ≠ []) then id
       else fun b => { b with save := setBits v 0 16 0 }))) := by
  intro b v
  refine (onStrand_ready hr _).trans (retire_modSlab_congr ?_)
  have hcond : (bitsN v 16 16 < b.images.length ∨ (v.extractLsb' 32 32 ≠ b.save.extractLsb' 32 32 ∧ b.images.length ≠ 0)) ↔
      (bitsN v 16 16 < b.images.length ∨ (bitsN v 32 32 ≠ bitsN b.save 32 32 ∧ b.images ≠ [])) := by
    simp only [ne_eq, bitsN_inj, List.length_eq_zero_iff]
  refine (if_congr hcond rfl rfl).trans ?_
  split <;> rfl

end Writes

/-- Settles O47: each register's value from its layout, and each write from the form's own effect. -/
theorem systemRegisters : Obligations.SystemRegisters := by
  intro s h f b v value sets
  refine ⟨fun hr => ⟨?goes, ?acquires, ?r0, ?r4, ?r8, ?r9, ?r100, ?r101, ?r102, ?r103, ?r106, ?r2, ?r104, ?save, ?orient, ?coreId,
    ?cause⟩, fun hr => onStrand_ready hr _, fun hr => ⟨?remain, ?drain, ?wdog⟩, exec_csrwSysCause, fun hr => onStrand_ready hr _,
    fun hr => ?fq, fun hr => ?flog, fun hr => ?wsave⟩
  case goes =>
    intro hne
    refine ⟨_, exec_csrr hr, ?_⟩
    rw [if_neg hne]
    exact retires_wrG hr.1 _ _ _
  case acquires => intro he; rw [exec_csrr hr, if_pos he]
  case r0 | r4 | r8 | r9 | r100 | r101 | r102 | r103 | r106 | r2 | r104 => intro he; simp only [value, he]; rfl
  case save => intro he; simp only [value, he]; exact saveOf_fields s _
  case orient => intro he; simp only [value, he]; exact orientOf_fields s _ _
  case coreId => intro he hc; simp only [value, he]; exact coreIdOf_fields hc
  case cause => intro he; simp only [value, he]; exact causeOf_fields b
  case remain =>
    intro he
    exact ⟨_, (onStrand_ready hr _).trans (congrArg (fun u => (.next (retire h u) : Out)) (if_pos he)), retires_modTask hr.1 _ _⟩
  case drain =>
    intro he
    refine (onStrand_ready hr _).trans ?_
    simp only [he, ← low32_eq]
    rfl
  case wdog =>
    intro he
    refine (onStrand_ready hr _).trans ?_
    simp only [he, ← low32_eq]
    rfl
  case fq => rw [← ringMask_eq]; exact onStrand_ready hr _
  case flog =>
    refine ⟨_, onStrand_ready hr _, ?_⟩
    simp only [nameLog_ringMask]
    rfl
  case wsave =>
    refine ⟨fun hle hor => ?_, fun hbad => ?_⟩
    · refine (exec_csrwSysSave hr).trans ?_
      rw [if_neg]
      rintro (hlt | ⟨hne, himg⟩)
      · exact absurd hle (Nat.not_le.2 hlt)
      · exact hor.elim hne himg
    · refine (exec_csrwSysSave hr).trans ?_
      rw [if_pos hbad]

end Sys2Proof.Proofs

/-! Partition actions: refusals, requests, resets and the steps of R33 (R27 to R35, R355, R358, R372, R373). -/

namespace Sys2Proof.Proofs
open Sys2Proof.Machine Sys2Proof.Claims

section Maps
variable {κ α : Type} [DecidableEq κ]

theorem lkp_filter_key (p : κ → Bool) (m : AMap κ α) (k : κ) :
    lkp (m.filter fun x => p x.1) k = if p k = true then lkp m k else none := by
  induction m with
  | nil => simp [lkp]
  | cons x r ih =>
    obtain ⟨j, v⟩ := x
    by_cases hj : j = k
    · subst hj; cases hp : p j <;> simp [lkp, hp, ih]
    · cases hp : p j <;> simp [lkp, hp, hj, ih]

theorem lkp_map_key (f : κ → α → α) (m : AMap κ α) (k : κ) : lkp (m.map fun x => (x.1, f x.1 x.2)) k = (lkp m k).map (f k) := by
  induction m with
  | nil => rfl
  | cons x r ih =>
    obtain ⟨j, v⟩ := x
    by_cases hj : j = k
    · subst hj; simp [lkp]
    · simp [lkp, hj, ih]

/-- What each step of a fold keeps, the fold keeps. -/
theorem foldl_keeps {σ β γ : Type} {g : σ → β → σ} {φ : σ → γ} (hg : ∀ a x, φ (g a x) = φ a) (l : List β) (s : σ) :
    φ (l.foldl g s) = φ s := by
  induction l generalizing s with
  | nil => rfl
  | cons x r ih => exact (ih _).trans (hg s x)

/-- Bytes whose addresses are all filtered out read 0. -/
theorem memByte_filter_out {p : Nat → Bool} {a : Nat} (ha : p a = false) (m : List Host.Cell) :
    memByte (m.filter fun x => p x.1) a = 0 := by
  induction m with
  | nil => rfl
  | cons x r ih =>
    obtain ⟨j, v⟩ := x
    cases hp : p j with
    | false => simpa [hp] using ih
    | true =>
      have hj : j ≠ a := fun h => by rw [h, ha] at hp; cases hp
      simp only [List.filter_cons, hp, if_true, memByte, if_neg hj, ih, ite_self]

theorem nodup_eraseDups {β : Type} [BEq β] [LawfulBEq β] (l : List β) : l.eraseDups.Nodup := by
  induction hn : l.length using Nat.strong_induction_on generalizing l with
  | _ n ih =>
    cases l with
    | nil => simp
    | cons a r =>
      have hlen : (r.filter fun b => !b == a).length < n := by
        have := List.length_filter_le (fun b => !b == a) r
        simp only [List.length_cons] at hn
        omega
      rw [List.eraseDups_cons, List.nodup_cons]
      exact ⟨by simp, ih _ hlen _ rfl⟩

end Maps

section Slabs
variable (s : State)

theorem slabAt_setSlab (c : SlabId) (k : Slab) (x : SlabId) : slabAt (setSlab s c k) x = if x = c then k else slabAt s x := by
  split
  case isTrue h => rw [h, slabAt_setSlab_same]
  case isFalse h => simp [slabAt, setSlab, lkpD_ins_ne _ _ _ h]

theorem slabAt_modSlab (c : SlabId) (f : Slab → Slab) (x : SlabId) :
    slabAt (modSlab s c f) x = if x = c then f (slabAt s x) else slabAt s x := by
  rw [modSlab, slabAt_setSlab]
  split
  case isTrue h => rw [h]
  case isFalse => rfl

end Slabs

section Answers
variable {s : State} {qp : Option Nat} {pkg : DieId} {h : BitVec 256}

theorem answered_pactDone (st : Nat) : Answered s (pactDone s qp pkg (hTag h) st) qp pkg h st := by cases qp <;> rfl

@[simp] theorem pactDone_parts (tag : BitVec 32) (st : Nat) : (pactDone s qp pkg tag st).parts = s.parts := by cases qp <;> rfl

/-- The request may name the partition: the pair belongs to it, or the request is the management port's (R358, R360). -/
theorem mayName_iff {pid : BitVec 32} : Machine.mayName s qp pid = true ↔ ∀ n, qp = some n → (qpAt s n).pid = pid := by
  cases qp <;> simp [Machine.mayName]

theorem pact_create (ha : bitsN h 204 4 = 1) : pact s qp pkg h = pactCreate s qp pkg h := by simp [pact, hAct, ha]
theorem pact_resize (ha : bitsN h 204 4 = 2) : pact s qp pkg h = pactResize s qp pkg h := by simp [pact, hAct, ha]
theorem pact_coreReset (ha : bitsN h 204 4 = 3) : pact s qp pkg h = pactCoreReset s qp pkg h := by simp [pact, hAct, ha]
theorem pact_whole {act : Nat} (hact : act = 4 ∨ act = 5) (ha : bitsN h 204 4 = act) :
    pact s qp pkg h = pactWhole s qp pkg h act := by
  rcases hact with rfl | rfl <;> simp [pact, hAct, ha]

end Answers

section Create
variable {s : State} {qp : Option Nat} {pkg : DieId} {h : BitVec 256} {x : Shape}

/-- The request may create the partition that it names (R355, R358). -/
def MayCreate (s : State) (qp : Option Nat) (h : BitVec 256) : Prop :=
  hPid h ≠ 0 ∧ partAt s (hPid h) = none ∧ ∀ n, qp = some n → (qpAt s n).admin = true

/-- The partition as a create makes it: its slabs come when the action ends (R33). -/
def createdPart (s : State) (x : Shape) : Part :=
  { shape := x.shape, lo := x.lo, hi := x.hi, dies := [], slabs := [], limit := Config.launchLimit, windowAt := s.ck }

/-- The action over the slabs of a create. -/
def createAction (qp : Option Nat) (pkg : DieId) (h : BitVec 256) (x : Shape) : Action :=
  { act := 1, step := 1, kill := hKill h, slabs := x.slabs, newSlabs := x.slabs, newShape := x.shape, newLo := x.lo, newHi := x.hi,
    qp := qp, ctag := hTag h, pkg := pkg }

/-- The named pairs of the package go to the partition (R355). -/
def assignPairs (s : State) (pkg : DieId) (pid : BitVec 32) (own : List Nat) : State :=
  modPkg s pkg fun k => { k with qps := own.foldl (fun m i => upd m i {} fun q => { q with pid := pid }) k.qps }

theorem pactCreate_denied (hm : ¬ MayCreate s qp h) : pactCreate s qp pkg h = pactDone s qp pkg (hTag h) 7 := by
  unfold pactCreate
  refine if_pos (by_contra fun hgo => hm ?_)
  cases qp <;> simpa [MayCreate, and_assoc, and_comm, and_left_comm] using hgo

theorem pactCreate_malformed (hm : MayCreate s qp h) (hx : shapeOf pkg (hLo h) (hHi h) (hMask h) = none) :
    pactCreate s qp pkg h = pactDone s qp pkg (hTag h) 1 := by
  obtain ⟨hpid, hpart, hadmin⟩ := hm
  unfold pactCreate
  rw [if_neg (by cases qp <;> simp_all), hx]

/-- A create of an allowed shape is refused by the first check that fails, or begins (R33, R358, log 24). -/
theorem pactCreate_shaped (hm : MayCreate s qp h) (hx : shapeOf pkg (hLo h) (hHi h) (hMask h) = some x) : pactCreate s qp pkg h =
    if breaksWrap s x = true then pactDone s qp pkg (hTag h) 5
    else if x.slabs.any (inAction s) = true then pactDone s qp pkg (hTag h) 2
    else if x.slabs.any (slabTaken s) = true then pactDone s qp pkg (hTag h) 4
    else if (freePairs s pkg).length < hNqp h then pactDone s qp pkg (hTag h) 6
    else beginAction (assignPairs s pkg (hPid h) ((freePairs s pkg).take (hNqp h))) (hPid h) (createdPart s x)
      (createAction qp pkg h x) := by
  obtain ⟨hpid, hpart, hadmin⟩ := hm
  unfold pactCreate
  rw [if_neg (by cases qp <;> simp_all), hx]
  rfl

/-- A create that no check refuses begins the action over its slabs. -/
theorem pactCreate_begins (hm : MayCreate s qp h) (hx : shapeOf pkg (hLo h) (hHi h) (hMask h) = some x)
    (hw : breaksWrap s x = false) (hfree : ∀ sl ∈ x.slabs, inAction s sl = false ∧ slabTaken s sl = false)
    (hq : hNqp h ≤ (freePairs s pkg).length) :
    pactCreate s qp pkg h = beginAction (assignPairs s pkg (hPid h) ((freePairs s pkg).take (hNqp h))) (hPid h) (createdPart s x)
      (createAction qp pkg h x) := by
  have hact : ¬ x.slabs.any (inAction s) = true := by simpa using fun sl hsl => (hfree sl hsl).1
  have htaken : ¬ x.slabs.any (slabTaken s) = true := by simpa using fun sl hsl => (hfree sl hsl).2
  rw [pactCreate_shaped hm hx, if_neg (by simp [hw]), if_neg hact, if_neg htaken, if_neg (by omega)]

end Create

section Resize
variable {s : State} {qp : Option Nat} {pkg : DieId} {h : BitVec 256} {p : Part} {x : Shape}

/-- The action over the slabs that leave and join (R33). -/
def resizeAction (qp : Option Nat) (pkg : DieId) (h : BitVec 256) (p : Part) (x : Shape) : Action :=
  { act := 2, step := 1, kill := hKill h,
    slabs := (p.slabs.filter fun sl => !x.slabs.contains sl) ++ x.slabs.filter fun sl => !p.slabs.contains sl,
    newSlabs := x.slabs, newShape := x.shape, newLo := x.lo, newHi := x.hi, qp := qp, ctag := hTag h, pkg := pkg }

theorem mem_resizeAction_slabs {sl : SlabId} :
    sl ∈ (resizeAction qp pkg h p x).slabs ↔ (sl ∈ p.slabs ∧ sl ∉ x.slabs) ∨ (sl ∈ x.slabs ∧ sl ∉ p.slabs) := by
  simp [resizeAction]

theorem pactResize_denied (hd : (¬ ∀ n, qp = some n → (qpAt s n).pid = hPid h) ∨ partAt s (hPid h) = none) :
    pactResize s qp pkg h = pactDone s qp pkg (hTag h) 7 := by
  rw [← mayName_iff] at hd
  unfold pactResize
  by_cases hm : Machine.mayName s qp (hPid h) = true
  · rw [if_neg (by simp [hm]), hd.resolve_left (not_not_intro hm)]
  · exact if_pos (by simp [hm])

theorem pactResize_malformed (hm : ∀ n, qp = some n → (qpAt s n).pid = hPid h) (hp : partAt s (hPid h) = some p)
    (hx : shapeOf pkg (hLo h) (hHi h) (hMask h) = none) : pactResize s qp pkg h = pactDone s qp pkg (hTag h) 1 := by
  unfold pactResize
  rw [if_neg (by simp [mayName_iff.2 hm]), hp, hx]

/-- A resize to an allowed shape is refused by the first check that fails, or begins (R33, R34, log 24). -/
theorem pactResize_shaped (hm : ∀ n, qp = some n → (qpAt s n).pid = hPid h) (hp : partAt s (hPid h) = some p)
    (hx : shapeOf pkg (hLo h) (hHi h) (hMask h) = some x) : pactResize s qp pkg h =
    if breaksWrap s x = true then pactDone s qp pkg (hTag h) 5
    else if (p.action.isSome || (p.slabs ++ x.slabs).any (inAction s)) = true then pactDone s qp pkg (hTag h) 2
    else if (x.slabs.filter fun sl => !p.slabs.contains sl).any (slabTaken s) = true then pactDone s qp pkg (hTag h) 4
    else if homed s (hPid h) (p.slabs.filter fun sl => !x.slabs.contains sl) = true then pactDone s qp pkg (hTag h) 3
    else beginAction s (hPid h) p (resizeAction qp pkg h p x) := by
  unfold pactResize
  rw [if_neg (by simp [mayName_iff.2 hm]), hp, hx]
  rfl

/-- No slab of the partition or of the new shape is in an action, nor the partition. -/
theorem resizeFree_iff : ¬ (p.action.isSome || (p.slabs ++ x.slabs).any (inAction s)) = true ↔
    (p.action = none ∧ ∀ sl ∈ p.slabs ++ x.slabs, inAction s sl = false) := by
  rw [Bool.or_eq_true, not_or, Bool.not_eq_true, Option.isSome_eq_false_iff, Option.isNone_iff_eq_none, Bool.not_eq_true, List.any_eq_false]
  simp only [Bool.not_eq_true]

theorem resizeJoins_iff : ¬ (x.slabs.filter fun sl => !p.slabs.contains sl).any (slabTaken s) = true ↔
    ∀ sl ∈ x.slabs, sl ∉ p.slabs → slabTaken s sl = false := by
  simp

end Resize

section Resets
variable {s : State} {qp : Option Nat} {pkg : DieId} {h : BitVec 256} {p : Part}

theorem pactCoreReset_denied (hd : (¬ ∀ n, qp = some n → (qpAt s n).pid = resetPid s qp pkg h) ∨ partAt s (resetPid s qp pkg h) = none) :
    pactCoreReset s qp pkg h = pactDone s qp pkg (hTag h) 7 := by
  rw [← mayName_iff] at hd
  unfold pactCoreReset
  by_cases hm : Machine.mayName s qp (resetPid s qp pkg h) = true
  · rw [if_neg (by simp [hm]), hd.resolve_left (not_not_intro hm)]
  · exact if_pos (by simp [hm])

/-- The slabs of a core reset: those named, or with no mask every slab of the partition (log 24). -/
def resetSlabs (pkg : DieId) (h : BitVec 256) (p : Part) : List SlabId := if hMask h = 0 then p.slabs else maskSlabs pkg (hMask h)

/-- A core reset of a partition is refused by the first check that fails, or acts (R31, R358, log 24). -/
theorem pactCoreReset_named (hm : ∀ n, qp = some n → (qpAt s n).pid = resetPid s qp pkg h)
    (hp : partAt s (resetPid s qp pkg h) = some p) : pactCoreReset s qp pkg h =
      if (resetSlabs pkg h p).any (inAction s) = true then pactDone s qp pkg (hTag h) 2
      else if ((resetSlabs pkg h p).any fun sl => !p.slabs.contains sl) = true then pactDone s qp pkg (hTag h) 4
      else pactDone ((resetSlabs pkg h p).foldl coreReset s) qp pkg (hTag h) 0 := by
  unfold pactCoreReset
  rw [if_neg (by simp [mayName_iff.2 hm]), hp]
  rfl

theorem resetFree_iff {l : List SlabId} : ¬ l.any (inAction s) = true ↔ ∀ sl ∈ l, inAction s sl = false := by simp

theorem resetHeld_iff {l : List SlabId} : ¬ (l.any fun sl => !p.slabs.contains sl) = true ↔ ∀ sl ∈ l, sl ∈ p.slabs := by simp

/-- The partition of an uncore reset or a destroy (R32, R360). -/
def wholePid (s : State) (qp : Option Nat) (pkg : DieId) (h : BitVec 256) (act : Nat) : BitVec 32 :=
  if act = 4 then resetPid s qp pkg h else hPid h

/-- The action over every slab of the partition (R32). -/
def wholeAction (qp : Option Nat) (pkg : DieId) (h : BitVec 256) (act : Nat) (p : Part) : Action :=
  { act := act, step := 1, kill := hKill h, slabs := p.slabs, newSlabs := p.slabs, newShape := p.shape, newLo := p.lo, newHi := p.hi,
    qp := qp, ctag := hTag h, pkg := pkg }

theorem pactWhole_denied {act : Nat}
    (hd : (¬ ∀ n, qp = some n → (qpAt s n).pid = wholePid s qp pkg h act) ∨ partAt s (wholePid s qp pkg h act) = none) :
    pactWhole s qp pkg h act = pactDone s qp pkg (hTag h) 7 := by
  rw [← mayName_iff] at hd
  unfold pactWhole
  by_cases hm : Machine.mayName s qp (wholePid s qp pkg h act) = true
  · have hp := hd.resolve_left (not_not_intro hm)
    unfold wholePid at hm hp
    rw [if_neg (by simp [hm]), hp]
  · exact if_pos (by simpa [wholePid] using hm)

theorem pactWhole_named {act : Nat} (hm : ∀ n, qp = some n → (qpAt s n).pid = wholePid s qp pkg h act)
    (hp : partAt s (wholePid s qp pkg h act) = some p) : pactWhole s qp pkg h act =
      if p.action.isSome = true then pactDone s qp pkg (hTag h) 2
      else beginAction s (wholePid s qp pkg h act) p (wholeAction qp pkg h act p) := by
  have hname := mayName_iff.2 hm
  unfold wholePid at hname hp
  unfold pactWhole
  rw [if_neg (by simp [hname]), hp]
  rfl

/-- A management request that names its partition resets that one (R360). -/
theorem resetPid_named (hpid : hPid h ≠ 0) : resetPid s none pkg h = hPid h := by
  unfold resetPid
  split
  · exact if_neg hpid
  · rfl

end Resets

/-- The refusals of R358, each from the checks of its request. -/
theorem pactRefusals : PactRefusals := by
  intro s qp pkg h pid act shape no mine
  refine ⟨fun ha => ?create, fun ha => ?resize, fun ha => ?coreReset, fun hor => ?whole⟩
  case create =>
    have hpact : pact s qp pkg h = pactCreate s qp pkg h := pact_create ha
    refine ⟨fun hm => ?_, fun hm hx => ?_, fun x hm hx => ⟨fun hw => ?_, fun hw hin => ?_, fun hw hout => ⟨fun htaken => ?_, fun hfree hq => ?_⟩⟩⟩ <;>
      simp only [no, hpact]
    · rw [pactCreate_denied hm]; exact answered_pactDone 7
    · rw [pactCreate_malformed hm hx]; exact answered_pactDone 1
    · rw [pactCreate_shaped hm hx, if_pos hw]; exact answered_pactDone 5
    · rw [pactCreate_shaped hm hx, if_neg (by simp [hw]), if_pos (List.any_eq_true.2 hin)]; exact answered_pactDone 2
    · rw [pactCreate_shaped hm hx, if_neg (by simp [hw]), if_neg (by simpa using hout), if_pos (List.any_eq_true.2 htaken)]
      exact answered_pactDone 4
    · rw [pactCreate_shaped hm hx, if_neg (by simp [hw]), if_neg (by simpa using hout), if_neg (by simpa using hfree), if_pos hq]
      exact answered_pactDone 6
  case resize =>
    have hpact : pact s qp pkg h = pactResize s qp pkg h := pact_resize ha
    refine ⟨fun hd => ?_, fun p hm hp => ⟨fun hx => ?_, fun x hx => ⟨fun hw => ?_, fun hw hbusy => ?_,
      fun hw hfree => ⟨fun hjoin => ?_, fun hjoin hhome => ?_⟩⟩⟩⟩ <;> simp only [no, hpact]
    · rw [pactResize_denied hd]; exact answered_pactDone 7
    · rw [pactResize_malformed hm hp hx]; exact answered_pactDone 1
    · rw [pactResize_shaped hm hp hx, if_pos hw]; exact answered_pactDone 5
    · rw [pactResize_shaped hm hp hx, if_neg (by simp [hw]), if_pos (not_not.1 (mt resizeFree_iff.1 hbusy))]
      exact answered_pactDone 2
    · rw [pactResize_shaped hm hp hx, if_neg (by simp [hw]), if_neg (resizeFree_iff.2 hfree),
        if_pos (not_not.1 (mt resizeJoins_iff.1 hjoin))]
      exact answered_pactDone 4
    · rw [pactResize_shaped hm hp hx, if_neg (by simp [hw]), if_neg (resizeFree_iff.2 hfree), if_neg (resizeJoins_iff.2 hjoin),
        if_pos (show homed s (hPid h) _ = true from hhome)]
      exact answered_pactDone 3
  case coreReset =>
    have hpact : pact s qp pkg h = pactCoreReset s qp pkg h := pact_coreReset ha
    refine ⟨fun hd => ?_, fun p hm hp => ⟨fun (hin : ∃ sl ∈ resetSlabs pkg h p, inAction s sl = true) => ?_,
      fun (hout : ∀ sl ∈ resetSlabs pkg h p, inAction s sl = false) (hother : ∃ sl ∈ resetSlabs pkg h p, sl ∉ p.slabs) => ?_⟩⟩ <;>
      simp only [no, hpact]
    · rw [pactCoreReset_denied hd]; exact answered_pactDone 7
    · rw [pactCoreReset_named hm hp, if_pos (List.any_eq_true.2 hin)]; exact answered_pactDone 2
    · rw [pactCoreReset_named hm hp, if_neg (resetFree_iff.2 hout), if_pos (by simpa using hother)]
      exact answered_pactDone 4
  case whole =>
    have hpact : pact s qp pkg h = pactWhole s qp pkg h act := pact_whole hor rfl
    refine ⟨fun hd => ?_, fun p hm hp hbusy => ?_⟩ <;> simp only [no, hpact]
    · rw [pactWhole_denied hd]; exact answered_pactDone 7
    · rw [pactWhole_named hm hp, if_pos (Option.isSome_iff_ne_none.2 hbusy)]; exact answered_pactDone 2

end Sys2Proof.Proofs

/-! The effects of a core reset and of a scrub (R31, R32). -/

namespace Sys2Proof.Proofs
open Sys2Proof.Machine Sys2Proof.Claims

section CoreReset
variable (s : State) (sl : SlabId)

theorem coreAt_clearCores (c : CoreId) : coreAt (clearCores s sl) c = if coreSlab c = sl then {} else coreAt s c := by
  have hcores : coreAt (clearCores s sl) c = (if (coreSlab c != sl) = true then lkp s.cores c else none).getD {} :=
    congrArg (Option.getD · _) (lkp_filter_key (fun c => coreSlab c != sl) s.cores c)
  rw [hcores]
  by_cases hc : coreSlab c = sl <;> simp [hc, coreAt, lkpD]

theorem clusterAt_clearCores (c : ClusterId) : clusterAt (clearCores s sl) c = if clusterSlab c = sl then {} else clusterAt s c := by
  have hclusters : clusterAt (clearCores s sl) c = (if (clusterSlab c != sl) = true then lkp s.clusters c else none).getD {} :=
    congrArg (Option.getD · _) (lkp_filter_key (fun c => clusterSlab c != sl) s.clusters c)
  rw [hclusters]
  by_cases hc : clusterSlab c = sl <;> simp [hc, clusterAt, lkpD]

/-- A slab whose engine queues and sends are empty (R31). -/
def emptyQueues (b : Slab) : Slab := { b with queues := [], armed := [], fired := [] }

theorem slabAt_clearCores (x : SlabId) : slabAt (clearCores s sl) x = if x = sl then emptyQueues (slabAt s x) else slabAt s x := by
  have hmap : (clearCores s sl).slabs = s.slabs.map fun b => (b.1, if b.1 = sl then emptyQueues b.2 else b.2) :=
    List.map_congr_left fun b _ => by
      by_cases hb : b.1 = sl
      · rw [if_pos hb, if_pos hb]; rfl
      · rw [if_neg hb, if_neg hb]
  rw [slabAt, hmap, lkpD, lkp_map_key (fun c b => if c = sl then emptyQueues b else b)]
  unfold slabAt lkpD
  cases lkp s.slabs x with
  | none => split <;> rfl
  | some b => rfl

theorem lkp_l2_clearCores (k : LineKey) : lkp (clearCores s sl).l2 k = (lkp s.l2 k).map (dropSlabRecs s sl k) :=
  lkp_map_key (dropSlabRecs s sl) s.l2 k

/-- Publishing the words of several tasks changes neither a line's version nor its home. -/
theorem publishAll_keeps (l : List Pend) (x : HLine) :
    (l.foldl (fun h p => publishWords h p.mask p.data p.tags) x).ver = x.ver ∧
    (l.foldl (fun h p => publishWords h p.mask p.data p.tags) x).home = x.home := by
  constructor
  · refine foldl_keeps (φ := HLine.ver) (fun _ _ => ?_) l x; rfl
  · refine foldl_keeps (φ := HLine.home) (fun _ _ => ?_) l x; rfl

/-- What a core reset leaves of a line: version and home, the registrations of other slabs' cores and of saved tasks, and the marks
of other slabs' entries (R31). -/
theorem dropSlabRecs_fields (k : LineKey) (l : HLine) :
    (dropSlabRecs s sl k l).ver = l.ver ∧ (dropSlabRecs s sl k l).home = l.home ∧
    (∀ r, r ∈ (dropSlabRecs s sl k l).recs ↔
      r ∈ l.recs ∧ ¬ (r.die = sl.die ∧ slabOfClus r.clus = sl.slab ∧ savedAway s k.pid r.task = false)) ∧
    (∀ m, m ∈ (dropSlabRecs s sl k l).marks ↔ m ∈ l.marks ∧ queueInSlab sl m.q = false) := by
  refine ⟨(publishAll_keeps _ l).1, (publishAll_keeps _ l).2, fun r => ?_, fun m => ?_⟩
  · simp [dropSlabRecs, imp_iff_not_or, or_assoc]
  · simp [dropSlabRecs]

/-- The launches that had a task or a crew on the slab (R31). -/
def endedLaunches (s : State) (sl : SlabId) : List (BitVec 32) :=
  ((((coresOfSlab sl).filterMap fun c => (coreAt s c).task).map (·.crew.lseq)) ++
    (clustersOfSlab sl).flatMap fun c => (clusterAt s c).crews.map (·.info.lseq)).eraseDups.filter (· != 0)

theorem mem_endedLaunches (n : BitVec 32) : n ∈ endedLaunches s sl ↔
    n ≠ 0 ∧ ((∃ c t, c ∈ coresOfSlab sl ∧ (coreAt s c).task = some t ∧ t.crew.lseq = n) ∨
      (∃ c ∈ clustersOfSlab sl, ∃ cr ∈ (clusterAt s c).crews, cr.info.lseq = n)) := by
  simp only [endedLaunches, List.mem_filter, List.mem_eraseDups, List.mem_append, List.mem_map, List.mem_filterMap, List.mem_flatMap,
    bne_iff_ne, and_comm (b := n ≠ 0)]
  refine and_congr_right fun _ => or_congr_left ⟨?_, ?_⟩
  · rintro ⟨t, ⟨c, hc, ht⟩, hn⟩; exact ⟨c, t, hc, ht, hn⟩
  · rintro ⟨c, t, hc, ht, hn⟩; exact ⟨t, ⟨c, hc, ht⟩, hn⟩

theorem coreReset_eq :
    let pid := (slabAt s sl).pid
    let lifted := (fencedCores s sl).map (fun i => (0, i)) ++ (fencedClusters s sl).map fun i => (1, i)
    let v := (endedLaunches s sl).foldl (fun acc n => abortLaunch acc pid n 10) (logUnits (clearCores s sl) sl 4 lifted)
    coreReset s sl = if pid ≠ 0 ∧ (dieAt v sl.die).live = true then startSup v pid sl else v := by
  intro pid lifted v
  have hdef : coreReset s sl = if pid = 0 then v else supOn v pid sl := rfl
  rw [hdef]
  by_cases hpid : pid = 0
  · rw [if_pos hpid, if_neg fun h => h.1 hpid]
  · rw [if_neg hpid, supOn]
    exact if_congr ⟨fun hlive => ⟨hpid, hlive⟩, And.right⟩ rfl rfl

end CoreReset

theorem coreResetEffect : CoreResetEffect := by
  intro s sl u
  refine ⟨coreAt_clearCores s sl, clusterAt_clearCores s sl, ?own, fun x hx => ?other, rfl, rfl, rfl, fun k l hl => ?lines,
    endedLaunches s sl, (nodup_eraseDups _).filter _, mem_endedLaunches s sl, coreReset_eq s sl⟩
  case own => exact (slabAt_clearCores s sl sl).trans (if_pos rfl)
  case other => exact (slabAt_clearCores s sl x).trans (if_neg hx)
  case lines =>
    refine ⟨dropSlabRecs s sl k l, ?_, dropSlabRecs_fields s sl k l⟩
    rw [lkp_l2_clearCores, hl]
    rfl

/-! ### The fault log writes no other field of a slab -/

section Log

/-- A slab without what the fault log and fired sends change of it. -/
def stripLog (b : Slab) : Slab := { b with flLost := 0, flTail := 0, flHeld := 0, logbuf := [], armed := [], fired := [] }

/-- Every slab is as it was but for its log and its armed and fired sends. -/
def SameButLog (s t : State) : Prop := ∀ x, stripLog (slabAt t x) = stripLog (slabAt s x)

variable {s t u : State}

theorem SameButLog.trans (h : SameButLog s t) (h' : SameButLog t u) : SameButLog s u := fun x => (h' x).trans (h x)

theorem SameButLog.of_slabs (h : t.slabs = s.slabs) : SameButLog s t := fun x => by unfold slabAt; rw [h]

theorem sameButLog_modSlab (s : State) (sl : SlabId) {f : Slab → Slab} (hf : ∀ b, stripLog (f b) = stripLog b) :
    SameButLog s (modSlab s sl f) := by
  intro x
  rw [slabAt_modSlab]
  split
  · exact hf _
  · rfl

theorem sameButLog_foldl {β : Type} {g : State → β → State} (hg : ∀ a x, SameButLog a (g a x)) (l : List β) (s : State) :
    SameButLog s (l.foldl g s) := by
  induction l generalizing s with
  | nil => exact fun _ => rfl
  | cons x r ih => exact (hg s x).trans (ih _)

theorem sameButLog_wakeIdle (s : State) (c : ClusterId) (n : Nat) : SameButLog s (wakeIdle s c n) := by
  apply SameButLog.of_slabs
  unfold wakeIdle
  dsimp only
  split <;> rfl

theorem sameButLog_fireArmed (s : State) (c : ClusterId) (n : Nat) : SameButLog s (fireArmed s c n) := by
  unfold fireArmed
  dsimp only
  split
  · exact sameButLog_modSlab s _ fun _ => rfl
  · exact fun _ => rfl

theorem sameButLog_addSem (s : State) (c : ClusterId) (n : Nat) (v : BitVec 32) : SameButLog s (addSem s c n v) := by
  unfold addSem setSem
  refine SameButLog.trans (t := if semAt s c n + v = semAt s c n then s else wakeIdle s c n) ?_ ?_
  · split
    · exact fun _ => rfl
    · exact sameButLog_wakeIdle s c n
  · exact SameButLog.trans (SameButLog.of_slabs rfl) (sameButLog_fireArmed _ c n)

theorem hwWrite_slabs (s : State) (pid oid : BitVec 32) (line off pa : Nat) (b : List Byte) :
    (hwWrite s pid oid line off pa b).slabs = s.slabs := physWrite_slabs b s pa

theorem sameButLog_logCell (s : State) (pid : BitVec 32) (sl : SlabId) (n k : Nat) (e : BitVec 256) :
    SameButLog s (logCell s pid sl n k e) := by
  unfold logCell
  exact SameButLog.trans (SameButLog.of_slabs (hwWrite_slabs ..)) (sameButLog_modSlab _ _ fun _ => rfl)

theorem sameButLog_logPosted (s : State) (sl : SlabId) : SameButLog s (logPosted s sl) := by
  unfold logPosted
  dsimp only
  have hmod : SameButLog s (modSlab s sl fun b => { b with flTail := b.flTail + 1 }) := sameButLog_modSlab s sl fun _ => rfl
  split
  · exact hmod.trans (sameButLog_addSem _ _ _ _)
  · exact hmod

theorem sameButLog_flushLog (s : State) (pid : BitVec 32) (sl : SlabId) : SameButLog s (flushLog s pid sl) := by
  unfold flushLog
  split
  · exact fun _ => rfl
  · refine SameButLog.trans (sameButLog_modSlab s sl fun _ => ?_) (sameButLog_foldl (fun _ _ => sameButLog_logCell _ _ _ _ _ _) _ _)
    rfl

theorem sameButLog_writeLog (s : State) (pid : BitVec 32) (d : DieId) (e : BitVec 256) : SameButLog s (writeLog s pid d e) := by
  unfold writeLog
  dsimp only
  split
  · exact SameButLog.of_slabs rfl
  · split
    · exact ((sameButLog_flushLog _ _ _).trans (sameButLog_logCell _ _ _ _ _ _)).trans (sameButLog_logPosted _ _)
    · refine SameButLog.trans (sameButLog_modSlab s _ fun b => ?_) (sameButLog_logPosted _ _)
      split <;> rfl

theorem sameButLog_logUnits (s : State) (sl : SlabId) (kind : Nat) (l : List (Nat × Nat)) : SameButLog s (logUnits s sl kind l) :=
  sameButLog_foldl (fun _ _ => sameButLog_writeLog _ _ _ _) l s

end Log

section Scrub
variable (s : State) (sl : SlabId)

/-- The scrubbed slab is a fresh one, but for its log. -/
theorem stripLog_scrubSlab : stripLog (slabAt (scrubSlab s sl) sl) = stripLog (freshSlab s.ck (slabAt s sl)) := by
  have hlog := sameButLog_logUnits (modSlab s sl (freshSlab s.ck)) sl 4
    ((slabAt s sl).fencedSlices.map (fun i => (2, 80 * sl.slab + i)) ++ (slabAt s sl).fencedChans.map fun c => (3, physChannel sl c)) sl
  rw [slabAt_modSlab, if_pos rfl] at hlog
  exact hlog

end Scrub

theorem scrubEffect : ScrubEffect := by
  intro s sl t b c
  have hfresh : stripLog c = stripLog (freshSlab s.ck b) := stripLog_scrubSlab s sl
  have hkeeps : ∀ {α : Type} (φ : Slab → α), φ (stripLog c) = φ (stripLog (freshSlab s.ck b)) := fun φ => congrArg φ hfresh
  refine ⟨fun a ha => ?mem, ?tags, ?l2, hkeeps (·.pid), hkeeps (·.otbase), hkeeps (·.prio), hkeeps (·.prioNow), hkeeps (·.fence),
    hkeeps (·.drain), hkeeps (·.wdog), hkeeps (·.fq), hkeeps (·.flog), hkeeps (·.save), hkeeps (·.images), hkeeps (·.pending),
    hkeeps (·.lode), hkeeps (·.queues), hkeeps (·.shcache), hkeeps (·.fencedSlices), hkeeps (·.fencedChans), fun k hk => ?buckets,
    ?barriers, ?recs⟩
  case mem => exact memByte_filter_out (p := fun a => !inSlabHbm sl a) (by simp [ha]) _
  case tags =>
    intro g hg
    simpa using (List.mem_filter.1 hg).2
  case l2 =>
    intro kl hkl
    simpa using (List.mem_filter.1 hkl).2
  case buckets =>
    rw [show c.buckets = (List.range 3).map fun k => bitsN b.prio (20 * k + 10) 10 from hkeeps (·.buckets)]
    simp [List.getD, hk]
  case barriers =>
    intro x hx
    rw [show (dieAt t sl.die).barriers = _ from congrArg Die.barriers (dieAt_setDie_same ..)] at hx
    simpa using (List.mem_filter.1 hx).2
  case recs =>
    intro x hx
    rw [show (dieAt t sl.die).recs = _ from congrArg Die.recs (dieAt_setDie_same ..)] at hx
    simpa using (List.mem_filter.1 hx).2

end Sys2Proof.Proofs

/-! Requests that act, and the steps of an action (R33, R355, R358, R373). -/

namespace Sys2Proof.Proofs
open Sys2Proof.Machine Sys2Proof.Claims

section Requests
variable {s : State} {qp : Option Nat} {pkg : DieId} {h : BitVec 256} {i : Instr} {act : Nat}

/-- A PACT event and its ACT (R358). -/
def IsPact (qp : Option Nat) (pkg : DieId) (h : BitVec 256) (x : Instr × Nat) : Prop :=
  x ∈ [(Instr.pactCreate qp pkg h, 1), (.pactResize qp pkg h, 2), (.pactCoreReset qp pkg h, 3), (.pactUncoreReset qp pkg h, 4),
    (.pactDestroy qp pkg h, 5)]

theorem exec_pactEvent (hi : IsPact qp pkg h (i, act)) : exec i s = .next (pactEvent act qp pkg h s) := by
  simp only [IsPact, List.mem_cons, List.not_mem_nil, or_false, Prod.mk.injEq] at hi
  rcases hi with ⟨rfl, rfl⟩ | ⟨rfl, rfl⟩ | ⟨rfl, rfl⟩ | ⟨rfl, rfl⟩ | ⟨rfl, rfl⟩ <;> rfl

/-- The management port acts on a request inside its session while the package's firmware runs (R360, R363). -/
theorem exec_pact_management (hi : IsPact none pkg h (i, act)) (hses : (pkgAt s pkg).session = true)
    (hfw : (pkgAt s pkg).fwstate = 0) (hok : cmdOk h = true) (hop : bitsN h 248 8 = 5) (hact : bitsN h 204 4 = act) :
    exec i s = .next (pact s none pkg h) := by
  rw [exec_pactEvent hi]
  simp [pactEvent, request, mgmtOpen, hAct, hOp, hses, hfw, hok, hop, hact]

theorem modQp_congr {n : Nat} {f g : QPair → QPair} (hfg : f (qpAt s n) = g (qpAt s n)) : modQp s n f = modQp s n g :=
  congrArg (fun q => setPkg s (qpPkg n) { pkgAt s (qpPkg n) with qps := ins (pkgAt s (qpPkg n)).qps (qpNo n) q }) hfg

theorem qpAt_modQp_same (s : State) (n : Nat) (f : QPair → QPair) : qpAt (modQp s n f) n = f (qpAt s n) := by
  simp [qpAt, modQp, modPkg]

/-- The state with the command alone in the pair's send queue. -/
def queuedAlone (s : State) (n : Nat) (h : BitVec 256) : State :=
  modQp s n fun q => { q with waiting := [{ hdr := h, body := 0 }], sqTail := q.sqTail + 1 }

/-- A command that is alone and acts at once leaves its queue (R355). -/
theorem settle_alone {n : Nat} {c : HostCmd} {t : State} (hw : (qpAt s n).waiting = [c]) (hact : actCmd s n c = (t, true)) :
    settle s n = popCmd t n := by
  simp [settle, hw, runQueue, hact]

/-- An assigned pair in no error state, of a package that is up, takes a command behind those that wait (R354, R355). -/
theorem takeCmd_open {n : Nat} {c : HostCmd} (hup : portUp s (qpPkg n) = true) (hpid : (qpAt s n).pid ≠ 0) (herr : (qpAt s n).error = false)
    (hroom : (qpAt s n).waiting.length < 256) :
    takeCmd s n c = settle (modQp s n fun q => { q with waiting := q.waiting ++ [c], sqTail := q.sqTail + 1 }) n := by
  unfold takeCmd
  dsimp only
  rw [if_neg (by simp [hup]), if_neg hpid, if_neg (by simp [herr]), if_neg (by omega)]

/-- A PACT that comes to an empty queue of an assigned pair acts at once (R355, R358). -/
theorem pactEvent_pair {n : Nat} (hfw : (pkgAt s (qpPkg n)).fwstate = 0) (htrip : (pkgAt s (qpPkg n)).tripped = false)
    (hpid : (qpAt s n).pid ≠ 0) (herr : (qpAt s n).error = false) (hw : (qpAt s n).waiting = []) (hok : cmdOk h = true)
    (hop : bitsN h 248 8 = 5) (hact : bitsN h 204 4 = act) :
    pactEvent act (some n) pkg h s = popCmd (pact (queuedAlone s n h) (some n) (qpPkg n) h) n := by
  have hhost : pactEvent act (some n) pkg h s = hostCmd s n 5 h 0 := if_pos hact
  have htake : hostCmd s n 5 h 0 = takeCmd s n { hdr := h, body := 0 } := if_pos (by simp [hOp, hop, hok])
  have hqueue : modQp s n (fun q => { q with waiting := q.waiting ++ [{ hdr := h, body := 0 }], sqTail := q.sqTail + 1 }) =
      queuedAlone s n h := modQp_congr (by rw [hw]; rfl)
  rw [hhost, htake, takeCmd_open (by simp [portUp, hfw, htrip]) hpid herr (by simp [hw]), hqueue]
  refine settle_alone (c := { hdr := h, body := 0 }) (congrArg QPair.waiting (qpAt_modQp_same s n _)) ?_
  simp [actCmd, hok, hOp, hop]

theorem beginAction_drains {pid : BitVec 32} {p : Part} {a : Action} (hk : a.kill = false) :
    beginAction s pid p a = setPart s pid { p with action := some a } := by
  simp [beginAction, hk]

/-- A create without KILL installs the partition with its action and takes the pairs. -/
theorem pactCreate_installs {x : Shape} (hm : MayCreate s qp h) (hx : shapeOf pkg (hLo h) (hHi h) (hMask h) = some x)
    (hw : breaksWrap s x = false) (hfree : ∀ sl ∈ x.slabs, inAction s sl = false ∧ slabTaken s sl = false)
    (hq : hNqp h ≤ (freePairs s pkg).length) (hk : hKill h = false) :
    pactCreate s qp pkg h = setPart (assignPairs s pkg (hPid h) ((freePairs s pkg).take (hNqp h))) (hPid h)
      { createdPart s x with action := some (createAction qp pkg h x) } := by
  rw [pactCreate_begins hm hx hw hfree hq, beginAction_drains hk]

/-- Each pair that the create takes belongs to the partition (R355). -/
theorem assignPairs_pid {pid : BitVec 32} {own : List Nat} {j : Nat} (hj : j ∈ own) :
    (lkpD (pkgAt (assignPairs s pkg pid own) pkg).qps j {}).pid = pid := by
  have hfold : ∀ (l : List Nat) (m : AMap Nat QPair), j ∈ l ∨ (lkpD m j {}).pid = pid →
      (lkpD (l.foldl (fun m i => upd m i {} fun q => { q with pid := pid }) m) j {}).pid = pid := by
    intro l
    induction l with
    | nil => exact fun m hm => hm.resolve_left (List.not_mem_nil)
    | cons i r ih =>
      intro m hm
      refine ih _ ?_
      by_cases hji : j = i
      · subst hji; right; simp [upd]
      · rcases hm with hm | hm
        · exact .inl ((List.mem_cons.1 hm).resolve_left hji)
        · right; exact (congrArg QPair.pid (lkpD_ins_ne _ _ _ hji)).trans hm
  rw [assignPairs, modPkg, pkgAt_setPkg_same]
  exact hfold own _ (.inl hj)

end Requests

theorem pactOnPair : PactOnPair := by
  intro s n pkg h i act hi hact hop hok hfw htrip hpid herr hw s1
  refine ⟨(exec_pactEvent hi).trans (congrArg _ (pactEvent_pair hfw htrip hpid herr hw hok hop hact)), ?_⟩
  intro hcreate hadmin hne hnone hkill x hx hwrap hfree hpairs
  have hmay : MayCreate s1 (some n) h := by
    refine ⟨hne, hnone, fun m hm => ?_⟩
    obtain rfl := Option.some.inj hm
    exact (congrArg QPair.admin (qpAt_modQp_same s n _)).trans hadmin
  refine ⟨{ createdPart s1 x with action := some (createAction (some n) (qpPkg n) h x) }, createAction (some n) (qpPkg n) h x, ?_,
    rfl, rfl, rfl, rfl⟩
  rw [pact_create (hact.trans hcreate), pactCreate_installs hmay hx hwrap hfree hpairs hkill]
  exact partAt_setPart_same ..

section Drain
variable {s : State} {pid : BitVec 32} {p : Part} {a : Action}

theorem exec_drainDone_fences (hp : partAt s pid = some p) (ha : p.action = some a) (hstep : a.step = 1) (hl : p.launches = []) :
    exec (.partitionDrainDone pid) s = .next (a.slabs.foldl fenceSlab (setPart s pid { p with action := some { a with step := 2 } })) := by
  change execPartitionDrainDone pid s = _
  simp [execPartitionDrainDone, hp, ha, hstep, hl]

theorem exec_drainDone_waits (hp : partAt s pid = some p) (ha : p.action = some a) (hl : p.launches ≠ []) :
    exec (.partitionDrainDone pid) s = .next s := by
  change execPartitionDrainDone pid s = _
  simp [execPartitionDrainDone, hp, ha, hl]

theorem fenceSlab_parts (s : State) (sl : SlabId) : (fenceSlab s sl).parts = s.parts :=
  foldl_keeps (φ := State.parts) (g := fun acc (x : (DieId × DieId) × Pair) => dropDemands acc x.1.1 x.1.2) (fun _ _ => rfl) _ _

theorem slabAt_fenceSlab (s : State) (sl x : SlabId) :
    slabAt (fenceSlab s sl) x = if x = sl then { slabAt s x with fence := true } else slabAt s x :=
  (foldl_keeps (φ := fun t => slabAt t x) (g := fun acc (x : (DieId × DieId) × Pair) => dropDemands acc x.1.1 x.1.2)
    (fun _ _ => rfl) _ _).trans (slabAt_modSlab ..)

/-- Every slab of the action is fenced (R35). -/
theorem fence_foldl_fenceSlab {x : SlabId} (l : List SlabId) (s : State) (hx : x ∈ l ∨ (slabAt s x).fence = true) :
    (slabAt (l.foldl fenceSlab s) x).fence = true := by
  induction l generalizing s with
  | nil => exact hx.resolve_left List.not_mem_nil
  | cons y r ih =>
    refine ih _ ?_
    rw [slabAt_fenceSlab]
    by_cases hxy : x = y
    · exact .inr (by rw [if_pos hxy])
    · rw [if_neg hxy]
      exact hx.imp_left fun hm => (List.mem_cons.1 hm).resolve_left hxy

end Drain

section Steps
variable {s : State} {pid : BitVec 32} {p : Part} {a : Action}

/-- The partition with its new secret and epoch, its action at step 4 (R372, R373); an uncore reset forgets what its slabs held. -/
def scrubbedPart (p : Part) (a : Action) (secret : BitVec 384) : Part :=
  { p with
    secret := secret, epoch := if a.act = 1 then 1 else nextEpoch p.epoch, action := some { a with step := 4 }
    scheds := if a.act = 4 then [] else p.scheds, follow := if a.act = 4 then [] else p.follow
    windowed := if a.act = 4 then [] else p.windowed, moving := if a.act = 4 then [] else p.moving
    lostTo := if a.act = 4 then [] else p.lostTo }

theorem exec_scrubComplete (hp : partAt s pid = some p) (ha : p.action = some a) (hstep : a.step = 3) (secret : BitVec 384) :
    exec (.scrubComplete pid secret) s =
      .next (setPart (a.slabs.foldl (fun acc sl => scrubSlab (clearCores acc sl) sl) s) pid (scrubbedPart p a secret)) := by
  change execScrubComplete pid secret s = _
  by_cases hact : a.act = 4 <;> simp [execScrubComplete, hp, ha, hstep, scrubbedPart, hact]

theorem scrubbedPart_epoch (p : Part) (a : Action) (secret : BitVec 384) :
    (a.act = 1 → (scrubbedPart p a secret).epoch = 1) ∧
    (a.act ≠ 1 → (scrubbedPart p a secret).epoch = if p.epoch = 63 then 1 else p.epoch + 1) :=
  ⟨fun h => if_pos h, fun h => if_neg h⟩

theorem step_partStep {r : List Turn} (hr : s.agenda = .partStep pid :: r) :
    step s = .next (settled (partStep { s with agenda := r } pid)) := by
  unfold step
  rw [hr]

theorem partStep_scrub (hp : partAt s pid = some p) (ha : p.action = some a) (hstep : a.step = 2) :
    partStep s pid = setPart s pid { p with action := some { a with step := 3 } } := by
  simp [partStep, hp, ha, hstep]

theorem partStep_reassign (hp : partAt s pid = some p) (ha : p.action = some a) (hstep : a.step = 4) (hact : a.act ≠ 5) :
    partStep s pid = pactDone (reassign s pid p a) a.qp a.pkg a.ctag 0 := by
  simp [partStep, hp, ha, hstep, hact]

/-- The state in which a destroyed partition's slabs are free, before its queue pairs are. -/
def freedSlabs (s : State) (a : Action) : State :=
  a.slabs.foldl (fun acc sl => modSlab acc sl fun _ => idleSlab s sl) (pactDone s a.qp a.pkg a.ctag 0)

theorem freedSlabs_parts (s : State) (a : Action) : (freedSlabs s a).parts = s.parts :=
  (foldl_keeps (φ := State.parts) (g := fun acc sl => modSlab acc sl fun _ => idleSlab s sl) (fun _ _ => rfl) _ _).trans (pactDone_parts ..)

theorem partStep_destroy (hp : partAt s pid = some p) (ha : p.action = some a) (hstep : a.step = 4) (hact : a.act = 5) :
    partStep s pid = freeQps { freedSlabs s a with parts := del s.parts pid } pid := by
  rw [← freedSlabs_parts s a]
  simp [partStep, hp, ha, hstep, hact, freedSlabs]

/-- No pair and no region belongs to a destroyed partition (R355, R373). -/
theorem freeQps_frees (hpid : pid ≠ 0) : ∀ k ∈ (freeQps s pid).pkgs, (∀ q ∈ k.2.qps, q.2.pid ≠ pid) ∧ ∀ r ∈ k.2.regions, r.pid ≠ pid := by
  intro k hk
  obtain ⟨k0, -, rfl⟩ := List.mem_map.1 hk
  refine ⟨fun q hq => ?_, fun r hr => ?_⟩
  · obtain ⟨q0, -, rfl⟩ := List.mem_map.1 hq
    split
    · exact hpid.symm
    · assumption
  · simpa using (List.mem_filter.1 hr).2

end Steps


/-- Settles O59: refusals, the effect of each reset, each request that acts and each step of its action. -/
theorem partitionActions : Obligations.PartitionActions := by
  refine ⟨pactRefusals, pactOnPair, coreResetEffect, scrubEffect, ?requests, ?steps⟩
  case requests =>
    intro s pkg h hses hfw hok hop pid kill begun
    have hrun : ∀ {i act}, IsPact none pkg h (i, act) → bitsN h 204 4 = act → exec i s = .next (pact s none pkg h) :=
      fun hi hact => exec_pact_management hi hses hfw hok hop hact
    have hany : ∀ {q : BitVec 32} (n : Nat), none = some n → (qpAt s n).pid = q := fun _ hn => nomatch hn
    refine ⟨fun hact hpid hnone x hx hwrap hfree hpairs hkill => ?create,
      fun p hpid hp hidle => ⟨fun hact x hx hwrap hfree hjoin hhome hkill => ?resize, fun i act hi hact => ?whole, fun hact => ?coreReset⟩⟩
    case create =>
      have hpact := pactCreate_installs (qp := none) ⟨hpid, hnone, nofun⟩ hx hwrap hfree hpairs hkill
      exact ⟨_, { createdPart s x with action := some (createAction none pkg h x) }, createAction none pkg h x,
        (hrun (by simp [IsPact]) hact).trans (congrArg _ ((pact_create hact).trans hpact)), partAt_setPart_same .., rfl, rfl, rfl, rfl, rfl,
        rfl, rfl, rfl, fun j hj => assignPairs_pid hj⟩
    case resize =>
      refine ⟨resizeAction none pkg h p x, (hrun (by simp [IsPact]) hact).trans ?_, rfl, rfl, rfl, fun sl => mem_resizeAction_slabs⟩
      rw [pact_resize hact, pactResize_shaped hany hp hx, if_neg (by simp [hwrap]), if_neg (resizeFree_iff.2 ⟨hidle, hfree⟩),
        if_neg (resizeJoins_iff.2 hjoin), if_neg (show ¬ homed s (hPid h) _ = true from Bool.eq_false_iff.1 hhome),
        beginAction_drains hkill]
      rfl
    case whole =>
      have hor : act = 4 ∨ act = 5 := by
        simp only [List.mem_cons, List.not_mem_nil, or_false, Prod.mk.injEq] at hi
        exact hi.imp And.right And.right
      have hmem : IsPact none pkg h (i, act) := List.mem_of_mem_drop (i := 3) hi
      have hname : wholePid s none pkg h act = pid := by
        unfold wholePid
        rw [resetPid_named hpid, ite_self]
        rfl
      refine ⟨wholeAction none pkg h act p, rfl, rfl, rfl, rfl, (hrun hmem hact).trans ?_⟩
      rw [pact_whole hor hact, pactWhole_named hany (by rw [hname]; exact hp), if_neg (by simp [hidle]), hname]
      rfl
    case coreReset =>
      intro l (hl : ∀ sl ∈ resetSlabs pkg h p, inAction s sl = false ∧ sl ∈ p.slabs)
      refine (hrun (by simp [IsPact]) hact).trans ?_
      have hname : resetPid s none pkg h = pid := resetPid_named hpid
      rw [pact_coreReset hact, pactCoreReset_named hany (by rw [hname]; exact hp), if_neg (resetFree_iff.2 fun sl hsl => (hl sl hsl).1),
        if_neg (resetHeld_iff.2 fun sl hsl => (hl sl hsl).2)]
      rfl
  case steps =>
    intro s pid p a hp ha
    refine ⟨fun hstep hl => ?fences, fun _ hl => exec_drainDone_waits hp ha hl, fun hstep r hr => ?scrubs,
      fun hstep secret => ⟨scrubbedPart p a secret, exec_scrubComplete hp ha hstep secret, rfl, rfl,
        (scrubbedPart_epoch p a secret).1, (scrubbedPart_epoch p a secret).2, rfl, rfl⟩,
      fun hstep r hr => ⟨fun hact => ?destroys, fun hact => ?reassigns⟩⟩
    case fences =>
      refine ⟨_, exec_drainDone_fences hp ha hstep hl, ?_, fun sl hsl => fence_foldl_fenceSlab _ _ (.inl hsl)⟩
      exact (congrArg (lkp · pid) (foldl_keeps (φ := State.parts) fenceSlab_parts _ _)).trans (partAt_setPart_same ..)
    case scrubs =>
      rw [step_partStep hr, partStep_scrub (s := { s with agenda := r }) hp ha hstep]
    case destroys =>
      refine ⟨_, step_partStep hr, ?_⟩
      rw [partStep_destroy (s := { s with agenda := r }) hp ha hstep hact]
      exact ⟨rfl, freeQps_frees⟩
    case reassigns =>
      rw [step_partStep hr, partStep_reassign (s := { s with agenda := r }) hp ha hstep hact]
      exact ⟨fun hq => by rw [hq]; rfl, fun n hq => by rw [hq]; rfl⟩

end Sys2Proof.Proofs

/-! Lanes of a register, digit by digit (R228, R229), and predicates from bits. -/

namespace Sys2Proof.Proofs
open Sys2Proof.Machine Sys2Proof.Claims

section Lanes
variable {n w : Nat}

/-- Digit `k` of the number with the digits `l` to the base 2^w. -/
theorem digit_foldr (w : Nat) (l : List Nat) (k : Nat) :
    l.foldr (fun x acc => x % 2 ^ w + 2 ^ w * acc) 0 / 2 ^ (w * k) % 2 ^ w = l.getD k 0 % 2 ^ w := by
  have hpos : 0 < 2 ^ w := Nat.two_pow_pos w
  induction l generalizing k with
  | nil => simp
  | cons x r ih =>
    cases k with
    | zero => simp
    | succ k =>
      rw [List.foldr_cons, Nat.mul_succ, Nat.add_comm (w * k), pow_add, ← Nat.div_div_eq_div_mul, Nat.add_mul_div_left _ _ hpos,
        Nat.div_eq_of_lt (Nat.mod_lt _ hpos), Nat.zero_add]
      exact ih k

theorem lane_lt (v : BitVec n) (k : Nat) : lane w v k < 2 ^ w := bitsN_lt ..

theorem lane_ofNat {k : Nat} (h : w * k + w ≤ n) (x : Nat) : lane w (BitVec.ofNat n x) k = x / 2 ^ (w * k) % 2 ^ w := bitsN_ofNat h x

theorem lane_ofLanes {k : Nat} (h : w * k + w ≤ n) (l : List Nat) : lane w (ofLanes n w l) k = l.getD k 0 % 2 ^ w :=
  (lane_ofNat h _).trans (digit_foldr w l k)

theorem lane_setLane_same {k : Nat} (h : w * k + w ≤ n) (v : BitVec n) (x : Nat) : lane w (setLane w v k x) k = x % 2 ^ w := by
  have hmod : setLane w v k x = setBits v (w * k) w (x % 2 ^ w) := by simp [setLane, setBits]
  rw [lane, hmod, bitsN_setBits_same v h (Nat.mod_lt _ (Nat.two_pow_pos w))]

theorem lane_setLane_ne {j k : Nat} (hjk : j ≠ k) (v : BitVec n) (x : Nat) : lane w (setLane w v k x) j = lane w v j := by
  refine bitsN_inj.2 (BitVec.eq_of_getLsbD_eq fun i hi => ?_)
  simp only [BitVec.getLsbD_extractLsb', hi, decide_true, Bool.true_and]
  by_cases hn : w * j + i < n
  · refine (getLsbD_setBits v (w * k) w x hn).trans (if_neg ?_)
    rcases Nat.lt_or_gt_of_ne hjk with hlt | hlt
    all_goals
      have hle := Nat.mul_le_mul_left w (Nat.succ_le_of_lt hlt)
      rw [Nat.mul_succ] at hle
      omega
  · rw [BitVec.getLsbD_of_ge _ _ (by omega), BitVec.getLsbD_of_ge _ _ (by omega)]

/-- A lane of a register lies inside it. -/
theorem lane_fits {k : Nat} (h : k < n / w) : w * k + w ≤ n := by
  rw [← Nat.mul_succ, Nat.mul_comm]
  exact Nat.mul_le_of_le_div _ _ _ h

theorem lane_ofLanes_map {k : Nat} (h : k < n / w) (g : Nat → Nat) :
    lane w (ofLanes n w ((List.range (n / w)).map g)) k = g k % 2 ^ w := by
  rw [lane_ofLanes (lane_fits h)]
  simp [List.getD, h]

theorem ite_lane_mod {p : Prop} [Decidable p] (x : Nat) (v : BitVec n) (k : Nat) :
    (if p then x else lane w v k) % 2 ^ w = if p then x % 2 ^ w else lane w v k := by
  rw [apply_ite (· % 2 ^ w), Nat.mod_eq_of_lt (lane_lt v k)]

/-- Active lanes take the new value, the others keep theirs (R229). -/
theorem lane_mergeLanes {k : Nat} (h : k < 1024 / w) (p : BitVec 32) (prior : VReg) (g : Nat → Nat) :
    lane w (mergeLanes p w prior g) k = if active p w k then g k % 2 ^ w else lane w prior k :=
  (lane_ofLanes_map h _).trans (ite_lane_mod ..)

end Lanes

section Bits
variable (bit : Nat → Bool)

/-- The number whose bits below `n` are `bit`. -/
def bitSum (n : Nat) : Nat := (List.range n).foldl (fun a g => if bit g then a + 2 ^ g else a) 0

theorem bitSum_succ (n : Nat) : bitSum bit (n + 1) = if bit n then bitSum bit n + 2 ^ n else bitSum bit n := by
  simp [bitSum, List.range_succ]

theorem bitSum_lt (n : Nat) : bitSum bit n < 2 ^ n := by
  induction n with
  | zero => simp [bitSum]
  | succ n ih =>
    rw [bitSum_succ]
    split <;> omega

theorem testBit_bitSum (n g : Nat) : (bitSum bit n).testBit g = (decide (g < n) && bit g) := by
  induction n with
  | zero => simp [bitSum]
  | succ n ih =>
    rw [bitSum_succ]
    rcases Nat.lt_trichotomy g n with hg | rfl | hg
    case inl =>
      have hstep : (if bit n then bitSum bit n + 2 ^ n else bitSum bit n).testBit g = (bitSum bit n).testBit g := by
        split
        · rw [Nat.add_comm, Nat.testBit_two_pow_add_gt hg]
        · rfl
      rw [hstep, ih]
      simp [hg, Nat.lt_succ_of_lt hg]
    case inr.inl =>
      split
      case isTrue hb => rw [Nat.add_comm, Nat.testBit_two_pow_add_eq, ih]; simp [hb]
      case isFalse hb => rw [ih]; simp [hb]
    case inr.inr =>
      have hlt := bitSum_succ bit n ▸ (bitSum_lt bit (n + 1)).trans_le (Nat.pow_le_pow_right (by decide) hg)
      rw [Nat.testBit_eq_false_of_lt hlt]
      simp [show ¬ g < n + 1 by omega]

theorem getLsbD_bitSum {n g : Nat} (h : g < n) : (BitVec.ofNat n (bitSum bit n)).getLsbD g = bit g := by
  rw [BitVec.getLsbD_ofNat, testBit_bitSum]
  simp [h]

end Bits

/-- Seeding or clearing keys below `n` one after the other. -/
theorem lkpD_foldl_ins {α : Type} (p : Nat → Bool) (v : Nat → α) (m : AMap Nat α) (d : α) (n j : Nat) :
    lkpD ((List.range n).foldl (fun m g => if p g then ins m g (v g) else m) m) j d =
      if j < n ∧ p j = true then v j else lkpD m j d := by
  induction n with
  | zero => simp
  | succ n ih =>
    rw [List.range_succ, List.foldl_append, List.foldl_cons, List.foldl_nil]
    by_cases hj : j = n
    · subst hj
      by_cases hp : p j = true
      · simp [hp]
      · simp [hp, ih]
    · have hlt : j < n + 1 ↔ j < n := by omega
      by_cases hp : p n = true
      · simp [hp, lkpD_ins_ne _ _ _ hj, ih, hlt]
      · simp [hp, ih, hlt]

/-- A change of a core's task is what it makes of the task that stands there. -/
theorem modTask_congr {s : State} {h : Here} (hh : here s = some h) {f g : Task → Task} (hfg : f h.t = g h.t) :
    modTask s h.core f = modTask s h.core g := by
  obtain ⟨hk, ht⟩ := here_core hh
  simp [modTask, modCore, hk, ht, hfg]

end Sys2Proof.Proofs

/-! Floating lane-wise forms: the special inputs, the accuracy table, the lanes (R229, R232 to R236, R239). -/

namespace Sys2Proof.Proofs
open Sys2Proof.Machine Sys2Proof.Claims

section Root

/-- Bit by bit, the root stays at or below √n and its distance below the weight of the bits still to come. -/
theorem isqrtGo_spec {n : Nat} (k r : Nat) (hlo : r * r ≤ n) (hhi : n < (r + 2 ^ k) * (r + 2 ^ k)) :
    isqrtGo n k r * isqrtGo n k r ≤ n ∧ n < (isqrtGo n k r + 1) * (isqrtGo n k r + 1) := by
  induction k generalizing r with
  | zero => exact ⟨hlo, by simpa [isqrtGo] using hhi⟩
  | succ k ih =>
    rw [isqrtGo]
    split
    case isTrue hle => exact ih _ hle (by rwa [Nat.add_assoc, ← Nat.two_mul, ← pow_succ'])
    case isFalse hgt => exact ih _ hlo (Nat.lt_of_not_le hgt)

theorem lt_two_pow_bitLen (m : Nat) : m < 2 ^ bitLen m := by
  unfold bitLen
  split
  case isTrue h => simp [h]
  case isFalse => exact Nat.lt_log2_self

theorem two_pow_bitLen_le {m : Nat} (h : m ≠ 0) : 2 ^ (bitLen m - 1) ≤ m := by
  simpa [bitLen, h] using Nat.log2_self_le h

theorem bitLen_two_pow (k : Nat) : bitLen (2 ^ k) = k + 1 := by simp [bitLen]

theorem bitLen_pos {m : Nat} (h : m ≠ 0) : 0 < bitLen m := by simp [bitLen, h]

/-- `isqrt` is the floor of the root. -/
theorem isqrt_spec (n : Nat) : isqrt n * isqrt n ≤ n ∧ n < (isqrt n + 1) * (isqrt n + 1) := by
  refine isqrtGo_spec _ 0 (Nat.zero_le n) ((lt_two_pow_bitLen n).trans_le ?_)
  rw [Nat.zero_add, ← pow_add]
  exact Nat.pow_le_pow_right (by decide) (by omega)

end Root

section Unary
variable {c : BitVec 4} {rm : RM} {bits m : Nat} {e : Int} {neg : Bool}

/-! `unaryF` by the kind of its input; for a finite input that is not zero, by the form. -/

theorem unaryF_nan (hx : decodeF c bits = .nan) (major : Nat) : unaryF major c rm bits = canonNaN c := by simp [unaryF, hx]

theorem unaryF_rcp (hx : decodeF c bits = .fin neg m e) (hm : m ≠ 0) : unaryF 0x6A c rm bits =
    if c = 2 ∨ c = 3 then roundF c .rne (ratVal neg 1 m (-e)) else boundedF 0x6A c bits 1 none (ratVal neg 1 m (-e)) := by
  simp [unaryF, hx]

theorem unaryF_rsq (hx : decodeF c bits = .fin neg m e) (hm : m ≠ 0) : unaryF 0x6B c rm bits =
    if neg then canonNaN c else boundedF 0x6B c bits (if c = 1 then 2 else 1) none (rsqVal m e) := by
  simp [unaryF, hx]

theorem unaryF_sqrt (hx : decodeF c bits = .fin neg m e) (hm : m ≠ 0) :
    unaryF 0x6C c rm bits = if neg then canonNaN c else roundF c rm (sqrtVal m e) := by
  simp [unaryF, hx]

theorem unaryF_exp2 (hx : decodeF c bits = .fin neg m e) (hm : m ≠ 0) : unaryF 0x6D c rm bits = roundF c .rne (exp2Val neg m e) := by
  simp [unaryF, hx]

theorem unaryF_log2 (hx : decodeF c bits = .fin neg m e) (hm : m ≠ 0) :
    unaryF 0x6E c rm bits = if neg then canonNaN c else roundF c .rne (log2Val m e) := by
  simp [unaryF, hx]

theorem unaryF_tanh (hx : decodeF c bits = .fin neg m e) (hm : m ≠ 0) :
    unaryF 0x6F c rm bits = boundedF 0x6F c bits (if c = 1 then 2 else 1) none (tanhVal neg m e) := by
  simp [unaryF, hx]

theorem unaryF_sin (hx : decodeF c bits = .fin neg m e) (hm : m ≠ 0) : unaryF 0x70 c rm bits =
    if multOf m e 0 then roundF c .rne (.fin neg 0 0)
    else boundedF 0x70 c bits 1 (if c = 1 then some (-22) else none) (sinPiFix neg (turnFix m e)) := by
  simp [unaryF, hx]

theorem unaryF_cos (hx : decodeF c bits = .fin neg m e) (hm : m ≠ 0) : unaryF 0x71 c rm bits =
    if multOf m e (-1) && !multOf m e 0 then roundF c .rne (.fin false 0 0)
    else boundedF 0x71 c bits 1 (if c = 1 then some (-22) else none) (sinPiFix false (turnFix m e + 2 ^ 319)) := by
  simp only [unaryF, hx]

theorem multOf_zero_iff : multOf m e 0 = true ↔ IsInt m e := by simp [multOf, IsInt]

theorem isHalf_iff : (multOf m e (-1) && !multOf m e 0) = true ↔ IsHalf m e := by
  rw [Bool.and_eq_true, Bool.not_eq_true', Bool.eq_false_iff, ne_eq, multOf_zero_iff, and_comm]
  simp [multOf, IsHalf]

/-- A bounded form gives the exact result rounded, or one within the bound of it (R235, log 9). -/
theorem bounded_of_eq {form ulps v : Nat} {absQ : Option Int} {exact : FVal} {q : Int} (hv : v = boundedF form c bits ulps absQ exact)
    (hex : exact = .fin neg m e) (hq : absQ.getD (ulpExp c m e) = q) :
    v = roundF c .rne exact ∨ ∃ y, v = roundF c .rne y ∧ withinF y exact ulps q = true := by
  subst hv hex hq
  simp only [boundedF]
  split
  case isTrue hin => exact .inr ⟨_, rfl, hin⟩
  case isFalse => exact .inl rfl

/-- The bound of VSIN and VCOS is absolute in FP32. -/
theorem getD_absolute (u : Int) : (if c = 1 then some (-22) else none).getD u = if c = 1 then -22 else u := by split <;> rfl

/-- 2 to an integer power is exact (R236). -/
theorem exp2Val_int {n : Nat} (hm : m ≠ 0) (he : -180 ≤ e) (hn : m * 2 ^ (e + 180).toNat = n * 2 ^ 180) (hlt : n < 4096) :
    exp2Val neg m e = .fin false 1 (if neg then -(n : Int) else n) := by
  have hlen : ¬ 13 ≤ e + bitLen m := by
    have hpow : 2 ^ (bitLen m - 1 + (e + 180).toNat) < 2 ^ 192 :=
      calc 2 ^ (bitLen m - 1 + (e + 180).toNat) = 2 ^ (bitLen m - 1) * 2 ^ (e + 180).toNat := pow_add ..
        _ ≤ m * 2 ^ (e + 180).toNat := Nat.mul_le_mul_right _ (two_pow_bitLen_le hm)
        _ = n * 2 ^ 180 := hn
        _ < 2 ^ 192 := by omega
    have := (Nat.pow_lt_pow_iff_right (by decide)).1 hpow
    have := bitLen_pos hm
    omega
  have hx : ∀ sg : Int, sg * ((n * 2 ^ 180 : Nat) : Int) = sg * n * (2 ^ 180 : Nat) := fun sg => by push_cast; ring
  have hpos : ((2 ^ 180 : Nat) : Int) ≠ 0 := by decide
  have hz : (-(e + 180)).toNat = 0 := by omega
  simp only [exp2Val, if_neg hlen, hn, hz, pow_zero, Nat.div_one, hx, Int.mul_ediv_cancel _ hpos, Int.mul_emod_left,
    Int.toNat_zero, if_true]
  cases neg <;> simp

/-- The logarithm of a power of two is exact (R236). -/
theorem log2Val_two_pow (k : Nat) : log2Val (2 ^ k) e = ofIntF (e + k) := by
  simp only [log2Val, bitLen_two_pow, Nat.add_sub_cancel, if_true]
  congr 1
  push_cast
  ring

end Unary

theorem specialInputs : SpecialInputs := by
  intro c rm bits
  refine ⟨fun hx => unaryF_nan hx, fun neg e hx => ?zero, fun neg hx => ?inf, fun m e hx hm => ?negative,
    fun neg m e n hx hm he hn hlt => ?exp2, fun m e k hx hm => ?log2, fun neg m e hx hm => ⟨fun hi => ?sin, fun hi => ?cos⟩⟩
  case zero => simp [unaryF, hx]
  case inf => simp [unaryF, hx]
  case negative => simp [unaryF_rsq hx hm, unaryF_sqrt hx hm, unaryF_log2 hx hm, roundF]
  case exp2 => exact (unaryF_exp2 hx hm).trans (congrArg _ (exp2Val_int hm he hn hlt))
  case log2 =>
    subst hm
    rw [unaryF_log2 hx (Nat.two_pow_pos k).ne', log2Val_two_pow, if_neg (by decide)]
  case sin => exact (unaryF_sin hx hm).trans (if_pos (multOf_zero_iff.2 hi))
  case cos => exact (unaryF_cos hx hm).trans (if_pos (isHalf_iff.2 hi))

theorem accuracyBounds : AccuracyBounds := by
  refine ⟨fun c rm bits neg m e hx hm => ?table, fun m e _ => ?root⟩
  case table =>
    refine ⟨fun hc => ?rcpNarrow, fun hc neg' m' e' hex => ?rcp, fun hneg => ⟨fun neg' m' e' hex => ?rsq, ?sqrt, ?log2⟩,
      unaryF_exp2 hx hm, fun neg' m' e' hex => ?tanh, fun hi neg' m' e' hex => ?sin, fun hi neg' m' e' hex => ?cos⟩
    case rcpNarrow => rw [unaryF_rcp hx hm, if_pos hc]
    case rcp =>
      have hwide : ¬ (c = 2 ∨ c = 3) := by rcases hc with rfl | rfl <;> decide
      exact bounded_of_eq ((unaryF_rcp hx hm).trans (if_neg hwide)) hex rfl
    case rsq => exact bounded_of_eq ((unaryF_rsq hx hm).trans (if_neg (by simp [hneg]))) hex rfl
    case sqrt => simp [unaryF_sqrt hx hm, hneg]
    case log2 => simp [unaryF_log2 hx hm, hneg]
    case tanh => exact bounded_of_eq (unaryF_tanh hx hm) hex rfl
    case sin => exact bounded_of_eq ((unaryF_sin hx hm).trans (if_neg (mt multOf_zero_iff.1 hi))) hex (getD_absolute _)
    case cos => exact bounded_of_eq ((unaryF_cos hx hm).trans (if_neg (mt isHalf_iff.1 hi))) hex (getD_absolute _)
  case root =>
    obtain ⟨hlo, hhi⟩ := isqrt_spec ((if e % 2 = 0 then m else 2 * m) * 2 ^ 320)
    exact ⟨_, hlo, hhi, rfl⟩

section Lanewise
variable {i : Instr} {f : FmtV} {s : State} {h : Here}

/-- A form that computes lane by lane writes each active lane (R229). -/
theorem laneWise_vLanes {g : Nat → Nat → Nat → Nat} (hx : exec i s = .next (vLanes f g s h)) :
    LaneWise i f s h fun k => g (lane (fmtWidth f.fmt) (readVS s h f.sa f.aux 1) k) (lane (fmtWidth f.fmt) (readVS s h f.sb f.aux 2) k)
      (lane (fmtWidth f.fmt) (readVS s h f.sc f.aux 3) k) :=
  ⟨_, hx, fun _ hk => lane_mergeLanes hk ..⟩

theorem toInt_ofNat_eq_readInt (w v : Nat) : (BitVec.ofNat w v).toInt = readInt true w v := by
  rw [BitVec.toInt_eq_toNat_cond, BitVec.toNat_ofNat, readInt]
  by_cases h : 2 ^ w ≤ 2 * (v % 2 ^ w)
  · simp [h, Nat.not_lt.2 h]
  · simp [h, Nat.lt_of_not_le h]

/-- A floating lane-wise form computes `floatOp` of its operands in each lane. -/
theorem exec_floatOp {n : Nat} (hf : floatOp i 0 0 0 0 = some (f, n)) (hr : Ready i s h) : ∃ g,
    exec i s = .next (vLanes f g s h) ∧ ∀ x y z, floatOp i x y z (rdG s h f.sb).toInt = some (f, g x y z) := by
  cases i with
  | vadd g | vsub g | vmul g | vfma g | vfms g | vnfma g | vmin g | vmax g | vrcp g | vrsq g | vsqrt g | vexp2 g | vlog2 g | vtanh g
  | vsin g | vcos g | vscale g =>
    obtain rfl : g = f := congrArg Prod.fst (Option.some.inj hf)
    exact ⟨_, onStrand_ready hr _, fun _ _ _ => rfl⟩
  | vscaleVec g =>
    obtain rfl : g = f := congrArg Prod.fst (Option.some.inj hf)
    exact ⟨_, onStrand_ready hr _, fun x y z => by simp only [floatOp, toInt_ofNat_eq_readInt]⟩
  | _ => exact nomatch hf

end Lanewise

/-- Settles O32: the tables of `unaryF` on its inputs, and every form computes `floatOp` in its active lanes. -/
theorem floatLanes : Obligations.FloatLanes := by
  refine ⟨specialInputs, accuracyBounds, fun i f n s h hf hr => ?_⟩
  obtain ⟨g, hx, hg⟩ := exec_floatOp hf hr
  simpa only [hg, Option.map_some, Option.getD_some] using laneWise_vLanes hx

end Sys2Proof.Proofs

/-! Comparison, reduction, conversion, seeding, softmax and quantisation (R46, R237, R238, R240, R241, R244, R254 to R257). -/

namespace Sys2Proof.Proofs
open Sys2Proof.Machine Sys2Proof.Claims

section Fields

theorem ready_fields {i : Instr} {s : State} {h : Here} (hr : Ready i s h) : fieldsOk i = true := by
  obtain ⟨-, -, -, -, -, hfields, -⟩ := hr
  exact hfields

/-- The format and the function of a vector form that passes check 6 of R173. -/
theorem vForm_fmt_fn {d a b k : Kind} {fmt : BitVec 4 → Bool} {rm : BitVec 3 → Bool} {fn : BitVec 5 → Bool} {ax : Aux} {pred : Bool}
    {lat : Option Nat} {f : FmtV} (h : vForm d a b k fmt rm fn ax pred lat f = true) : fmt f.fmt = true ∧ fn f.fn = true := by
  simp only [vForm, Bool.and_eq_true] at h
  obtain ⟨⟨⟨⟨⟨⟨-, hfmt⟩, -⟩, hfn⟩, -⟩, -⟩, -⟩ := h
  exact ⟨hfmt, hfn⟩

end Fields

section Bounds
variable {c : BitVec 4}

/-- The bits of the formats that arithmetic works in: their width, and that no magnitude reaches the sign bit (R37). -/
theorem ffmt_facts : ∀ c : BitVec 4, c.toNat ≤ 3 → fmtWidth c = (ffmt c).ew + (ffmt c).fw + 1 ∧ c ≠ 4 ∧ c ≠ 6 ∧
    canonNaN c < 2 ^ ((ffmt c).ew + (ffmt c).fw) ∧ (2 ^ (ffmt c).ew - 1) * 2 ^ (ffmt c).fw < 2 ^ ((ffmt c).ew + (ffmt c).fw) ∧
    maxFin c < 2 ^ ((ffmt c).ew + (ffmt c).fw) := by decide

theorem sign_add_lt {neg : Bool} {k x : Nat} (h : x < 2 ^ k) : (if neg then 2 ^ k else 0) + x < 2 ^ (k + 1) := by
  split <;> omega

theorem overflowF_lt (hc : c.toNat ≤ 3) (rm : RM) (neg : Bool) : overflowF c rm neg < 2 ^ ((ffmt c).ew + (ffmt c).fw) := by
  obtain ⟨-, -, -, -, hinf, hmax⟩ := ffmt_facts c hc
  unfold overflowF
  cases rm <;> cases neg <;> simp [show ¬ 4 ≤ c.toNat by omega, hinf, hmax]

/-- A rounded value fits its format. -/
theorem roundF_lt (hc : c.toNat ≤ 3) (rm : RM) (v : FVal) : roundF c rm v < 2 ^ fmtWidth c := by
  obtain ⟨hw, hc4, hc6, hnan, hinf, hmax⟩ := ffmt_facts c hc
  have hzero : ∀ neg : Bool, (if neg then 2 ^ ((ffmt c).ew + (ffmt c).fw) else 0) < 2 ^ ((ffmt c).ew + (ffmt c).fw + 1) :=
    fun neg => sign_add_lt (neg := neg) (Nat.two_pow_pos _)
  have hfrac : 2 ^ (ffmt c).fw ≤ 2 ^ ((ffmt c).ew + (ffmt c).fw) := Nat.pow_le_pow_right (by decide) (by omega)
  rw [hw]
  cases v with
  | nan => exact hnan.trans (Nat.pow_lt_pow_right (by decide) (Nat.lt_succ_self _))
  | inf neg => simpa only [roundF, if_neg hc4, if_neg hc6] using sign_add_lt hinf
  | fin neg m e =>
    cases m with
    | zero => exact hzero neg
    | succ m =>
      simp only [roundF]
      refine iteInduction (motive := (· < _)) (fun _ => hzero neg) fun _ => ?_
      refine iteInduction (motive := (· < _)) (fun hr => sign_add_lt (hr.trans_le hfrac)) fun _ => ?_
      refine iteInduction (motive := (· < _)) (fun _ => hzero neg) fun _ => ?_
      exact iteInduction (motive := (· < _)) (fun _ => sign_add_lt (overflowF_lt hc rm neg))
        fun hmag => sign_add_lt ((Nat.le_of_not_lt hmag).trans_lt hmax)

theorem wrapN_lt (n : Nat) (r : Int) : wrapN n r < 2 ^ n := by
  have hpos : (0 : Int) < (2 ^ n : Nat) := by exact_mod_cast Nat.two_pow_pos n
  exact (Int.toNat_lt (Int.emod_nonneg _ hpos.ne')).2 (Int.emod_lt_of_pos _ hpos)

/-- Bits of a lane of VRED's result (R244). -/
def redWidth (c : BitVec 4) : Nat := if fmtWidth c = 64 then 64 else 32

theorem fmtWidth_le_redWidth : ∀ c, fmtWidth c ≤ redWidth c := by decide

/-- What VRED reduces to fits the lane that it is written to. -/
theorem vredVal_lt (hc : c.toNat ≤ 3 ∨ 8 ≤ c.toNat) (op : Nat) (rm : BitVec 3) (p : BitVec 32) (x : VReg) :
    vredVal c op rm p x < 2 ^ redWidth c := by
  have hle : 2 ^ fmtWidth c ≤ 2 ^ redWidth c := Nat.pow_le_pow_right (by decide) (fmtWidth_le_redWidth c)
  have hsum : ∀ c : BitVec 4, (if c = 0 then (0 : BitVec 4) else 1).toNat ≤ 3 ∧
      fmtWidth (if c = 0 then (0 : BitVec 4) else 1) ≤ redWidth c := by decide
  unfold vredVal
  rcases hc with hc | hc
  · simp only [isFloat, show c.toNat ≤ 6 by omega, decide_true, if_true]
    split
    · exact (roundF_lt (hsum c).1 ..).trans_le (Nat.pow_le_pow_right (by decide) (hsum c).2)
    · exact (roundF_lt hc ..).trans_le hle
  · simp only [isFloat, show ¬ c.toNat ≤ 6 by omega, decide_false]
    exact (wrapN_lt ..).trans_le hle

/-- A value in lane 0 alone, or in every lane. -/
theorem lane_spread {w k v : Nat} (hk : k < 1024 / w) (hv : v < 2 ^ w) (all : Bool) :
    lane w (if all then ofLanes 1024 w (List.replicate (1024 / w) v) else BitVec.ofNat 1024 v) k =
      if k = 0 ∨ all = true then v % 2 ^ w else 0 := by
  have hfit := lane_fits hk
  cases all with
  | true => simp [lane_ofLanes hfit, List.getD, hk]
  | false =>
    cases k with
    | zero => simp [lane_ofNat hfit]
    | succ k =>
      have hlt : v < 2 ^ (w * (k + 1)) := hv.trans_le (Nat.pow_le_pow_right (by decide) (Nat.le_mul_of_pos_right w k.succ_pos))
      simp [lane_ofNat hfit, Nat.div_eq_of_lt hlt]

end Bounds

theorem getLsbD_vcmpBits (c : BitVec 4) (cond : Nat) (any : Bool) (p : BitVec 32) (x y : VReg) {g : Nat} (hg : g < 32) :
    let w := fmtWidth c
    let one := fun (i : Nat) => vcmpLane c cond (lane w x i) (lane w y i)
    (vcmpBits c cond any p x y).getLsbD g = if 32 ≤ w then active p w (32 * g / w) && one (32 * g / w)
      else p.getLsbD g && (if any then (List.range (32 / w)).any fun j => one (g * (32 / w) + j)
        else (List.range (32 / w)).all fun j => one (g * (32 / w) + j)) := by
  refine (getLsbD_bitSum _ hg).trans ?_
  simp only [List.any_map, List.all_map, Function.id_comp]

/-- Fewer lanes are wider lanes. -/
theorem lanes_le_iff : ∀ c d : BitVec 4, c ≠ 7 → d ≠ 7 → (1024 / fmtWidth c ≤ 1024 / fmtWidth d ↔ fmtWidth d ≤ fmtWidth c) := by
  decide

theorem vcvt_formats {f : FmtV} (h : fieldsOk (.vcvt f) = true) : f.aux.extractLsb' 0 4 ≠ 7 ∧ f.fmt ≠ 7 := by
  dsimp only [fieldsOk] at h
  rw [Bool.and_eq_true] at h
  obtain ⟨hform, hcvt⟩ := h
  have hfmt := (vForm_fmt_fn hform).1
  simp only [vcvtOk, Bool.and_eq_true, anyFmt, bne_iff_ne] at hcvt hfmt
  obtain ⟨⟨⟨⟨⟨hsrc, -⟩, -⟩, -⟩, -⟩, -⟩ := hcvt
  exact ⟨hsrc, hfmt.1⟩

/-- The generator states after VSEED (R240). -/
def seeded (p : BitVec 32) (x : VReg) (m : AMap Nat (BitVec 32)) : AMap Nat (BitVec 32) :=
  (List.range 32).foldl (fun m g =>
    if p.getLsbD g then ins m g (if lane 32 x g = 0 then genInit g else BitVec.ofNat 32 (lane 32 x g)) else m) m

theorem exec_vseed {s : State} {h : Here} {f : FmtV} (hr : Ready (.vseed f) s h) :
    exec (.vseed f) s = .next (retire h (modTask s h.core fun t =>
      { t with gen := seeded (readP s h f.pred.toNat) (readVS s h f.sa f.aux 1) h.t.gen })) :=
  (onStrand_ready hr _).trans (congrArg (fun u => (.next (retire h u) : Out)) (modTask_congr hr.1 rfl))

section Quant

/-- Lanes written one after the other each hold what was written to them. -/
theorem lane_foldl_setLane {n w : Nat} (a : Nat) (x : Nat → Nat) (v : BitVec n) {m j : Nat} (hfit : w * (a + j) + w ≤ n) (hj : j < m) :
    lane w ((List.range m).foldl (fun acc j => setLane w acc (a + j) (x j)) v) (a + j) = x j % 2 ^ w := by
  induction m with
  | zero => omega
  | succ m ih =>
    rw [List.range_succ, List.foldl_append, List.foldl_cons, List.foldl_nil]
    by_cases hm : j = m
    · subst hm
      exact lane_setLane_same hfit ..
    · rw [lane_setLane_ne (by omega)]
      exact ih (by omega)

/-- The eight codes of a group are the four-bit lanes of the granule that they are packed into. -/
theorem lane_four_of_packed {v : VReg} {G j : Nat} {l : List Nat} (hj : j < 8)
    (hv : lane 32 v G = l.foldr (fun e a => e % 16 + 16 * a) 0 % 2 ^ 32) : lane 4 v (8 * G + j) = l.getD j 0 % 16 := by
  have hidx : 4 * (8 * G + j) = 32 * G + 4 * j := by omega
  have hfit : 4 * j + 4 ≤ 32 := by omega
  calc lane 4 v (8 * G + j) = lane 32 v G / 2 ^ (4 * j) % 2 ^ 4 := by rw [lane, hidx, bitsN_bitsN _ hfit, lane]
    _ = lane 4 (ofLanes 32 4 l) j := by rw [hv, lane, bitsN_eq_div_mod, ofLanes, BitVec.toNat_ofNat]; rfl
    _ = l.getD j 0 % 16 := lane_ofLanes hfit l

/-- The group that VQUANT writes lies in its destinations (R256). -/
theorem vquant_group {f : FmtV} (h : fieldsOk (.vquant f) = true) {g : Nat} (hg : g < 128 / fmtWidth f.fmt) :
    128 / fmtWidth f.fmt * f.fn.toNat + g < 32 := by
  dsimp only [fieldsOk] at h
  obtain ⟨hfmt, hfn⟩ := vForm_fmt_fn h
  simp only [Bool.or_eq_true, beq_iff_eq] at hfmt
  rcases hfmt with hc | hc <;> simp [hc, fmtWidth] at hfn hg ⊢ <;> omega

variable {s : State} {h : Here} {f : FmtV}

/-- Group `g` of VQUANT's source, quantised: its scale byte and its codes (R256). -/
def quantOf (s : State) (h : Here) (f : FmtV) (g : Nat) : Nat × List Nat :=
  quantGroup (fun j => rmOf f.rm (srRand h.t (fmtWidth f.fmt) (8 * g + j)))
    ((List.range 8).map fun j => decodeF f.fmt (lane (fmtWidth f.fmt) (readVS s h f.sa f.aux 1) (8 * g + j)))
    (decodeF 3 ((rdG s h f.sb).toNat % 2 ^ 16))

/-- Group `g` written: its codes, eight to a granule, and its scale. -/
def quantStep (s : State) (h : Here) (f : FmtV) (acc : VReg × VReg) (g : Nat) : VReg × VReg :=
  (setLane 32 acc.1 (128 / fmtWidth f.fmt * f.fn.toNat + g) ((quantOf s h f g).2.foldr (fun e a => e % 16 + 16 * a) 0),
    setLane 8 acc.2 (128 / fmtWidth f.fmt * f.fn.toNat + g) (quantOf s h f g).1)

/-- The registers of codes and of scales after VQUANT. -/
def quantised (s : State) (h : Here) (f : FmtV) : VReg × VReg :=
  (List.range (128 / fmtWidth f.fmt)).foldl (quantStep s h f) (lkpD h.t.v f.dst.toNat 0, lkpD h.t.v (f.dst.toNat + 1) 0)

theorem exec_vquant (hr : Ready (.vquant f) s h) :
    let u := putV h (f.dst.toNat + 1) (quantised s h f).2 f.lat.toNat (putV h f.dst.toNat (quantised s h f).1 f.lat.toNat s)
    exec (.vquant f) s = .next (retire h (if f.rm = 4 then modTask u h.core (stepGens (fmtWidth f.fmt)) else u)) :=
  onStrand_ready hr _

theorem lane_quantised_codes (hf : fieldsOk (.vquant f) = true) {g : Nat} (hg : g < 128 / fmtWidth f.fmt) :
    lane 32 (quantised s h f).1 (128 / fmtWidth f.fmt * f.fn.toNat + g) =
      (quantOf s h f g).2.foldr (fun e a => e % 16 + 16 * a) 0 % 2 ^ 32 := by
  have hgroup := vquant_group hf hg
  have hfold : (List.range _).foldl (fun acc g => setLane 32 acc (128 / fmtWidth f.fmt * f.fn.toNat + g)
      ((quantOf s h f g).2.foldr (fun e a => e % 16 + 16 * a) 0)) _ = (quantised s h f).1 := List.foldl_hom Prod.fst fun _ _ => rfl
  exact hfold ▸ lane_foldl_setLane _ _ _ (by omega) hg

theorem lane_quantised_scales (hf : fieldsOk (.vquant f) = true) {g : Nat} (hg : g < 128 / fmtWidth f.fmt) :
    lane 8 (quantised s h f).2 (128 / fmtWidth f.fmt * f.fn.toNat + g) = (quantOf s h f g).1 % 2 ^ 8 := by
  have hgroup := vquant_group hf hg
  have hfold : (List.range _).foldl (fun acc g => setLane 8 acc (128 / fmtWidth f.fmt * f.fn.toNat + g) (quantOf s h f g).1) _ =
      (quantised s h f).2 := List.foldl_hom Prod.snd fun _ _ => rfl
  exact hfold ▸ lane_foldl_setLane _ _ _ (by omega) hg

end Quant

/-- VRED's formats (R244). -/
theorem vred_fmt {f : FmtV} (h : fieldsOk (.vred f) = true) : f.fmt.toNat ≤ 3 ∨ 8 ≤ f.fmt.toNat := by
  dsimp only [fieldsOk] at h
  rw [Bool.and_eq_true] at h
  have hfmt := (vForm_fmt_fn h.1).1
  simp only [Bool.or_eq_true, decide_eq_true_eq, beq_iff_eq] at hfmt
  rcases hfmt with (((hfmt | hfmt) | hfmt) | hfmt) | hfmt <;> simp [hfmt]

/-- Settles O35, form by form, from what each writes to a lane, a predicate bit or a generator. -/
theorem compareReduceConvert : Obligations.CompareReduceConvert := by
  intro s h f
  refine ⟨fun hr => ⟨_, onStrand_ready hr _, fun g hg => getLsbD_vcmpBits _ _ _ _ _ _ hg⟩,
    fun hr => ⟨_, onStrand_ready hr _, fun k hk => ?vred⟩, fun hr => ⟨_, onStrand_ready hr _, fun d hd => ?vcvt⟩,
    fun hr => ⟨_, exec_vseed hr, fun g hg => ?vseed⟩, fun hr => onStrand_ready hr _,
    fun hr => ⟨_, onStrand_ready hr _, fun k hk => lane_mergeLanes (w := 32) hk ..⟩,
    fun hr => ⟨_, _, exec_vquant hr, fun gi hg => ⟨?scale, fun j hj => ?codes⟩⟩,
    fun hr => ⟨_, onStrand_ready hr _, fun k hk => lane_mergeLanes hk ..⟩⟩
  case vred => exact lane_spread hk (vredVal_lt (vred_fmt (ready_fields hr)) ..) _
  case vcvt =>
    obtain ⟨hsrc, hdst⟩ := vcvt_formats (ready_fields hr)
    refine (lane_ofLanes_map hd _).trans ?_
    rw [apply_ite (· % 2 ^ fmtWidth f.fmt), ite_lane_mod, ite_lane_mod]
    simp only [lanes_le_iff _ _ hsrc hdst, Nat.succ_mul]
  case vseed =>
    exact (lkpD_foldl_ins (fun g => (readP s h f.pred.toNat).getLsbD g) _ h.t.gen (genInit g) 32 g).trans (by simp [hg, genInit])
  case scale => exact lane_quantised_scales (ready_fields hr) hg
  case codes => exact lane_four_of_packed hj (lane_quantised_codes (ready_fields hr) hg)

end Sys2Proof.Proofs

/-! One output of a real multiply (R51, R259, R262, R264). -/

namespace Sys2Proof.Proofs
open Sys2Proof.Machine Sys2Proof.Claims

theorem length_transposeBy {α : Type} (n : Nat) (g : Nat → α) (rows : List (List Nat)) (h : ∀ r ∈ rows, r.length = n) :
    (transposeBy n g rows).length = n := by
  induction rows with
  | nil => simp [transposeBy]
  | cons r rest ih =>
    have htail := ih fun x hx => h x (List.mem_cons_of_mem _ hx)
    rw [transposeBy] at htail
    rw [transposeBy, List.foldr_cons, List.length_zipWith, htail, h r List.mem_cons_self, Nat.min_self]

/-- A panel of a narrow format has 256 output indices (R262). -/
theorem length_panel {fmt : BitVec 4} (h : fmt ≠ 0) (get : Nat → Nat → Nat) (base kk : Nat) : (panel fmt get base kk).length = 256 := by
  unfold panel
  split
  · simp
  · exact length_transposeBy _ _ _ (by simp)

/-- Rows set one after the other from row 0. -/
theorem lkpD_foldl_zipIdx {α β : Type} (g : β → α) (l : List β) (m : AMap Nat α) (d : α) (j : Nat) :
    lkpD (l.zipIdx.foldl (fun acc x => ins acc x.2 (g x.1)) m) j d = (l[j]?.map g).getD (lkpD m j d) := by
  induction l using List.reverseRecOn with
  | nil => simp
  | append_singleton l x ih =>
    rw [List.zipIdx_append, List.foldl_append]
    simp only [List.zipIdx_singleton, List.foldl_cons, List.foldl_nil, Nat.zero_add]
    by_cases hj : j = l.length
    · subst hj
      simp
    · rw [lkpD_ins_ne _ _ _ hj, ih]
      rcases Nat.lt_or_gt_of_ne hj with hlt | hgt
      · rw [List.getElem?_append_left hlt]
      · rw [List.getElem?_eq_none (Nat.le_of_lt hgt), List.getElem?_eq_none (by simpa using hgt)]

section Cell
variable {f : FmtT} {i j : Nat}

/-- Output (i, j) of the bank is word j of row i (R259). -/
theorem accLane_cell (m : AMap Nat AccRow) (i : Nat) (hj : j < 256) : accLane m 32 (256 * i + j) = lane 32 (lkpD m i 0) j := by
  have hrow : 32 * (256 * i + j) / 8192 = i := by omega
  have hcol : (256 * i + j) % (8192 / 32) = j := by omega
  rw [accLane, hrow, hcol]

/-- The bank that a multiply in a narrow format starts from: `.set` clears the output region (R264). -/
def startBank (f : FmtT) (m : AMap Nat AccRow) : AMap Nat AccRow :=
  if f.fn = 1 then (List.range 256).foldl (fun acc r => ins acc r (0 : AccRow)) m else m

theorem accLane_startBank (m : AMap Nat AccRow) (hi : i < 256) (hj : j < 256) :
    accLane (startBank f m) 32 (256 * i + j) = if f.fn = 1 then 0 else accLane m 32 (256 * i + j) := by
  unfold startBank
  split
  case isTrue =>
    have hrow := lkpD_foldl_ins (fun _ => true) (fun _ => (0 : AccRow)) m 0 256 i
    simp only [if_true, and_true, if_pos hi] at hrow
    rw [accLane_cell _ _ hj, hrow]
    simp [lane, bitsN]
  case isFalse => rfl

/-- The output of one row and one column (R51). -/
def cellOut (kk : Nat) (old : Nat) (row col : List FVal) : Nat :=
  roundF 1 .rne (accNarrow (decodeF 1 old) (groups16 (ngroups kk) (realTerms row col)))

theorem mxRow_narrow {fmt : BitVec 4} (h : fmt ≠ 0) (kk : Nat) (a : List FVal × List FVal) (cols : List (List FVal)) (old : Nat → Nat) :
    mxRow fmt false kk a cols old = cols.zipIdx.map fun x => cellOut kk (old x.2) a.1 x.1 := by
  simp only [mxRow, h, decide_false, Bool.false_eq_true, if_false]
  rfl

/-- Row `i` of the bank after a real multiply in a narrow format. -/
theorem lkpD_mxResult (hfa : f.fa ≠ 0) (get : Nat → Nat → Nat) (a b : Nat) (m : AMap Nat AccRow) (hi : i < 256) :
    lkpD (mxResult f false get a b m) i 0 = ofLanes 8192 32 ((panel f.fb get b f.imm.toNat).zipIdx.map fun x =>
      cellOut f.imm.toNat (accLane (startBank f m) 32 (256 * i + x.2)) ((panel f.fa get a f.imm.toNat).getD i []) x.1) := by
  have hlen : i < (panel f.fa get a f.imm.toNat).length := by rwa [length_panel hfa]
  simp only [mxResult, hfa, decide_false, if_false, Bool.false_eq_true]
  rw [lkpD_foldl_zipIdx]
  simp only [List.getElem?_map, List.getElem?_zipIdx, List.getElem?_eq_getElem hlen, Option.map_some, Option.getD_some, Nat.zero_add,
    mxRow_narrow hfa, startBank, List.getD]

end Cell

/-- Settles O40: word j of row i is the output of row i and column j, from the bank that the multiply starts with. -/
theorem multiplyCell : Obligations.MultiplyCell := by
  intro f get a b m i j hfa hfb hi hj
  have hlen : j < (panel f.fb get b f.imm.toNat).length := by rwa [length_panel hfb]
  have hfit : 32 * j + 32 ≤ 8192 := by omega
  dsimp only
  rw [accLane_cell _ _ hj, lkpD_mxResult hfa get a b m hi, lane_ofLanes hfit, ← accLane_startBank m hi hj]
  simp only [List.getD, List.getElem?_map, List.getElem?_zipIdx, List.getElem?_eq_getElem hlen, Option.map_some, Option.getD_some,
    Nat.zero_add, cellOut]

end Sys2Proof.Proofs

/-! Every row of the table has a next state (R129, R173, R326). -/

namespace Sys2Proof.Proofs
open Sys2Proof.Machine Sys2Proof.Claims

/-- Settles O6, row by row: a form goes through `onStrand`, which answers a next state, and every event answers one outright. -/
theorem everyRowAnswers : Obligations.EveryRowAnswers := by
  intro i s
  cases i <;> exact ⟨_, rfl⟩

end Sys2Proof.Proofs

/-! VALS: the pairs that fail and those whose line is open (R124, R216). -/

namespace Sys2Proof.Proofs
open Sys2Proof.Machine Sys2Proof.Claims

section Vals
variable {s s1 s2 s3 : State} {h : Here} {f : FmtM} {ps : List VPair} {rs : List (Option Res)}

/-- A VALS that passes check 6 of R173 names at most eight pairs (R216). -/
theorem vals_count_le (hf : fieldsOk (.vals f) = true) : f.fn.toNat + 1 ≤ 8 := by
  simp only [fieldsOk, mForm, Bool.and_eq_true, decide_eq_true_eq] at hf
  omega

theorem length_of_valsList {n i : Nat} (hl : valsList h f n i s = .inr (s2, ps)) : ps.length = n := by
  induction n generalizing i s ps with
  | zero =>
    simp only [valsList, Sum.inr.injEq, Prod.mk.injEq] at hl
    simp [← hl.2]
  | succ n ih =>
    simp only [valsList] at hl
    split at hl
    case h_1 => cases hl
    case h_2 =>
      split at hl
      case h_1 => cases hl
      case h_2 hrest =>
        obtain ⟨rfl, rfl⟩ := Prod.mk.inj (Sum.inr.inj hl)
        simp [ih hrest]

theorem length_of_valsLines {k : Nat} (hl : valsLines h k ps s = .inr (s3, rs)) : rs.length = ps.length := by
  induction ps generalizing k s rs with
  | nil =>
    simp only [valsLines, Sum.inr.injEq, Prod.mk.injEq] at hl
    simp [← hl.2]
  | cons p rest ih =>
    have hgo : ∀ {t x}, (match valsLines h (k + 1) rest t with
        | .inl u => .inl u
        | .inr (u, l) => .inr (u, x :: l)) = (.inr (s3, rs) : State ⊕ (State × List (Option Res))) → rs.length = rest.length + 1 := by
      intro t x hgo
      split at hgo
      case h_1 => cases hgo
      case h_2 hrest =>
        obtain ⟨rfl, rfl⟩ := Prod.mk.inj (Sum.inr.inj hgo)
        simp [ih hrest]
    simp only [valsLines] at hl
    split at hl
    case isTrue => exact hgo hl
    case isFalse =>
      split at hl
      case h_4 =>
        split at hl
        case isTrue => cases hl
        case isFalse =>
          split at hl
          case h_1 => cases hl
          case h_2 => exact hgo hl
      all_goals cases hl

/-- The line of a pair is open (R87). -/
def pairOpen (s : State) (w : Who) (x : VPair × Option Res) : Bool :=
  match x.2 with
  | some r => lineOpen w (homeLine s r)
  | none => false
/-- A pair fails: its zero field is not zero, its line is open or its version differs (R124, R216). -/
def pairFails (s : State) (w : Who) (x : VPair × Option Res) : Bool :=
  match x.2 with
  | some r => pairOpen s w x || (homeLine s r).ver != x.1.expv
  | none => true

/-- The elements of a list that satisfy a test, by their places. -/
def placesOf {α : Type} (p : α → Bool) (l : List α) : Nat := bitSum (fun i => l[i]?.any p) l.length

theorem placesOf_append_singleton {α : Type} (p : α → Bool) (l : List α) (x : α) :
    placesOf p (l ++ [x]) = placesOf p l + if p x then 2 ^ l.length else 0 := by
  have hlow : bitSum (fun i => (l ++ [x])[i]?.any p) l.length = placesOf p l := by
    refine Nat.eq_of_testBit_eq fun i => ?_
    simp only [placesOf, testBit_bitSum]
    by_cases hi : i < l.length
    · simp [List.getElem?_append_left hi]
    · simp [hi]
  rw [placesOf, List.length_append, List.length_singleton, bitSum_succ, hlow]
  cases hp : p x <;> simp [hp]

theorem testBit_placesOf {α : Type} (p : α → Bool) (l : List α) (i : Nat) : (placesOf p l).testBit i = l[i]?.any p := by
  rw [placesOf, testBit_bitSum]
  by_cases hi : i < l.length
  · simp [hi]
  · simp [hi]

theorem placesOf_lt {α : Type} (p : α → Bool) (l : List α) : placesOf p l < 2 ^ l.length := bitSum_lt _ _

/-- What a pair adds to the two numbers that VALS gathers: its place to the first when it fails, to the second when its line is open. -/
def gatherPair (s : State) (w : Who) (acc : Nat × Nat) (x : (VPair × Option Res) × Nat) : Nat × Nat :=
  (acc.1 + (if pairFails s w x.1 then 2 ^ x.2 else 0), acc.2 + (if pairOpen s w x.1 then 2 ^ x.2 else 0))

theorem foldl_gatherPair {w : Who} {g : Nat × Nat → (VPair × Option Res) × Nat → Nat × Nat} (hg : ∀ acc x, g acc x = gatherPair s w acc x)
    (l : List (VPair × Option Res)) :
    l.zipIdx.foldl g (0, 0) = (placesOf (pairFails s w) l, placesOf (pairOpen s w) l) := by
  induction l using List.reverseRecOn with
  | nil => simp [placesOf, bitSum]
  | append_singleton l x ih =>
    rw [List.zipIdx_append, List.foldl_append, ih, placesOf_append_singleton, placesOf_append_singleton]
    simp [hg, gatherPair]

/-- VALS whose list and lines pass their checks (R216): the result word, and the acquire when no pair fails. -/
theorem exec_vals {c : Chk} (hr : Ready (.vals f) s h) (ho : InOrder h)
    (hc : checkAcc s (whoOf h) f.sa.toNat (rdC h.t f.sa) { rights := 1, n := 16 * (f.fn.toNat + 1), align := 16, again := heldMovingAt h 0 }
      (mAddr s h f) = (s1, c))
    (hok : ∃ r, c = .ok r ∨ c = .unmapped r) (hl : valsList h f (f.fn.toNat + 1) 0 s1 = .inr (s2, ps))
    (hlines : valsLines h 1 ps s2 = .inr (s3, rs)) :
    let fail := placesOf (pairFails s3 (whoOf h)) (ps.zip rs)
    exec (.vals f) s = .next (retire h (wrG h f.dst (BitVec.ofNat 64 (fail + 256 * placesOf (pairOpen s3 (whoOf h)) (ps.zip rs)))
      (if fail = 0 then acquireInval s3 (whoOf h) f.scope.toNat else s3))) := by
  intro fail
  refine (onStrand_ready hr _).trans (congrArg _ ?_)
  have ho : ordWait h.t none = false := ho
  obtain ⟨r, rfl | rfl⟩ := hok
  all_goals
    simp only [ho, rLD, hc, hl, hlines, Bool.false_eq_true, if_false]
    rw [foldl_gatherPair (s := s3) (w := whoOf h)]
    · rfl
    · rintro acc ⟨⟨p, _ | r⟩, i⟩ <;> rfl

/-- A word made of two bytes: its bits 7:0, 15:8 and 63:16. -/
theorem two_bytes {x y : Nat} (hx : x < 2 ^ 8) (hy : y < 2 ^ 8) :
    bitsN (BitVec.ofNat 64 (x + 256 * y)) 0 8 = x ∧ bitsN (BitVec.ofNat 64 (x + 256 * y)) 16 48 = 0 ∧
      ∀ i < 8, (BitVec.ofNat 64 (x + 256 * y)).getLsbD i = x.testBit i ∧ (BitVec.ofNat 64 (x + 256 * y)).getLsbD (8 + i) = y.testBit i := by
  have hbit : ∀ j, (x + 256 * y).testBit j = if j < 8 then x.testBit j else y.testBit (j - 8) := fun j => by
    rw [Nat.add_comm]; exact Nat.testBit_two_pow_mul_add y hx j
  refine ⟨?_, ?_, fun i hi => ⟨?_, ?_⟩⟩
  · simp only [bitsN, BitVec.extractLsb'_toNat, BitVec.toNat_ofNat, Nat.shiftRight_eq_div_pow]
    omega
  · simp only [bitsN, BitVec.extractLsb'_toNat, BitVec.toNat_ofNat, Nat.shiftRight_eq_div_pow]
    omega
  · rw [BitVec.getLsbD_ofNat, hbit, if_pos hi, decide_eq_true (by omega), Bool.true_and]
  · rw [BitVec.getLsbD_ofNat, hbit, if_neg (by omega), Nat.add_sub_cancel_left, decide_eq_true (by omega), Bool.true_and]

end Vals

/-- Settles O29: the result word of VALS holds the places of the failing pairs and of the pairs with an open line. -/
theorem validateLines : Obligations.ValidateLines := by
  intro s s1 s2 s3 h f c ps rs n hr ho hc hok hl hlines isOpen fails
  have hps : ps.length = n := length_of_valsList hl
  have hrs : rs.length = ps.length := length_of_valsLines hlines
  have hzip : (ps.zip rs).length ≤ 8 := by
    have hn := vals_count_le (ready_fields hr)
    rw [List.length_zip, hrs, Nat.min_self, hps]
    exact hn
  have hbyte : ∀ p : VPair × Option Res → Bool, placesOf p (ps.zip rs) < 2 ^ 8 := fun p =>
    (placesOf_lt p _).trans_le (Nat.pow_le_pow_right (by decide) hzip)
  obtain ⟨hlow, hzero, hbits⟩ := two_bytes (hbyte (pairFails s3 (whoOf h))) (hbyte (pairOpen s3 (whoOf h)))
  refine ⟨BitVec.ofNat 64 (placesOf (pairFails s3 (whoOf h)) (ps.zip rs) + 256 * placesOf (pairOpen s3 (whoOf h)) (ps.zip rs)),
    ?acquire, hzero, fun i hi => ?bits⟩
  case acquire =>
    rw [hlow]
    exact exec_vals hr ho hc hok hl hlines
  case bits =>
    obtain ⟨hfail, hopen⟩ := hbits i hi
    rw [hfail, hopen, testBit_placesOf, testBit_placesOf]
    by_cases hin : i < ps.length
    case pos =>
      have hin' : i < rs.length := hrs ▸ hin
      cases hri : rs[i] <;> simp [fails, isOpen, hin, hin', hri, pairFails, pairOpen]
    case neg =>
      have hin' : ¬ i < rs.length := hrs ▸ hin
      simp [fails, isOpen, hin, hin']

end Sys2Proof.Proofs

/-! Issue of the engine forms: checks, release, queue and tag (R121, R273 to R276). -/

namespace Sys2Proof.Proofs
open Sys2Proof.Machine Sys2Proof.Claims

section Issue
variable {i : Instr} {s s1 s2 : State} {h : Here} {m : Issue} {f : FmtE}

/-- The check of the semaphores passes when they are the task's (R275 check 1). -/
theorem iSems_ok (hs : semsOk h f) : iSems s h f = .ok s := by
  obtain ⟨hw, hg⟩ := hs
  rcases hw with hw | hw <;> rcases hg with hg | hg <;> simp [iSems, iGuard, iBind, hw, hg]

/-- A wait semaphore outside the crew's range fails the check, with its number. -/
theorem iSems_wait (hv : f.wv ≠ 0) (hw : semAllowed h.t f.wsem.toNat = false) :
    iSems s h f = .fault s { cls := 3, d0 := f.wsem.zeroExtend 64 } := by
  have hv : ¬ f.wv = 0#1 := hv
  simp [iSems, iGuard, iFail, iBind, hv, hw]

/-- So does a signal semaphore, the wait semaphore being the task's. -/
theorem iSems_signal (hw : f.wv = 0 ∨ semAllowed h.t f.wsem.toNat = true) (hv : f.sv ≠ 0) (hg : semAllowed h.t f.ssem.toNat = false) :
    iSems s h f = .fault s { cls := 3, d0 := f.ssem.zeroExtend 64 } := by
  have hv : ¬ f.sv = 0#1 := hv
  rcases hw with hw | hw <;> simp [iSems, iGuard, iFail, iBind, hw, hv, hg]

/-- The engine forms execute on the AS (R155). -/
theorem issue_on_as (hm : issueOf i s h = some m) (hr : Ready i s h) : h.x = .as := by
  obtain ⟨-, -, -, hx, -⟩ := hr
  have has : strandOk i h.x = (h.x == .as) := by
    unfold issueOf at hm
    extract_lets ce c copy plain at hm
    split at hm
    case h_30 => cases hm
    all_goals rfl
  exact eq_of_beq (has ▸ hx)

/-- Every form of R273's table but LAUNCH issues its command with what `issueOf` lists for it. -/
theorem exec_issue (hm : issueOf i s h = some m) (hr : Ready i s h) :
    exec i s = .next (engIssue i m.f m.q m.chk (regsOf s m.f) (fun _ => m.caps) (fun u _ => m.scope u) (fun _ => m.fifo) s h) ∧
      queueDepth m.q = m.depth := by
  have hce : queueDepth (if h.core.core % 4 % 2 = 0 then EngQ.ce0 else EngQ.ce1) = 32 := by split <;> rfl
  unfold issueOf at hm
  extract_lets ce c copy plain at hm
  split at hm
  case h_30 => cases hm
  case h_1 | h_2 | h_3 | h_4 | h_5 =>
    obtain rfl := Option.some.inj hm
    exact ⟨onStrand_ready hr _, hce⟩
  all_goals
    obtain rfl := Option.some.inj hm
    exact ⟨onStrand_ready hr _, rfl⟩

section Outcomes
variable {q : EngQ} {chk : State → Here → IAns} {regs : Here → List W64} {caps : Here → List CapReg}
  {scope : State → Here → Nat} {fifo : Here → Bool} {fi : FInfo} {why : HoldWhy}

theorem engIssue_semsFault (hs : iSems s h f = .fault s1 fi) :
    engIssue i f q chk regs caps scope fifo s h = takeFault s1 h fi.cls fi.d0 fi.d1 fi.d2 fi.oid := by
  simp [engIssue, hs, iBind, faultOf]

theorem engIssue_fault (hs : semsOk h f) (hc : chk s h = .fault s1 fi) :
    engIssue i f q chk regs caps scope fifo s h = takeFault s1 h fi.cls fi.d0 fi.d1 fi.d2 fi.oid := by
  simp [engIssue, iSems_ok hs, iBind, hc, faultOf]

theorem engIssue_hold (hs : semsOk h f) (hc : chk s h = .hold s1 why) :
    engIssue i f q chk regs caps scope fifo s h = hold h why s1 := by
  simp [engIssue, iSems_ok hs, iBind, hc]

theorem engIssue_releaseWaits (hs : semsOk h f) (hc : chk s h = .ok s1) (hrel : releaseSteps s1 h (scope s1 h) none = .wait s2) :
    engIssue i f q chk regs caps scope fifo s h = hold h .release s2 := by
  simp [engIssue, iSems_ok hs, iBind, hc, releaseThen, hrel]

/-- With its checks passed and its release ended in order, a command waits for room in its queue or enters its end (R274). -/
theorem engIssue_released (hs : semsOk h f) (hc : chk s h = .ok s1) (hrel : releaseSteps s1 h (scope s1 h) none = .done s2) (ho : InOrder h) :
    engIssue i f q chk regs caps scope fifo s h =
      if queueDepth q ≤ (queueAt s2 (queueFor h.core q)).length then hold h .engineFull s2
      else retire h (takeTag h i f (setQueue { s2 with serial := s2.serial + 1 } (queueFor h.core q)
        (queueAt s2 (queueFor h.core q) ++ [mkEntry s2 h i f (regs h) (caps h) (fifo h)]))) := by
  have ho : ordWait h.t none = false := ho
  simp [engIssue, iSems_ok hs, iBind, hc, releaseThen, hrel, ho]

end Outcomes

/-- The executing task after a command's tag has been given out (R276). -/
theorem takeTag_eq (hx : h.x = .as) :
    takeTag h i f s1 = modTask s1 h.core (tagged i f h.t.etag) := by
  unfold takeTag tagged
  cases isResult i
  case false =>
    simp only [wrG, hx, Bool.false_eq_true, if_false, modTask_modTask]
    rfl
  case true =>
    by_cases hd : f.dst = 0
    · simp only [if_true, if_pos hd]
      rfl
    · simp only [if_true, if_neg hd, modTask_modTask]
      rfl

end Issue

/-- Settles O42: the form's issue by the outcome of its semaphores, its checks and its release. -/
theorem engineIssue : Obligations.EngineIssue := by
  refine ⟨fun i s h m hm hr => ?sems, fun i s s1 s2 h m hm hr hs => ?issue⟩
  case sems =>
    obtain ⟨hexec, -⟩ := exec_issue hm hr
    refine ⟨fun hv hw => ?_, fun hw hv hg => ?_⟩
    · exact hexec.trans (congrArg _ (engIssue_semsFault (iSems_wait hv hw)))
    · exact hexec.trans (congrArg _ (engIssue_semsFault (iSems_signal hw hv hg)))
  case issue =>
    obtain ⟨hexec, hdepth⟩ := exec_issue hm hr
    refine ⟨fun hc hrel => ?_, fun hc hrel ho => ?_, fun fi hc => ?_, fun why hc => ?_⟩
    · exact hexec.trans (congrArg _ (engIssue_releaseWaits hs hc hrel))
    · have hq := engIssue_released (i := i) (q := m.q) (regs := regsOf s m.f) (caps := fun _ => m.caps) (scope := fun u _ => m.scope u)
        (fifo := fun _ => m.fifo) hs hc hrel ho
      rw [hdepth, takeTag_eq (issue_on_as hm hr)] at hq
      refine ⟨fun hfull => ?_, fun hroom => ?_⟩
      · exact hexec.trans (congrArg _ (hq.trans (if_pos hfull)))
      · exact hexec.trans (congrArg _ (hq.trans (if_neg (Nat.not_le.2 hroom))))
    · exact hexec.trans (congrArg _ (engIssue_fault hs hc))
    · exact hexec.trans (congrArg _ (engIssue_hold hs hc))

end Sys2Proof.Proofs

/-! Units of an engine entry's work, in order (R277, R278). -/

namespace Sys2Proof.Proofs
open Sys2Proof.Machine Sys2Proof.Claims

section Units
variable {q : QueueId} {e : Entry} {s t : State} {serial total m : Nat} {unit : State → Nat → EAns Unit} {st : Nat → State} {f : FInfo}

theorem runEntry_of_unitsOf (hu : unitsOf q e = some (total, unit)) (s : State) : runEntry q e s = fin (runUnits q e total unit s) := by
  unfold unitsOf at hu
  unfold runEntry
  split at hu
  case h_12 => cases hu
  all_goals
    obtain ⟨rfl, rfl⟩ := Prod.mk.inj (Option.some.inj hu)
    simp only [*]

/-- With units left the loop runs one and goes on behind it. -/
theorem unitLoop_step (hm : m < total) (s : State) :
    unitLoop q serial total unit (total - m) m s =
      eBind (unit s m) fun t _ => unitLoop q serial total unit (total - (m + 1)) (m + 1) (setProg t q serial (m + 1)) := by
  rw [show total - m = total - (m + 1) + 1 by omega, unitLoop, if_neg (Nat.not_le.2 hm)]

theorem unitLoop_end (s : State) : unitLoop q serial total unit (total - total) total s = .ok s () := by
  rw [Nat.sub_self, unitLoop]

/-- The loop reaches unit `m` when every unit before it is done. -/
theorem unitLoop_reaches {p : Nat} (hpm : p ≤ m) (hm : m ≤ total)
    (hst : ∀ n, p ≤ n → n < m → ∃ t, unit (st n) n = .ok t () ∧ st (n + 1) = setProg t q serial (n + 1)) :
    unitLoop q serial total unit (total - p) p (st p) = unitLoop q serial total unit (total - m) m (st m) := by
  induction m, hpm using Nat.le_induction with
  | base => rfl
  | succ m hpm ih =>
    rw [ih (by omega) fun n hn hlt => hst n hn (by omega), unitLoop_step (by omega)]
    obtain ⟨t, hrun, hnext⟩ := hst m hpm (Nat.lt_succ_self m)
    rw [hrun, hnext]
    rfl

end Units

theorem entryUnits : EntryUnits := by
  intro q e total unit st m hu hp hm hst
  have hreach : runUnits q e total unit (st e.prog) = unitLoop q e.serial total unit (total - m) m (st m) := unitLoop_reaches hp hm hst
  rw [runEntry_of_unitsOf hu, hreach]
  refine ⟨fun hend => ?_, fun hmore => ⟨fun t hhold => ?_, fun t f hfault => ?_⟩⟩
  · rw [hend, unitLoop_end]
    rfl
  · rw [unitLoop_step hmore, hhold]
    rfl
  · rw [unitLoop_step hmore, hfault]
    rfl

end Sys2Proof.Proofs

/-! Object bytes of an engine entry, piece by piece (R74, R277). -/

namespace Sys2Proof.Proofs
open Sys2Proof.Machine Sys2Proof.Claims

section Answers
variable {α β γ : Type}

@[simp] theorem eBind_ok (s : State) (v : α) (k : State → α → EAns β) : eBind (.ok s v) k = k s v := rfl

theorem eBind_of_ok {x : EAns α} {s : State} {v : α} (h : x = .ok s v) (k : State → α → EAns β) : eBind x k = k s v := by rw [h]; rfl

theorem eBind_assoc (x : EAns α) (f : State → α → EAns β) (g : State → β → EAns γ) :
    eBind (eBind x f) g = eBind x fun s v => eBind (f s v) g := by
  cases x <;> rfl

theorem eBind_entChk (w : Who) (e : Entry) (x : State × Chk) (k : State → Res → EAns α) (g : State → α → EAns β) :
    eBind (entChk w e x k) g = entChk w e x fun s r => eBind (k s r) g := by
  obtain ⟨s, c⟩ := x
  cases c <;> rfl

/-- A fold of steps that stop where the answer before them stops goes on from that answer. -/
theorem foldl_eBind {step : EAns α → β → EAns α} (hstep : ∀ x p, step x p = eBind x fun s v => step (.ok s v) p) (l : List β) (x : EAns α) :
    l.foldl step x = eBind x fun s v => l.foldl step (.ok s v) := by
  induction l generalizing x with
  | nil => cases x <;> rfl
  | cons p r ih => rw [List.foldl_cons, ih, hstep x p, eBind_assoc]; exact congrArg (eBind x) (funext₂ fun s v => (ih _).symm)

end Answers

section Pieces
variable {a n : Nat}

@[simp] theorem pieces_zero (fuel a : Nat) : pieces fuel a 0 = [] := by cases fuel <;> rfl

theorem pieces_succ (hn : n ≠ 0) (fuel : Nat) :
    pieces (fuel + 1) a n = (a, min n (256 - a % 256)) :: pieces fuel (a + min n (256 - a % 256)) (n - min n (256 - a % 256)) := by
  rw [pieces, if_neg hn]

/-- Fuel for every line that the bytes touch is fuel enough. -/
theorem pieces_fuel {k j : Nat} (hk : a % 256 + n ≤ 256 * k) (hj : a % 256 + n ≤ 256 * j) : pieces k a n = pieces j a n := by
  induction k generalizing a n j with
  | zero => simp [show n = 0 by omega]
  | succ k ih =>
    cases j with
    | zero => simp [show n = 0 by omega]
    | succ j =>
      by_cases hn : n = 0
      · simp [hn]
      · rw [pieces_succ hn, pieces_succ hn]
        by_cases hm : n ≤ 256 - a % 256
        · simp [Nat.min_eq_left hm]
        · rw [Nat.min_eq_right (by omega), ih (j := j) (by omega) (by omega)]

theorem piecesOf_one (hn : 0 < n) (hc : n ≤ 256 - a % 256) : piecesOf a n = [(a, n)] := by
  rw [piecesOf, pieces_succ (by omega), Nat.min_eq_left hc]
  simp

theorem piecesOf_split (hc : 256 - a % 256 < n) :
    piecesOf a n = (a, 256 - a % 256) :: piecesOf (a + (256 - a % 256)) (n - (256 - a % 256)) := by
  rw [piecesOf, pieces_succ (by omega), Nat.min_eq_right (by omega), piecesOf]
  congr 1
  exact pieces_fuel (by omega) (by omega)

theorem le_of_mem_pieces {fuel : Nat} {p : Nat × Nat} (hp : p ∈ pieces fuel a n) : a ≤ p.1 := by
  induction fuel generalizing a n with
  | zero => cases hp
  | succ fuel ih =>
    by_cases hn : n = 0
    · simp [hn] at hp
    · rw [pieces_succ hn] at hp
      rcases List.mem_cons.1 hp with rfl | hp
      · exact le_rfl
      · exact (Nat.le_add_right ..).trans (ih hp)

end Pieces

section Bytes
variable (w : Who) (e : Entry) (c : CapReg) (rights : Nat) (host : Bool)

/-- The check of one piece of an access. -/
def pieceChk (s : State) (p : Nat × Nat) : State × Chk :=
  atByte p.1 (checkAcc s w 0 c { rights := rights, n := p.2, align := 1, host := host } p.1)

/-- One piece of a read whose bytes start at `base`. -/
def readStep (base : Nat) (acc : EAns Nat) (p : Nat × Nat) : EAns Nat :=
  eBind acc fun s v => entChk w e (pieceChk w c rights host s p) fun s1 r =>
    eBind (entReadAt w e p.2 s1 r) fun s2 x => .ok s2 (v + 2 ^ (8 * (p.1 - base)) * x)

/-- One piece of a write of `v` whose bytes start at `base`. -/
def writeStep (base v : Nat) (acc : EAns Unit) (p : Nat × Nat) : EAns Unit :=
  eBind acc fun s _ => entChk w e (pieceChk w c rights host s p) fun s1 r =>
    entWriteAt w e p.2 (v / 2 ^ (8 * (p.1 - base)) % 2 ^ (8 * p.2)) s1 r

variable {w e c rights host} {s : State} {b n v : Nat}

theorem entRead_ofNat : entRead w e c rights host s b n = (piecesOf b n).foldl (readStep w e c rights host b) (.ok s 0) :=
  if_neg (by omega)

theorem entWrite_ofNat : entWrite w e c rights host s b n v = (piecesOf b n).foldl (writeStep w e c rights host b v) (.ok s ()) :=
  if_neg (by omega)

theorem readStep_eBind (x : EAns Nat) (p : Nat × Nat) :
    readStep w e c rights host b x p = eBind x fun s v => readStep w e c rights host b (.ok s v) p := by
  cases x <;> rfl

theorem writeStep_eBind (x : EAns Unit) (p : Nat × Nat) :
    writeStep w e c rights host b v x p = eBind x fun s u => writeStep w e c rights host b v (.ok s u) p := by
  cases x <;> rfl

/-- A piece at `base + k` or beyond reads the same into a value that starts `k` bytes later. -/
theorem readStep_shift {base k : Nat} {p : Nat × Nat} (hp : base + k ≤ p.1) (v : Nat) (x : EAns Nat) :
    readStep w e c rights host base (eBind x fun s y => .ok s (v + 2 ^ (8 * k) * y)) p =
      eBind (readStep w e c rights host (base + k) x p) fun s y => .ok s (v + 2 ^ (8 * k) * y) := by
  have hpow : 2 ^ (8 * (p.1 - base)) = 2 ^ (8 * k) * 2 ^ (8 * (p.1 - (base + k))) := by rw [← pow_add]; congr 1; omega
  have hval : ∀ y z, v + 2 ^ (8 * k) * y + 2 ^ (8 * (p.1 - base)) * z = v + 2 ^ (8 * k) * (y + 2 ^ (8 * (p.1 - (base + k))) * z) := by
    intro y z
    rw [hpow]
    ring
  simp only [readStep, eBind_assoc, eBind_entChk, eBind_ok, hval]

theorem foldl_readStep_shift {base k : Nat} {l : List (Nat × Nat)} (hl : ∀ p ∈ l, base + k ≤ p.1) (v : Nat) (x : EAns Nat) :
    l.foldl (readStep w e c rights host base) (eBind x fun s y => .ok s (v + 2 ^ (8 * k) * y)) =
      eBind (l.foldl (readStep w e c rights host (base + k)) x) fun s y => .ok s (v + 2 ^ (8 * k) * y) := by
  induction l generalizing x with
  | nil => rfl
  | cons p r ih =>
    obtain ⟨hp, hr⟩ := List.forall_mem_cons.1 hl
    rw [List.foldl_cons, readStep_shift hp, ih hr, List.foldl_cons]

theorem writeStep_shift {base k : Nat} {p : Nat × Nat} (hp : base + k ≤ p.1) (x : EAns Unit) :
    writeStep w e c rights host base v x p = writeStep w e c rights host (base + k) (v / 2 ^ (8 * k)) x p := by
  have hdiv : v / 2 ^ (8 * (p.1 - base)) = v / 2 ^ (8 * k) / 2 ^ (8 * (p.1 - (base + k))) := by
    rw [Nat.div_div_eq_div_mul, ← pow_add]
    congr 2
    omega
  rw [writeStep, writeStep, hdiv]

/-- A read of one piece. -/
theorem entRead_one (hn : 0 < n) (hc : n ≤ 256 - b % 256) :
    entRead w e c rights host s b n = entChk w e (pieceChk w c rights host s (b, n)) fun s1 r => entReadAt w e n s1 r := by
  rw [entRead_ofNat, piecesOf_one hn hc, List.foldl_cons, List.foldl_nil]
  have hid : ∀ x : EAns Nat, eBind x (fun s2 y => .ok s2 (0 + 2 ^ (8 * (b - b)) * y)) = x := fun x => by cases x <;> simp [eBind]
  simp only [readStep, eBind_ok, hid]

theorem entWrite_one (hn : 0 < n) (hc : n ≤ 256 - b % 256) :
    entWrite w e c rights host s b n v =
      entChk w e (pieceChk w c rights host s (b, n)) fun s1 r => entWriteAt w e n (v % 2 ^ (8 * n)) s1 r := by
  rw [entWrite_ofNat, piecesOf_one hn hc, List.foldl_cons, List.foldl_nil]
  simp [writeStep, eBind]

/-- A read that crosses a line is the read up to the line's end and the read of the rest. -/
theorem entRead_split (hc : 256 - b % 256 < n) :
    entRead w e c rights host s b n = eBind (entRead w e c rights host s b (256 - b % 256)) fun s1 x =>
      eBind (entRead w e c rights host s1 (b + (256 - b % 256) : Nat) (n - (256 - b % 256))) fun s2 y =>
        .ok s2 (x + 2 ^ (8 * (256 - b % 256)) * y) := by
  have hrest : ∀ p ∈ piecesOf (b + (256 - b % 256)) (n - (256 - b % 256)), b + (256 - b % 256) ≤ p.1 := fun p hp => le_of_mem_pieces hp
  rw [entRead_ofNat, piecesOf_split hc, List.foldl_cons, foldl_eBind readStep_eBind,
    entRead_ofNat, piecesOf_one (by omega) le_rfl, List.foldl_cons, List.foldl_nil]
  refine congrArg (eBind _) (funext₂ fun s1 x => ?_)
  rw [entRead_ofNat, ← foldl_readStep_shift hrest]
  rfl

/-- So is a write, the rest taking the higher bytes of the value. -/
theorem entWrite_split (hc : 256 - b % 256 < n) :
    entWrite w e c rights host s b n v = eBind (entWrite w e c rights host s b (256 - b % 256) v) fun s1 _ =>
      entWrite w e c rights host s1 (b + (256 - b % 256) : Nat) (n - (256 - b % 256)) (v / 2 ^ (8 * (256 - b % 256))) := by
  have hrest : ∀ p ∈ piecesOf (b + (256 - b % 256)) (n - (256 - b % 256)), b + (256 - b % 256) ≤ p.1 := fun p hp => le_of_mem_pieces hp
  rw [entWrite_ofNat, piecesOf_split hc, List.foldl_cons, foldl_eBind writeStep_eBind,
    entWrite_ofNat, piecesOf_one (by omega) le_rfl, List.foldl_cons, List.foldl_nil]
  refine congrArg (eBind _) (funext₂ fun s1 _ => ?_)
  rw [entWrite_ofNat]
  exact List.foldl_ext _ _ _ fun x p hp => writeStep_shift (hrest p hp) x

end Bytes

end Sys2Proof.Proofs

/-! Object bytes of an engine entry at their home (R74, R86, R112). -/

namespace Sys2Proof.Proofs
open Sys2Proof.Machine Sys2Proof.Claims

section Lines
variable {s : State} {w : Who} {r : Res} {k : LineKey}

theorem testBit_bitsN {n : Nat} (b : BitVec n) (lo : Nat) {len j : Nat} (hj : j < len) : (bitsN b lo len).testBit j = b.getLsbD (lo + j) := by
  rw [bitsN, ← BitVec.getLsbD, BitVec.getLsbD_extractLsb']
  simp [hj]

theorem getLsbD_wordMaskBits (mask : BitVec 64) {i : Nat} (hi : i < 2048) : (wordMaskBits mask).getLsbD i = mask.getLsbD (i / 32) := by
  have hlane := lane_ofLanes_map (n := 2048) (w := 32) (k := i / 32) (by omega) fun k => if mask.getLsbD k then 2 ^ 32 - 1 else 0
  have hmod : i % 32 < 32 := Nat.mod_lt _ (by decide)
  rw [← Nat.div_add_mod i 32, ← testBit_bitsN _ _ hmod]
  refine (congrArg (Nat.testBit · (i % 32)) hlane).trans ?_
  rw [Nat.mul_add_div (by decide), Nat.div_eq_of_lt hmod, Nat.add_zero]
  cases mask.getLsbD (i / 32) with
  | true => exact (Nat.testBit_two_pow_sub_one 32 _).trans (decide_eq_true hmod)
  | false => exact Nat.zero_testBit _

theorem getLsbD_mergeWords (a b : Line) (mask : BitVec 64) {i : Nat} (hi : i < 2048) :
    (mergeWords a b mask).getLsbD i = if mask.getLsbD (i / 32) then b.getLsbD i else a.getLsbD i := by
  simp only [mergeWords, BitVec.getLsbD_or, BitVec.getLsbD_and, BitVec.getLsbD_not, getLsbD_wordMaskBits mask hi, hi, decide_true, Bool.true_and]
  cases mask.getLsbD (i / 32) <;> simp

theorem getLsbD_wordsTouched (off n : Nat) {i : Nat} (hi : i < 64) :
    (wordsTouched off n).getLsbD i = decide (off < 4 * i + 4 ∧ 4 * i < off + n) :=
  (getLsbD_bitSum (fun i => off < 4 * i + 4 && 4 * i < off + n) hi).trans (Bool.decide_and ..).symm

/-- The words that bytes touch hold all of them. -/
theorem mergeWords_lineSet (d : Line) (off n x : Nat) : mergeWords d (lineSet d off n x) (wordsTouched off n) = lineSet d off n x := by
  refine BitVec.eq_of_getLsbD_eq fun i hi => ?_
  rw [getLsbD_mergeWords _ _ _ hi, getLsbD_wordsTouched off n (by omega), lineSet, getLsbD_setBits d _ _ x hi]
  split
  case isTrue => rfl
  case isFalse hout => rw [if_neg fun hin => hout (decide_eq_true ⟨by omega, by omega⟩)]

theorem samePlace_fillOf (s : State) (r : Res) : samePlace r (fillOf s r) = true := by simp [samePlace, fillOf]

/-- Where the set of an absent line has a free way, no line leaves for it. -/
theorem l2Room_of_lt {sl : SlabId} {pa : Nat} (h : (l2Mates s sl pa).length < 16) : l2Room s sl pa = s := by
  rw [l2Room, if_pos h, ite_self]

/-- Bringing a line that has room changes nothing but that it is resident. -/
theorem homeLine_bring (hr : HasRoom s r) : homeLine (bring s r) r = homeLine s r := by
  unfold HasRoom at hr
  cases hl : lkp s.l2 r.key with
  | some l => rw [hl] at hr; simp [bring, hl, hr]
  | none =>
    rw [hl] at hr
    have hhome : homeLine s r = fillOf s r := by simp [homeLine, hl]
    have hbring : bring s r = putLine s r.key (fillOf s r) := by simp [bring, hl, l2Room_of_lt hr, hhome]
    rw [hbring, hhome]
    simp [homeLine, putLine, samePlace_fillOf]

/-- The line that stands in the L2 after it was brought. -/
theorem lkp_bring (hr : HasRoom s r) : lkp (bring s r).l2 r.key = some (homeLine s r) := by
  unfold HasRoom at hr
  cases hl : lkp s.l2 r.key with
  | some l => rw [hl] at hr; simp [bring, homeLine, hl, hr]
  | none => rw [hl] at hr; simp [bring, homeLine, hl, l2Room_of_lt hr, putLine]

theorem mates_of_recs {l : HLine} (h : l.recs = []) (w : Who) : mates w l = [] := by simp [mates, h]

/-- A line without records has no words that another task closed. -/
theorem closedYield_of_recs {l : HLine} (hl : lkp s.l2 k = some l) (h : l.recs = []) (w : Who) (mask : BitVec 64) :
    closedYield s w k mask = s := by
  simp [closedYield, hl, mates_of_recs h]

theorem conflicts_of_clear {l : HLine} (hrec : l.recs = []) (hmark : l.marks = []) (w : Who) (mask : BitVec 64) (ordered : Bool) :
    conflicts w l mask ordered = false := by
  simp [conflicts, plainOpen, syncOpen, hrec, hmark]

@[simp] theorem harm_l2 (s : State) (k : LineKey) : (harm s k).l2 = s.l2 := by
  unfold harm
  split <;> rfl

/-- A resident line under a byte written below the L2. -/
def putByte (a : Nat) (b : Byte) (k : LineKey) (l : HLine) : HLine :=
  if isPhysLine (a / 256) (k, l) then
    { l with data := lineSet l.data (a % 256) 1 b.toNat, tags := l.tags &&& ~~~ granulesTouched (a % 256) 1 }
  else l

theorem physPut_l2 (s : State) (a : Nat) (b : Byte) : (physPut s a b).l2 = s.l2.map fun x => (x.1, putByte a b x.1 x.2) := by
  refine List.map_congr_left fun x _ => ?_
  unfold putByte
  split <;> rfl

/-- A write below the L2 reaches no resident line of an object. -/
theorem lkp_l2_physPut (hk : k.oid ≠ 0) (s : State) (a : Nat) (b : Byte) : lkp (physPut s a b).l2 k = lkp s.l2 k := by
  have hid : putByte a b k = id := funext fun l => if_neg (by simpa [isPhysLine] using fun h => absurd h hk)
  rw [physPut_l2, lkp_map_key, hid, Option.map_id_fun, id]

theorem lkp_l2_physWrite (hk : k.oid ≠ 0) (b : List Byte) (s : State) (a : Nat) : lkp (physWrite s a b).l2 k = lkp s.l2 k := by
  induction b generalizing s a with
  | nil => rfl
  | cons x r ih => exact (ih _ _).trans (lkp_l2_physPut hk s a x)

/-- Noting the extent of an access leaves the line. -/
theorem lkp_l2_touchExtent (s : State) (w : Who) (r : Res) : lkp (touchExtent s w r).l2 r.key = lkp s.l2 r.key := by
  unfold touchExtent
  by_cases hk : r.key.oid = 0
  · simp [hk]
  · extract_lets
    split
    · rfl
    · split
      · rfl
      · split
        · rfl
        · split
          · rfl
          · exact lkp_l2_physWrite hk ..

theorem bumpVer_data (l : HLine) : (bumpVer l).data = l.data := by unfold bumpVer; split <;> rfl
theorem bumpVer_marks (l : HLine) : (bumpVer l).marks = l.marks := by unfold bumpVer; split <;> rfl
theorem bumpVer_ver (l : HLine) : (bumpVer l).ver = if l.vsh = none then l.ver else l.ver + 1 := by
  unfold bumpVer
  cases l.vsh <;> rfl

end Lines

section Places
variable {s : State} {w : Who} {e : Entry} {q : QueueId} {r : Res} {n v sn : Nat}

/-- The line as the first write of an entry leaves it at its home. -/
def firstWrite (q : QueueId) (sn : Nat) (l : HLine) (off n v : Nat) : HLine :=
  let l1 := publishWords l (wordsTouched off n) (lineSet l.data off n v) 0
  bumpVer { l1 with marks := l1.marks ++ [⟨q, sn, wordsTouched off n⟩] }

/-- The write to a line that nothing holds: its words published and marked (R86, R112, R277). -/
theorem entStoreAt_clear (hh : r.host = false) (hq : w.entry = some (q, sn)) (hr : refusesFrom s w.die r.home r.pa = none)
    (hrec : (homeLine s r).recs = []) (hmark : (homeLine s r).marks = []) (hroom : HasRoom s r) :
    entStoreAt w e n v s r = .ok (touchExtent (harm (putLine (bring s r) r.key
      (firstWrite q sn (homeLine s r) (r.loc.byte % 256) n v)) r.key) w r) () := by
  have hyield := closedYield_of_recs (lkp_bring hroom) hrec w (wordsTouched (r.loc.byte % 256) n)
  simp [entStoreAt, hh, hr, conflicts_of_clear hrec hmark, hyield, homeLine_bring hroom, hq, publishWords, hmark, firstWrite]

theorem lkp_firstWrite (u : State) (l : HLine) (w : Who) (r : Res) :
    lkp (touchExtent (harm (putLine u r.key l) r.key) w r).l2 r.key = some l := by
  rw [lkp_l2_touchExtent, harm_l2]
  exact lkp_ins_same ..

theorem firstWrite_data (q : QueueId) (sn : Nat) (l : HLine) (off n v : Nat) : (firstWrite q sn l off n v).data = lineSet l.data off n v :=
  (bumpVer_data _).trans (mergeWords_lineSet ..)

theorem firstWrite_marks {l : HLine} (hl : l.marks = []) (off : Nat) :
    (firstWrite q sn l off n v).marks = [⟨q, sn, wordsTouched off n⟩] :=
  (bumpVer_marks _).trans (by simp [publishWords, hl])

theorem firstWrite_ver (q : QueueId) (sn : Nat) (l : HLine) (off n v : Nat) :
    (firstWrite q sn l off n v).ver = if l.vsh = none then l.ver else l.ver + 1 := bumpVer_ver _

/-- A host object's bytes, and those of a home on the entry's own die, are written in place. -/
theorem entWriteAt_here (h : r.host = true ∨ ∃ q sn, w.entry = some (q, sn) ∧ r.home.die = q.die) :
    entWriteAt w e n v s r = entStoreAt w e n v s r := by
  rcases h with hh | ⟨q, sn, hq, hd⟩
  · cases hq : w.entry with
    | none => simp [entWriteAt, hq]
    | some x => simp [entWriteAt, hq, hh]
  · simp [entWriteAt, hq, hd]

/-- The engines that send packets send one for a write to another die (R346, R349). -/
theorem entWriteAt_away (hh : r.host = false) (hq : w.entry = some (q, sn)) (hd : r.home.die ≠ q.die) (hs : sendsPackets q) :
    entWriteAt w e n v s r = .ok (addAck (sendPkt s q.die r.home.die e.tag (.ewrite e.pid r (bytesOf n v) q sn)) q sn) () := by
  have hs' : (q.q == .ce0 || q.q == .ce1 || q.q == .ge || q.q == .le) = true := by
    rcases hs with h | h | h | h <;> simp [h]
  simp [entWriteAt, hq, hh, hd, hs']

end Places

section Outcomes
variable {s s1 s2 : State} {w : Who} {e : Entry} {c : CapReg} {rights b n v : Nat} {host : Bool} {r : Res} {f : FInfo}

/-- The check of a piece that lies in one line. -/
def oneChk (s : State) (w : Who) (c : CapReg) (rights : Nat) (host : Bool) (b n : Nat) : State × Chk :=
  checkAcc s w 0 c { rights := rights, n := n, align := 1, host := host } b

variable (hn : 0 < n) (hc : n ≤ 256 - b % 256)
include hn hc

theorem one_fault (h : oneChk s w c rights host b n = (s1, .fault f)) :
    let g := entFault e { f with pos := some (f.pos.getD (BitVec.ofNat 64 b)) }
    entRead w e c rights host s b n = .fault s1 g ∧ entWrite w e c rights host s b n v = .fault s1 g := by
  rw [oneChk] at h
  rw [entRead_one hn hc, entWrite_one hn hc, pieceChk, h]
  exact ⟨rfl, rfl⟩

theorem one_moving (h : oneChk s w c rights host b n = (s1, .moving)) :
    entRead w e c rights host s b n = .hold s1 ∧ entWrite w e c rights host s b n v = .hold s1 := by
  rw [oneChk] at h
  rw [entRead_one hn hc, entWrite_one hn hc, pieceChk, h]
  exact ⟨rfl, rfl⟩

theorem one_unmapped (h : oneChk s w c rights host b n = (s1, .unmapped r)) :
    entRead w e c rights host s b n = .hold (postExtent s1 w r) ∧ entWrite w e c rights host s b n v = .hold (postExtent s1 w r) := by
  rw [oneChk] at h
  rw [entRead_one hn hc, entWrite_one hn hc, pieceChk, h]
  exact ⟨rfl, rfl⟩

theorem one_ok (h : oneChk s w c rights host b n = (s1, .ok r)) :
    entRead w e c rights host s b n = entReadAt w e n s1 r ∧
      entWrite w e c rights host s b n v = entWriteAt w e n (v % 2 ^ (8 * n)) s1 r := by
  rw [oneChk] at h
  rw [entRead_one hn hc, entWrite_one hn hc, pieceChk, h]
  exact ⟨rfl, rfl⟩

end Outcomes

theorem entryBytes : EntryBytes := by
  intro s w q e c rights host a n v cut read write chk
  refine ⟨fun hneg => ⟨if_pos hneg, if_pos hneg⟩, fun hpos hcut => ?_, fun hpos hn hone s1 => ?_⟩
  · obtain ⟨b, rfl⟩ := Int.eq_ofNat_of_zero_le hpos
    exact ⟨entRead_split hcut, entWrite_split hcut⟩
  · obtain ⟨b, rfl⟩ := Int.eq_ofNat_of_zero_le hpos
    refine ⟨fun f hf => one_fault hn hone hf, fun hm => one_moving hn hone hm, fun r hu => one_unmapped hn hone hu, fun r hok => ?_⟩
    obtain ⟨hread, hwrite⟩ : read s b n = entReadAt w e n s1 r ∧ write s b n v = entWriteAt w e n (v % 2 ^ (8 * n)) s1 r :=
      one_ok hn hone hok
    intro off l mask x
    rw [hread, hwrite]
    refine ⟨fun hh y hy => ⟨by simp [entReadAt, hh, hy], ?_⟩, fun hh => ⟨fun s2 d tg hl => by simp [entReadAt, hh, hl, off],
      fun o hl => by simp [entReadAt, hh, hl], fun y hl => by simp [entReadAt, hh, hl], fun hq => ⟨entWriteAt_away hh hq, fun hd => ?_⟩⟩⟩
    · rw [entWriteAt_here (.inl hh)]
      simp [entStoreAt, hh, hy, x]
    · rw [entWriteAt_here (.inr ⟨q, _, hq, hd⟩)]
      refine ⟨fun y hy => by simp [entStoreAt, hh, hy], fun hr => ⟨fun hcon => ?_, fun hrec hmark _ hroom _ =>
        ⟨_, entStoreAt_clear hh hq hr hrec hmark hroom, _, lkp_firstWrite .., firstWrite_data .., firstWrite_marks hmark _, firstWrite_ver ..⟩⟩⟩
      have hcon : conflicts w (homeLine s1 r) (wordsTouched (r.loc.byte % 256) n) false = true := hcon
      simp [entStoreAt, hh, hr, hcon, l, mask, off]

end Sys2Proof.Proofs

/-! Scratch, FIFO and copies of an engine entry (R80, R123, R280 to R283). -/

namespace Sys2Proof.Proofs
open Sys2Proof.Machine Sys2Proof.Claims

section Scratch
variable {s t : State} {q : QueueId} {e : Entry} {m : Mode} {a n v : Nat} {α β : Type}

theorem mem_banksOf {b : Nat} (h : b ∈ banksOf a n) : b < 48 ∧ b * 2 ^ 18 < a + n ∧ a < (b + 1) * 2 ^ 18 := by
  unfold banksOf at h
  split at h
  · cases h
  · obtain ⟨hb, hin⟩ := List.mem_filter.1 h
    exact ⟨List.mem_range.1 hb, of_decide_eq_true hin⟩

/-- Bytes whose banks serve the entry pass the mode check (R277 step 5). -/
theorem entScr_ready (h : BanksReady s e m a n) (k : EAns α) : entScr s e (entClus e) m a n k = k := by
  obtain ⟨hend, hbank⟩ := h
  have hmem : ∀ b ∈ banksOf a n, inTransit s (entClus e) b = false ∧ (bankAt (clusterAt s (entClus e)) b).mode = m := fun b hb => by
    obtain ⟨hlt, hlo, hhi⟩ := mem_banksOf hb
    exact hbank b hlt hlo hhi
  have htransit : ¬ ((banksOf a n).any fun b => inTransit s (entClus e) b) = true := by
    simpa using fun b hb => (hmem b hb).1
  have hmode : ((banksOf a n).all fun b => decide ((bankAt (clusterAt s (entClus e)) b).mode = m)) = true := by
    simpa using fun b hb => (hmem b hb).2
  rw [entScr, if_neg (Nat.not_lt.2 hend), if_neg htransit, if_pos hmode]

/-- A byte that a reader sees is the present one or one that some write replaced. -/
theorem oldByte_sees (free a k : Nat) (now : Byte) (l : List (List (Nat × Byte))) :
    oldByte free a now k l = now ∨ ∃ x ∈ l, lkp x a = some (oldByte free a now k l) := by
  induction l generalizing now k with
  | nil => exact .inl rfl
  | cons x r ih =>
    rw [oldByte]
    cases hx : lkp x a with
    | none =>
      refine (ih (k + 1) now).imp_right fun ⟨y, hy, hat⟩ => ⟨y, List.mem_cons_of_mem _ hy, hat⟩
    | some b =>
      dsimp only
      split
      · rcases ih (k + 1) b with hb | ⟨y, hy, hat⟩
        · exact .inr ⟨x, List.mem_cons_self, by rw [hb, hx]⟩
        · exact .inr ⟨y, List.mem_cons_of_mem _ hy, hat⟩
      · exact .inl rfl

/-- What an entry reads of scratch, byte for byte (R123; log 8). -/
theorem scrSeen_sees (s : State) (e : Entry) (a n : Nat) :
    ∃ b : Nat → Byte, (∀ j < n, EntrySees s e (a + j) (b j)) ∧ scrSeen s (entClus e) none e.serial a n = (List.range n).map b := by
  unfold scrSeen
  extract_lets k olds
  split
  · exact ⟨fun j => scrByte k (a + j), fun j _ => .inl rfl, rfl⟩
  · exact ⟨_, fun j _ => oldByte_sees s.free (a + j) 0 _ olds, rfl⟩

theorem fromScratch_read (s : State) (e : Entry) (a n : Nat) :
    FromScratch s e a n (entScrRead s e (entClus e) a n) fun v => .ok (afterRead s) v := by
  intro hready
  obtain ⟨b, hsees, hseen⟩ := scrSeen_sees s e a n
  exact ⟨b, hsees, (entScr_ready hready _).trans (by rw [hseen]; rfl)⟩

/-- What a unit does with the bytes that it reads from scratch. -/
theorem fromScratch_bind (s : State) (e : Entry) (a n : Nat) (k : State → Nat → EAns β) :
    FromScratch s e a n (eBind (entScrRead s e (entClus e) a n) k) (k (afterRead s)) := by
  intro hready
  obtain ⟨b, hsees, hread⟩ := fromScratch_read s e a n hready
  exact ⟨b, hsees, by rw [hread]; rfl⟩

theorem scrRead_zipIdx (k : Cluster) (a n : Nat) :
    ((scrRead k a n).zipIdx.map fun x => (a + x.2, x.1)) = (List.range n).map fun i => (a + i, scrByte k (a + i)) := by
  refine List.ext_getElem (by simp [scrRead]) fun i h1 h2 => ?_
  simp [scrRead]

theorem entScrWrite_ready (h : BanksReady s e .scratch a n) (q : QueueId) (v : Nat) :
    entScrWrite s q e (entClus e) a n v = .ok (landed s q e a n v) () := by
  rw [entScrWrite, entScr_ready h, scrRead_zipIdx, landed]
  cases hh : isHalo e <;> simp

theorem fifoPush_ready (h : BanksReady s e .fifo a 256) (hroom : (fifoAt s e a).length < 1024) (v : Nat) :
    entFifoPush s e a v = .ok (withFifo s e a (fifoAt s e a ++ [BitVec.ofNat 2048 v])) () :=
  (entScr_ready h _).trans (if_neg (Nat.not_le.2 hroom))

theorem fifoPush_full (h : BanksReady s e .fifo a 256) (hfull : 1024 ≤ (fifoAt s e a).length) (v : Nat) :
    entFifoPush s e a v = .hold s :=
  (entScr_ready h _).trans (if_pos hfull)

theorem fifoPop_empty (h : BanksReady s e .fifo a 256) (hl : fifoAt s e a = []) : entFifoPop s e a = .hold s := by
  rw [fifoAt] at hl
  rw [entFifoPop, entScr_ready h, hl]

theorem fifoPop_cons {l : BitVec 2048} {r : List (BitVec 2048)} (h : BanksReady s e .fifo a 256) (hl : fifoAt s e a = l :: r) :
    entFifoPop s e a = .ok (withFifo s e a r) l.toNat := by
  rw [fifoAt] at hl
  rw [entFifoPop, entScr_ready h, hl]
  rfl

variable {write : State → Nat → EAns Unit} {sa off : Nat}

theorem storeFrom_scratch (hf : e.fifo = false) (write : State → Nat → EAns Unit) (sa off n : Nat) (s : State) :
    storeFrom e sa off n write s = eBind (entScrRead s e (entClus e) (sa + off) n) write :=
  if_neg (by simp [hf])

theorem storeFrom_empty (hf : e.fifo = true) (h : BanksReady s e .fifo sa 256) (hl : fifoAt s e sa = []) :
    storeFrom e sa off n write s = .hold s := by
  rw [storeFrom, if_pos hf, fifoPop_empty h hl]
  rfl

/-- The entry leaves the FIFO once its write is made (R282). -/
theorem storeFrom_fifo {l : BitVec 2048} {r : List (BitVec 2048)} (hf : e.fifo = true) (h : BanksReady s e .fifo sa 256)
    (hl : fifoAt s e sa = l :: r) (hw : write s l.toNat = .ok t ()) (ht : BanksReady t e .fifo sa 256) (htl : fifoAt t e sa = l :: r) :
    storeFrom e sa off n write s = .ok (withFifo t e sa r) () := by
  rw [storeFrom, if_pos hf, fifoPop_cons h hl, eBind_ok, hw, eBind_ok, fifoPop_cons ht htl, eBind_ok]

end Scratch

section Copies
variable {s s1 s2 t : State} {q : QueueId} {e : Entry} {store : Bool} {n : Nat} {x : TEntry} {r : Res}

/-- The check of line `n` of an entry's box (R280). -/
def lineChk (q : QueueId) (e : Entry) (store : Bool) (s : State) (x : TEntry) (n : Nat) : State × Chk :=
  let dist := wDist x.word0
  let p := boxCoord dist (coordsOf (entReg e 1)) (boxLine (entReg e 2) n)
  let a := boxByte dist (entCap e 0) (geom x.word0 x.dims) p
  let ask : Ask := { rights := rENG + (if store then rST else rLD), n := 256, align := 256, host := true }
  if dist then checkTile s (entWho q e) 0 (entCap e 0) ask a p 0 else checkAcc s (entWho q e) 0 (entCap e 0) ask a

/-- What follows the check of a line that is there. -/
def lineMove (q : QueueId) (e : Entry) (store : Bool) (n : Nat) (s : State) (r : Res) : EAns Unit :=
  let sa := bitsN (entReg e 2) 0 24
  if store then storeFrom e sa (256 * n) 256 (fun t v => entWriteAt (entWho q e) e 256 v t r) s
  else eBind (entReadAt (entWho q e) e 256 s r) fun t v =>
    if e.fifo then entFifoPush t e sa v else entScrWrite t q e (entClus e) (sa + 256 * n) 256 v

theorem cpyUnit_eq (hx : xlate s (entWho q e) ⟨capOid (entCap e 0), 0, 0⟩ = (s1, x)) :
    cpyUnit q e store s n = entChk (entWho q e) e (lineChk q e store s1 x n) (lineMove q e store n) := by
  rw [cpyUnit, hx]
  rfl

theorem entReadAt_home {w : Who} {d : Line} {tg : BitVec 8} (hh : r.host = false) (hl : homeLoad s w r n false = .ok t (d, tg)) :
    entReadAt w e n s r = .ok t (lineGet d (r.loc.byte % 256) n) := by
  simp [entReadAt, hh, hl]

/-- The object byte of piece `n` of a linear copy. -/
theorem pieceByte (p : Int) (a n : Nat) : p + a + 256 * n = p + (a + 256 * n : Nat) := by
  push_cast
  ring

theorem cpylUnit_load {v : Nat} :
    let sa := bitsN (entReg e 2) 0 24
    let len := min 256 (bitsN (entReg e 2) 24 40 - 256 * n)
    entRead (entWho q e) e (entCap e 0) 17 true s (capPos (entCap e 0) + ((entReg e 1).toNat + 256 * n : Nat)) len = .ok t v →
      cpylUnit q e false s n =
        if e.fifo then entFifoPush t e sa v else entScrWrite t q e (entClus e) (sa + 256 * n) len v := by
  intro sa len hread
  dsimp only [cpylUnit]
  rw [pieceByte]
  exact (if_neg Bool.false_ne_true).trans (eBind_of_ok hread _)

theorem cpylUnit_store :
    let len := min 256 (bitsN (entReg e 2) 24 40 - 256 * n)
    cpylUnit q e true s n = storeFrom e (bitsN (entReg e 2) 0 24) (256 * n) len (fun t v =>
      entWrite (entWho q e) e (entCap e 0) 18 true t (capPos (entCap e 0) + ((entReg e 1).toNat + 256 * n : Nat)) len v) s := by
  intro len
  dsimp only [cpylUnit]
  rw [pieceByte]
  rfl

theorem cpylOoUnit_eq :
    let len := min 256 ((entReg e 1).toNat - 256 * n)
    cpylOoUnit q e s n = eBind (entRead (entWho q e) e (entCap e 0) 17 true s (capPos (entCap e 0) + (256 * n : Nat)) len) fun t v =>
      entWrite (entWho q e) e (entCap e 1) 18 true t (capPos (entCap e 1) + (256 * n : Nat)) len v := by
  intro len
  dsimp only [cpylOoUnit]
  rw [Nat.cast_mul]
  rfl

/-- Record `n` once its index is read (R283). -/
def recordMove (q : QueueId) (e : Entry) (store : Bool) (n : Nat) (s : State) (idx : Nat) : EAns Unit :=
  let c := entCap e 0
  let size := 32 * bitsN (entReg e 2) 24 16
  let da := bitsN (entReg e 2) 0 24 + size * n
  let a : Int := capPos c + (size * idx : Nat)
  if a < capBase c ∨ (capBase c : Int) + capLen c < a + size then
    .fault s (entFault e { cls := 3, d0 := BitVec.ofInt 64 a, oid := capOid c })
  else if store then eBind (entScrRead s e (entClus e) da size) fun t v => entWrite (entWho q e) e c 18 false t a size v
  else eBind (entRead (entWho q e) e c 17 false s a size) fun t v => entScrWrite t q e (entClus e) da size v

theorem outside_iff (lo hi a n : Int) : (!(decide (lo ≤ a) && decide (a + n ≤ hi))) = true ↔ a < lo ∨ hi < a + n := by
  simp [or_iff_not_imp_left]

theorem gathUnit_eq :
    gathUnit q e store s n =
      eBind (entScrRead s e (entClus e) (bitsN (entReg e 1) 0 24 + 4 * n) 4) (recordMove q e store n) := by
  refine congrArg (eBind _) (funext₂ fun t idx => ?_)
  dsimp only [recordMove]
  rw [Nat.cast_mul (32 * bitsN (entReg e 2) 24 16) idx]
  exact if_congr (outside_iff ..) rfl rfl

theorem copyUnits : CopyUnits := by
  intro s q e n w c rights
  refine ⟨fun store s1 x hx => ?_, ?_, ?_, fun store => ?_, fun a m => fromScratch_read s e a m, fun a m v h => entScrWrite_ready h q v⟩
  · intro box na nb nc co dist ca cb cc cd a ask chk sa
    have heq : cpyUnit q e store s n = entChk w e chk (lineMove q e store n) := cpyUnit_eq hx
    refine ⟨fun s2 f hf => ?_, fun s2 hm => ?_, fun s2 r hu => ?_, fun s2 r hok => ?_⟩
    · rw [heq, hf]; rfl
    · rw [heq, hm]; rfl
    · rw [heq, hu]; rfl
    rw [hok] at heq
    refine ⟨fun hst hh s3 d tg hl => ?_, fun hst hf => ?_, fun hst hf hready => ⟨fun hl => ?_, fun l rest s3 hl hw ht htl => ?_⟩⟩
    · subst hst
      have hmove : cpyUnit q e false s n = eBind (entReadAt w e 256 s2 r) _ := heq
      rw [hmove, entReadAt_home hh hl]
      refine ⟨fun hf hready => ?_, fun hf hready hroom => ?_, fun hf hready hfull => ?_⟩
      · exact (if_neg (by simp [hf])).trans (entScrWrite_ready hready q _)
      · exact (if_pos hf).trans (fifoPush_ready hready hroom _)
      · exact (if_pos hf).trans (fifoPush_full hready hfull _)
    · subst hst
      have hmove : cpyUnit q e true s n = storeFrom e sa (256 * n) 256 (fun t v => entWriteAt w e 256 v t r) s2 := heq
      rw [hmove, storeFrom_scratch hf]
      exact fromScratch_bind s2 e _ _ _
    · subst hst
      have hmove : cpyUnit q e true s n = storeFrom e sa (256 * n) 256 (fun t v => entWriteAt w e 256 v t r) s2 := heq
      rw [hmove, storeFrom_empty hf hready hl]
    · subst hst
      have hmove : cpyUnit q e true s n = storeFrom e sa (256 * n) 256 (fun t v => entWriteAt w e 256 v t r) s2 := heq
      rw [hmove, storeFrom_fifo hf hready hl hw ht htl]
  · intro sp sa len a
    refine ⟨fun s1 v hread => ?_, fun hf => ?_, fun hf hready l rest s1 hl hw ht htl => ?_⟩
    · rw [cpylUnit_load hread]
      refine ⟨fun hf hready => ?_, fun hf hready hroom => ?_⟩
      · exact (if_neg (by simp [hf])).trans (entScrWrite_ready hready q _)
      · exact (if_pos hf).trans (fifoPush_ready hready hroom _)
    · rw [cpylUnit_store, storeFrom_scratch hf]
      exact fromScratch_bind s e _ _ _
    · rw [cpylUnit_store]
      exact storeFrom_fifo hf hready hl hw ht htl
  · intro len at1 s1 v s2 hread hwrite
    rw [cpylOoUnit_eq]
    exact (eBind_of_ok hread _).trans hwrite
  · intro size da
    rw [gathUnit_eq]
    exact fromScratch_bind s e _ _ _

end Copies

end Sys2Proof.Proofs

/-! The data and the flag of a SEND (R288, R291). -/

namespace Sys2Proof.Proofs
open Sys2Proof.Machine Sys2Proof.Claims

section Sends
variable {s s1 s2 : State} {q : QueueId} {e : Entry} {k fn : Nat} {r : Res}

theorem lt_chunks_iff (k n : Nat) : k < chunks n ↔ 2048 * k < n := by
  unfold chunks cdiv chunkBytes
  omega

/-- Piece `k` of a SEND's data once it is read from scratch (R288, R291). -/
def pieceMove (q : QueueId) (e : Entry) (fn k : Nat) (s : State) (v : Nat) : EAns Unit :=
  let fl := entReg e 2
  let m := chunkOf (spanLen (entReg e 1)) k
  let port := bitsN fl 0 3
  let nb := neighbourOf s e.pid q.die port
  let opp := if port % 2 = 0 then port + 1 else port - 1
  if fn = 3 then
    if nb = q.die then .ok (streamIn s nb (e.core.core / 4) opp (bytesOf m v)) ()
    else .ok (addAck (sendPkt s q.die nb e.tag (.stream e.pid (e.core.core / 4) opp (bytesOf m v) q e.serial (chunkBytes * k))) q e.serial) ()
  else
    entWrite (sendWho s (entWho q e) (entCap e 0) fl) e (entCap e 0) 18 false s (capPos (entCap e 0) + (2048 * k : Nat)) m v

theorem sendUnit_data (h : 2048 * k < spanLen (entReg e 1)) :
    sendUnit q e fn s k = eBind (entScrRead s e (entClus e) (spanAddr (entReg e 1) + 2048 * k) (chunkOf (spanLen (entReg e 1)) k))
      (pieceMove q e fn k) := by
  refine (if_pos ((lt_chunks_iff ..).2 h)).trans (congrArg (eBind _) (funext₂ fun t v => ?_))
  dsimp only [pieceMove]
  rw [Nat.cast_mul 2048 k]
  rfl

/-- Behind its data a SEND with a flag waits until every byte is visible (R288). -/
theorem sendUnit_waits (h : spanLen (entReg e 1) ≤ 2048 * k) (hfn : fn < 2) (ha : allAcked s q e.serial = false) :
    sendUnit q e fn s k = .hold s := by
  have hend : ¬ k < chunks (spanLen (entReg e 1)) := fun hlt => Nat.not_lt.2 h ((lt_chunks_iff ..).1 hlt)
  exact (if_neg hend).trans (if_pos (by simp [hfn, ha]))

theorem sendUnit_flag (h : spanLen (entReg e 1) ≤ 2048 * k) (ha : 2 ≤ fn ∨ allAcked s q e.serial = true) :
    sendUnit q e fn s k = sendFlag q e fn s := by
  have hend : ¬ k < chunks (spanLen (entReg e 1)) := fun hlt => Nat.not_lt.2 h ((lt_chunks_iff ..).1 hlt)
  refine (if_neg hend).trans (if_neg ?_)
  rcases ha with hfn | ha
  · simp [Nat.not_lt.2 hfn]
  · simp [ha]

theorem sendFlag_none (h : 2 ≤ fn) (s : State) : sendFlag q e fn s = .ok s () := by
  match fn, h with
  | _ + 2, _ => rfl

/-- The flag of SEND.mem at a place that its check found. -/
def flagMem (q : QueueId) (e : Entry) (w : Who) (s : State) (r : Res) : EAns Unit :=
  if r.home.die = q.die then
    match flagAt s w r with
    | .ok t _ => .ok t ()
    | .conflict o => .fault s (entRefused e r 0 o)
    | .refused why => .fault s (entRefused e r why 0)
  else .ok (addAck (sendPkt s q.die r.home.die e.tag (.flag e.pid r q e.serial)) q e.serial) ()

theorem sendFlag_mem_eq (q : QueueId) (e : Entry) (s : State) :
    let w := sendWho s (entWho q e) (entCap e 0) (entReg e 2)
    sendFlag q e 0 s = entChk w e (checkAcc s w 0 (entCap e 0) { rights := 16 + 2 + 4, n := 8, align := 8 }
      (capBase (entCap e 0) + (bitsN (entReg e 2) 0 47 : Nat))) (flagMem q e w) := rfl

/-- The flag of SEND.mem is an atomic at its home, or a packet to it (R288). -/
theorem sendFlag_mem
    (hc : checkAcc s (sendWho s (entWho q e) (entCap e 0) (entReg e 2)) 0 (entCap e 0) { rights := 16 + 2 + 4, n := 8, align := 8 }
      (capBase (entCap e 0) + (bitsN (entReg e 2) 0 47 : Nat)) = (s1, .ok r)) :
    let w := sendWho s (entWho q e) (entCap e 0) (entReg e 2)
    (r.home.die = q.die →
      (∀ s2 x, homeAtomic s1 w r 0 0xF 1 0 0 {} = .ok s2 x → sendFlag q e 0 s = .ok s2 ()) ∧
      (∀ o, homeAtomic s1 w r 0 0xF 1 0 0 {} = .conflict o → sendFlag q e 0 s = .fault s1 (entRefused e r 0 o)) ∧
      (∀ y, homeAtomic s1 w r 0 0xF 1 0 0 {} = .refused y → sendFlag q e 0 s = .fault s1 (entRefused e r y 0))) ∧
    (r.home.die ≠ q.die → sendFlag q e 0 s =
      .ok (addAck (sendPkt s1 q.die r.home.die e.tag (.flag e.pid r q e.serial)) q e.serial) ()) := by
  intro w
  rw [sendFlag_mem_eq, hc]
  refine ⟨fun hd => ⟨fun s2 x h => ?_, fun o h => ?_, fun y h => ?_⟩, fun hd => if_neg hd⟩
  all_goals
    refine (if_pos hd).trans ?_
    rw [flagAt, h]

theorem sendUnits : SendUnits := by
  intro s q e k fn sp fl len m c w die port nb opp
  refine ⟨fun hlt => ?_, fun hle hfn ha => sendUnit_waits hle hfn ha, fun hle hfn => ?_, fun hle hfn ha => ?_, fun hle hfn ha s1 r hc => ?_⟩
  · rw [sendUnit_data hlt]
    have hnext : pieceMove q e fn k (afterRead s) = fun v =>
        if fn ≠ 3 then entWrite w e c (16 + 2) false (afterRead s) (capBase c + capOff c + (2048 * k : Nat)) m v
        else if nb = q.die then .ok (streamIn (afterRead s) nb (e.core.core / 4) opp (bytesOf m v)) ()
        else .ok (addAck (sendPkt (afterRead s) q.die nb e.tag (.stream e.pid (e.core.core / 4) opp (bytesOf m v) q e.serial (2048 * k))) q e.serial) () :=
      funext fun v => (ite_not ..).symm
    rw [← hnext]
    exact fromScratch_bind s e _ _ _
  · rw [sendUnit_flag hle (.inl hfn), sendFlag_none hfn]
  · subst hfn
    rw [sendUnit_flag hle (.inr ha)]
    intro t
    exact ⟨fun hd hr => (if_pos hd).trans (if_neg (ne_true_of_eq_false hr)), fun hd hr => (if_pos hd).trans (if_pos hr), fun hd => if_neg hd⟩
  · subst hfn
    rw [sendUnit_flag hle (.inr ha)]
    exact sendFlag_mem hc

end Sends

end Sys2Proof.Proofs

/-! Start, work and completion steps of an engine queue (R122, R277, R285, R289). -/

namespace Sys2Proof.Proofs
open Sys2Proof.Machine Sys2Proof.Claims

section Work
variable {s t : State} {q : QueueId} {e x : Entry} {i : Instr} {serial : Nat} {fi : FInfo}

/-- The entry marked running; its wait ends there, but for a RESHD, whose rendezvous is still to come (R325). -/
def started (s : State) (q : QueueId) (e : Entry) : State :=
  modEntry s q e.serial fun x => { x with st := .running, since := if x.st = .queued ∧ q.q ≠ .rs then s.ck else x.since }

/-- The entry whose work has ended. -/
def ended (s : State) (q : QueueId) (serial : Nat) : State := modEntry s q serial fun x => { x with done := true }

/-- The entry completes with its flag: every packet acknowledged, and the flag its last effect (log 62). -/
def Closes (x : Entry) : Prop := x.acks = 0 ∧ ∃ f, (x.cmd = .send f ∨ x.cmd = .sendt f) ∧ f.fn.toNat < 2

theorem flagged_iff : flagged x = true ↔ ∃ f, (x.cmd = .send f ∨ x.cmd = .sendt f) ∧ f.fn.toNat < 2 := by
  constructor
  · intro h
    unfold flagged at h
    split at h
    case h_1 f hf => exact ⟨f, .inl hf, of_decide_eq_true h⟩
    case h_2 f hf => exact ⟨f, .inr hf, of_decide_eq_true h⟩
    case h_3 => cases h
  · rintro ⟨f, hf | hf, hlt⟩
    · simp [flagged, hf, hlt]
    · simp [flagged, hf, hlt]

theorem closes_iff : Closes x ↔ (flagged x && x.acks == 0) = true := by
  rw [Bool.and_eq_true, flagged_iff, beq_iff_eq, and_comm, Closes]

theorem endWork_closes (hx : entryAt (ended s q serial) q serial = some x) (hc : Closes x) :
    endWork s q serial = completeEntry (ended s q serial) q x := by
  rw [ended] at hx ⊢
  rw [endWork, hx]
  exact if_pos (closes_iff.1 hc)

theorem endWork_stays (h : ∀ x, entryAt (ended s q serial) q serial = some x → ¬ Closes x) : endWork s q serial = ended s q serial := by
  rw [ended] at h ⊢
  rw [endWork]
  cases hx : entryAt (modEntry s q serial fun x => { x with done := true }) q serial with
  | none => rfl
  | some x => exact if_neg fun hc => h x hx (closes_iff.2 hc)

theorem workEntry_started (s : State) (q : QueueId) (e : Entry) :
    (modEntry s q e.serial fun x => { x with st := .running, since := if x.st == .queued && q.q != .rs then s.ck else x.since }) =
      started s q e := by
  simp [started]

theorem workEntry_ended (h : runEntry q e (started s q e) = .ok t true) : workEntry s q e = endWork t q e.serial := by
  rw [workEntry, workEntry_started, h]
  rfl

theorem workEntry_goesOn (h : runEntry q e (started s q e) = .ok t false ∨ runEntry q e (started s q e) = .hold t) :
    workEntry s q e = t := by
  rcases h with h | h
  · rw [workEntry, workEntry_started, h]
    rfl
  · rw [workEntry, workEntry_started, h]

theorem workEntry_stops (h : runEntry q e (started s q e) = .fault t fi) : workEntry s q e = engFault t q e fi := by
  rw [workEntry, workEntry_started, h]

/-- What a step that runs an entry answers, by what its work answers (R277, R278). -/
def RunsWork (s : State) (q : QueueId) (e : Entry) (i : Instr) : Prop :=
  (∀ t, runEntry q e (started s q e) = .ok t true →
    (∀ x, entryAt (ended t q e.serial) q e.serial = some x → Closes x → exec i s = .next (completeEntry (ended t q e.serial) q x)) ∧
    ((∀ x, entryAt (ended t q e.serial) q e.serial = some x → ¬ Closes x) → exec i s = .next (ended t q e.serial))) ∧
  (∀ t, runEntry q e (started s q e) = .ok t false → exec i s = .next t) ∧
  (∀ t, runEntry q e (started s q e) = .hold t → exec i s = .next t) ∧
  (∀ t fi, runEntry q e (started s q e) = .fault t fi → exec i s = .next (engFault t q e fi))

theorem runsWork (h : exec i s = .next (workEntry s q e)) : RunsWork s q e i := by
  refine ⟨fun t ht => ⟨fun x hx hc => ?_, fun hn => ?_⟩, fun t ht => ?_, fun t ht => ?_, fun t fi ht => ?_⟩
  · rw [h, workEntry_ended ht, endWork_closes hx hc]
  · rw [h, workEntry_ended ht, endWork_stays hn]
  · rw [h, workEntry_goesOn (.inl ht)]
  · rw [h, workEntry_goesOn (.inr ht)]
  · rw [h, workEntry_stops ht]

end Work

section Queue
variable {s t : State} {q : QueueId} {e : Entry} {r : List Entry} {fi : FInfo} {f : FmtE} {dir : Nat}

theorem waitMet_iff : waitMet s e = true ↔ (e.wv = true → e.wcnt ≤ (semAt s (entClus e) e.wsem).toNat) := by
  cases hv : e.wv <;> simp [waitMet, hv]

theorem start_queued (hq : queueAt s q = e :: r) (hst : e.st = .queued) (hf : firedAt s q = []) (hs : isSendt e = false)
    (hw : waitMet s e = true) (hfree : engineFree s q = true) (ho : orderMet s q e = true) :
    (lgenCheck s q e = none → exec (.engineEntryStart q) s = .next (workEntry s q e)) ∧
      ∀ fi, lgenCheck s q e = some fi → exec (.engineEntryStart q) s = .next (engFault s q e fi) := by
  refine ⟨fun hl => (rfl : _ = execEngineEntryStart q s).trans ?_, fun fi hl => (rfl : _ = execEngineEntryStart q s).trans ?_⟩
  · simp [execEngineEntryStart, hq, hst, hf, hs, hw, hfree, ho, hl]
  · simp [execEngineEntryStart, hq, hst, hf, hs, hw, hfree, ho, hl]

/-- The head stays while its wait, its engine or its order is missing. -/
theorem start_waits (hq : queueAt s q = e :: r) (hst : e.st = .queued) (hs : isSendt e = false)
    (hmiss : waitMet s e = false ∨ engineFree s q = false ∨ orderMet s q e = false) : exec (.engineEntryStart q) s = .next s := by
  have hstay : (!waitMet s e || !engineFree s q || !orderMet s q e) = true := by rcases hmiss with h | h | h <;> simp [h]
  refine (rfl : _ = execEngineEntryStart q s).trans ?_
  simp only [execEngineEntryStart, hq, hst, hs, hstay, if_true, Bool.false_eq_true, if_false, ite_self]

theorem start_running (hq : queueAt s q = e :: r) (hst : e.st = .running) (hd : e.done = false) :
    exec (.engineEntryStart q) s = .next (workEntry s q e) := by
  refine (rfl : _ = execEngineEntryStart q s).trans ?_
  simp [execEngineEntryStart, hq, hst, hd]

theorem start_sendt (hq : queueAt s q = e :: r) (hst : e.st = .queued) (hf : firedAt s q = []) (hs : isSendt e = true) :
    exec (.engineEntryStart q) s = .next (armSend s q e) := by
  refine (rfl : _ = execEngineEntryStart q s).trans ?_
  simp [execEngineEntryStart, hq, hst, hf, hs]

/-- A SENDT with room in the list arms, or fires when its threshold is met (R289). -/
theorem armSend_room (h : (slabAt s ⟨q.die, q.unit⟩).armed.length < 64) :
    armSend s q e = modSlab (popQueue s q e.serial) ⟨q.die, q.unit⟩ fun b =>
      if e.wcnt ≤ (semAt s (entClus e) e.wsem).toNat then { b with fired := b.fired ++ [{ e with since := s.ck }] }
      else { b with armed := b.armed ++ [e] } := by
  refine (if_neg (Nat.not_le.2 h)).trans (congrArg (modSlab _ _) (funext fun b => ?_))
  exact if_congr decide_eq_true_iff rfl rfl

/-- A face lands and clears its bit; the last one ends the work (R285). -/
theorem face_lands (hq : queueAt s q = e :: r) (hc : e.cmd = .halo f) (hst : e.st = .running) (hdir : dir < 6)
    (hbit : e.prog / 2 ^ dir % 2 = 1) (hl : faceLand q e dir s = .ok t ()) :
    exec (.haloFaceArrival q dir) s = .next (if e.prog = 2 ^ dir then ended (setProg t q e.serial 0) q e.serial
      else setProg t q e.serial (e.prog - 2 ^ dir)) := by
  refine (rfl : _ = execHaloFaceArrival q dir s).trans ?_
  by_cases hlast : e.prog = 2 ^ dir
  · simp [execHaloFaceArrival, hq, hc, hst, hdir, hl, hlast, ended]
  · simp [execHaloFaceArrival, hq, hc, hst, hdir, hbit, hl, hlast]

/-- Completion of the entry that its queue serves (R122). -/
theorem complete_next (hn : nextEntry s q = some e) (hst : e.st = .running) (hd : e.done = true) (ha : e.acks = 0) :
    exec (.engineEntryComplete q) s = .next (completeEntry s q e) := by
  refine (rfl : _ = execEngineEntryComplete q s).trans ?_
  simp [execEngineEntryComplete, hn, hst, hd, ha]

theorem complete_waits (hn : nextEntry s q = some e) (h : e.done = false ∨ e.acks ≠ 0) : exec (.engineEntryComplete q) s = .next s := by
  refine (rfl : _ = execEngineEntryComplete q s).trans ?_
  rcases h with h | h <;> simp [execEngineEntryComplete, hn, h]

theorem nextEntry_head (hq : queueAt s q = e :: r) (hst : e.st = .running) : nextEntry s q = some e := by
  simp [nextEntry, hq, hst]

/-- A fired send goes before a head that has not started (R289). -/
theorem nextEntry_fired (hf : firedAt s q = e :: r) (hq : ∀ x l, queueAt s q = x :: l → x.st = .queued) : nextEntry s q = some e := by
  unfold nextEntry
  cases hl : queueAt s q with
  | nil => simp [hf]
  | cons x l => simp [hf, hq x l hl]

theorem queueAt_setQueue (s : State) (q : QueueId) (l : List Entry) : queueAt (setQueue s q l) q = l := by
  unfold queueAt setQueue
  split
  · simp [modSlab]
  · simp [modCluster]

/-- The head leaves its queue, and the next one's wait starts anew (R325). -/
theorem queueAt_popQueue (hq : queueAt s q = e :: r) :
    (r = [] → queueAt (popQueue s q e.serial) q = []) ∧
      ∀ x l, r = x :: l → queueAt (popQueue s q e.serial) q = { x with since := s.ck } :: l := by
  refine ⟨?_, ?_⟩
  · rintro rfl
    simp [popQueue, hq, queueAt_setQueue]
  · rintro x l rfl
    simp [popQueue, hq, queueAt_setQueue]

theorem popQueue_leaves (hq : queueAt s q = e :: r) (hr : ∀ x ∈ r, x.serial ≠ e.serial) :
    ∀ x ∈ queueAt (popQueue s q e.serial) q, x.serial ≠ e.serial := by
  obtain ⟨hnil, hcons⟩ := queueAt_popQueue hq
  cases r with
  | nil => simp [hnil rfl]
  | cons y l =>
    obtain ⟨hy, hl⟩ := List.forall_mem_cons.1 hr
    rw [hcons y l rfl]
    exact List.forall_mem_cons.2 ⟨hy, hl⟩

end Queue

section Fired
variable {s : State} {sl : SlabId} {e : Entry} {l : List Entry}

theorem firedAt_slab (s : State) (sl : SlabId) : firedAt s ⟨sl.die, sl.slab, .le⟩ = (slabAt s sl).fired := if_pos rfl

/-- A fired send that has not started runs when its queue runs nothing and the engine is free (R289). -/
theorem fire_queued (hf : (slabAt s sl).fired = e :: l) (hq : ∀ x r, queueAt s ⟨sl.die, sl.slab, .le⟩ = x :: r → x.st = .queued)
    (hst : e.st = .queued) (hd : e.done = false) (hfree : engineFree s ⟨sl.die, sl.slab, .le⟩ = true) :
    (lgenCheck s ⟨sl.die, sl.slab, .le⟩ e = none →
        exec (.sendtFire sl) s = .next (workEntry s ⟨sl.die, sl.slab, .le⟩ e)) ∧
      ∀ fi, lgenCheck s ⟨sl.die, sl.slab, .le⟩ e = some fi →
        exec (.sendtFire sl) s = .next (engFault s ⟨sl.die, sl.slab, .le⟩ e fi) := by
  refine ⟨fun hl => (rfl : _ = execSendtFire sl s).trans ?_, fun fi hl => (rfl : _ = execSendtFire sl s).trans ?_⟩
  all_goals
    cases hh : queueAt s ⟨sl.die, sl.slab, .le⟩ with
    | nil => simp [execSendtFire, hf, hh, hst, hd, hfree, hl]
    | cons x r => simp [execSendtFire, hf, hh, hq x r hh, hst, hd, hfree, hl]

theorem fire_running (hf : (slabAt s sl).fired = e :: l) (hq : ∀ x r, queueAt s ⟨sl.die, sl.slab, .le⟩ = x :: r → x.st = .queued)
    (hst : e.st = .running) (hd : e.done = false) : exec (.sendtFire sl) s = .next (workEntry s ⟨sl.die, sl.slab, .le⟩ e) := by
  refine (rfl : _ = execSendtFire sl s).trans ?_
  cases hh : queueAt s ⟨sl.die, sl.slab, .le⟩ with
  | nil => simp [execSendtFire, hf, hh, hst, hd]
  | cons x r => simp [execSendtFire, hf, hh, hq x r hh, hst, hd]

end Fired

end Sys2Proof.Proofs

/-! What the steps of a completion leave alone. -/

namespace Sys2Proof.Proofs
open Sys2Proof.Machine Sys2Proof.Claims

/-- What leaves the clock, memory, the dies and every engine queue as they are. -/
structure Frame (s t : State) : Prop where
  ck : t.ck = s.ck
  mem : t.mem = s.mem
  hostMem : t.hostMem = s.hostMem
  dies : t.dies = s.dies
  clusterQueues : ∀ c, (clusterAt t c).queues = (clusterAt s c).queues
  slabQueues : ∀ sl, (slabAt t sl).queues = (slabAt s sl).queues

/-- What also leaves the lines and the semaphores as they are. -/
structure Quiet (s t : State) : Prop extends Frame s t where
  l2 : t.l2 = s.l2
  sems : ∀ c, (clusterAt t c).sems = (clusterAt s c).sems

section Frames
variable {s t u : State}

theorem Frame.refl (s : State) : Frame s s := ⟨rfl, rfl, rfl, rfl, fun _ => rfl, fun _ => rfl⟩
theorem Quiet.refl (s : State) : Quiet s s := ⟨.refl s, rfl, fun _ => rfl⟩

theorem Frame.trans (h : Frame s t) (k : Frame t u) : Frame s u :=
  ⟨k.ck.trans h.ck, k.mem.trans h.mem, k.hostMem.trans h.hostMem, k.dies.trans h.dies,
    fun c => (k.clusterQueues c).trans (h.clusterQueues c), fun c => (k.slabQueues c).trans (h.slabQueues c)⟩

theorem Quiet.trans (h : Quiet s t) (k : Quiet t u) : Quiet s u :=
  ⟨h.toFrame.trans k.toFrame, k.l2.trans h.l2, fun c => (k.sems c).trans (h.sems c)⟩

theorem Frame.queueAt (h : Frame s t) (q : QueueId) : queueAt t q = queueAt s q := by
  rw [Machine.queueAt, Machine.queueAt, h.slabQueues, h.clusterQueues]

theorem Quiet.semAt (h : Quiet s t) (c : ClusterId) (n : Nat) : semAt t c n = semAt s c n := by
  rw [Machine.semAt, Machine.semAt, h.sems]

/-- A relation that steps keep, a fold of them keeps. -/
theorem rel_foldl {β : Type} {R : State → State → Prop} {g : State → β → State} (hrefl : ∀ a, R a a)
    (htrans : ∀ {a b c}, R a b → R b c → R a c) (hstep : ∀ a x, R a (g a x)) (l : List β) (s : State) : R s (l.foldl g s) := by
  induction l generalizing s with
  | nil => exact hrefl s
  | cons x r ih => exact htrans (hstep s x) (ih _)

theorem clusterAt_modCluster (s : State) (c : ClusterId) (f : Cluster → Cluster) (x : ClusterId) :
    clusterAt (modCluster s c f) x = if x = c then f (clusterAt s x) else clusterAt s x := by
  split
  case isTrue h => rw [h, modCluster, clusterAt_setCluster_same]
  case isFalse h => simp [modCluster, setCluster, clusterAt, lkpD_ins_ne _ _ _ h]

theorem quiet_cores (s : State) (m : AMap CoreId Core) : Quiet s { s with cores := m } :=
  ⟨⟨rfl, rfl, rfl, rfl, fun _ => rfl, fun _ => rfl⟩, rfl, fun _ => rfl⟩

theorem quiet_modTask (s : State) (c : CoreId) (f : Task → Task) : Quiet s (modTask s c f) := quiet_cores ..

theorem quiet_modCluster {f : Cluster → Cluster} (hq : ∀ k, (f k).queues = k.queues) (hs : ∀ k, (f k).sems = k.sems) (s : State)
    (c : ClusterId) : Quiet s (modCluster s c f) := by
  refine ⟨⟨rfl, rfl, rfl, rfl, fun x => ?_, fun _ => rfl⟩, rfl, fun x => ?_⟩
  · rw [clusterAt_modCluster]
    split
    · exact hq _
    · rfl
  · rw [clusterAt_modCluster]
    split
    · exact hs _
    · rfl

theorem quiet_modSlab {f : Slab → Slab} (hq : ∀ b, (f b).queues = b.queues) (s : State) (sl : SlabId) : Quiet s (modSlab s sl f) := by
  refine ⟨⟨rfl, rfl, rfl, rfl, fun _ => rfl, fun x => ?_⟩, rfl, fun _ => rfl⟩
  rw [slabAt_modSlab]
  split
  · exact hq _
  · rfl

theorem quiet_mapSlabs {f : Slab → Slab} (hq : ∀ b, (f b).queues = b.queues) (s : State) :
    Quiet s { s with slabs := s.slabs.map fun x => (x.1, f x.2) } := by
  refine ⟨⟨rfl, rfl, rfl, rfl, fun _ => rfl, fun x => ?_⟩, rfl, fun _ => rfl⟩
  rw [slabAt, lkpD, lkp_map_key (fun _ b => f b), slabAt, lkpD]
  cases lkp s.slabs x with
  | none => rfl
  | some b => exact hq b

theorem quiet_landWins (s : State) (c : ClusterId) (skip : Option CoreId) (l : List Nat) : Quiet s (landWins s c skip l) := by
  unfold landWins
  extract_lets win
  refine rel_foldl Quiet.refl Quiet.trans (fun a k => ?_) (List.range 4) s
  split
  · exact .refl a
  · exact quiet_modTask ..

theorem quiet_landEntry (s : State) (e : Entry) : Quiet s (landEntry s e) := by
  unfold landEntry
  split
  · exact .refl s
  · exact quiet_landWins ..

theorem quiet_modTaskId (s : State) (pid : BitVec 32) (tid : W64) (f : Task → Task) : Quiet s (modTaskId s pid tid f) := by
  unfold modTaskId
  split
  · exact quiet_modTask ..
  · extract_lets mine img
    split
    · exact quiet_mapSlabs (f := fun b => { b with images := b.images.map img }) (fun _ => rfl) s
    · exact .refl s

theorem quiet_wakeIdle (s : State) (c : ClusterId) (n : Nat) : Quiet s (wakeIdle s c n) := by
  unfold wakeIdle
  extract_lets idles hit f
  split
  · exact quiet_cores ..
  · exact .refl s

theorem quiet_fireArmed (s : State) (c : ClusterId) (n : Nat) : Quiet s (fireArmed s c n) := by
  unfold fireArmed
  extract_lets hit sl
  split
  · refine quiet_modSlab ?_ s sl
    exact fun _ => rfl
  · exact .refl s

theorem quiet_startMode (s : State) (c : ClusterId) (b : Nat) (m : Mode) : Quiet s (startMode s c b m none) := by
  unfold startMode
  extract_lets k
  split
  · exact .refl s
  · refine quiet_modCluster ?_ ?_ s c
    · exact fun _ => rfl
    · exact fun _ => rfl

theorem quiet_reapCrews (s : State) (c : ClusterId) : Quiet s (reapCrews s c) := by
  unfold reapCrews
  extract_lets es done gone ended s0 s1
  have h0 : Quiet s s0 := by
    refine quiet_modCluster ?_ ?_ s c
    · exact fun _ => rfl
    · exact fun _ => rfl
  have h1 : Quiet s0 s1 := by
    unfold s1
    split
    · exact quiet_mapSlabs (f := fun b => { b with images := b.images.filter fun im => !ended im }) (fun _ => rfl) s0
    · exact .refl s0
  refine (h0.trans h1).trans (rel_foldl Quiet.refl Quiet.trans (fun a cr => ?_) gone s1)
  exact rel_foldl Quiet.refl Quiet.trans (fun a b => quiet_startMode a c b .cache) _ a

end Frames

section Cores
variable {s t u : State}

theorem startMode_cores (s : State) (c : ClusterId) (b : Nat) (m : Mode) : (startMode s c b m none).cores = s.cores := by
  unfold startMode
  extract_lets k
  split <;> rfl

theorem reapCrews_cores (s : State) (c : ClusterId) : (reapCrews s c).cores = s.cores := by
  unfold reapCrews
  extract_lets es done gone ended s0 s1
  refine (foldl_keeps (φ := State.cores) (fun a cr => ?_) gone s1).trans ?_
  · exact foldl_keeps (φ := State.cores) (fun a b => startMode_cores a c b .cache) _ a
  · unfold s1
    split <;> rfl

theorem fireArmed_cores (s : State) (c : ClusterId) (n : Nat) : (fireArmed s c n).cores = s.cores := by
  unfold fireArmed
  extract_lets hit sl
  split <;> rfl

/-- The core holds the task. -/
def holdsTask (pid : BitVec 32) (tid : W64) (x : CoreId × Core) : Bool := x.2.task.any fun t => t.pid == pid && t.taskId == tid

theorem coreOfTask_eq (s : State) (pid : BitVec 32) (tid : W64) :
    coreOfTask s pid tid = (s.cores.find? (holdsTask pid tid)).map (·.1) := by
  have hp : (fun ck : CoreId × Core => match ck.2.task with | some t => t.pid == pid && t.taskId == tid | none => false) =
      holdsTask pid tid := by
    funext x
    unfold holdsTask
    cases x.2.task <;> rfl
  unfold coreOfTask
  rw [← hp]
  cases hf : s.cores.find? (fun ck => match ck.2.task with | some t => t.pid == pid && t.taskId == tid | none => false) with
  | none => rfl
  | some x => rfl

/-- Setting a key whose value the predicate judges as the one that stands there moves no first hit. -/
theorem find?_ins {κ α : Type} [DecidableEq κ] {p : κ × α → Bool} {k : κ} {v d : α} {m : AMap κ α} (hv : p (k, v) = p (k, lkpD m k d))
    (hd : p (k, d) = false) : ((ins m k v).find? p).map (·.1) = (m.find? p).map (·.1) := by
  induction m with
  | nil =>
    have hnone : p (k, v) = false := hv.trans hd
    simp [ins, hnone]
  | cons x r ih =>
    obtain ⟨j, w⟩ := x
    by_cases hj : j = k
    · subst hj
      have hw : p (j, v) = p (j, w) := by simpa [lkpD, lkp] using hv
      cases hpw : p (j, w) <;> simp [ins, hw, hpw]
    · have hr : p (k, v) = p (k, lkpD r k d) := by simpa [lkpD, lkp, hj] using hv
      cases hpw : p (j, w) <;> simp [ins, hj, hpw, ih hr]

/-- Every task stays where it is, with its registers and its interlocks. -/
structure TasksStay (s t : State) : Prop where
  core : ∀ pid tid, coreOfTask t pid tid = coreOfTask s pid tid
  regs : ∀ c x, (coreAt s c).task = some x → ∃ y, (coreAt t c).task = some y ∧ y.pendReg = x.pendReg ∧ y.a = x.a

theorem TasksStay.of_cores (h : t.cores = s.cores) : TasksStay s t :=
  ⟨fun pid tid => by rw [coreOfTask_eq, coreOfTask_eq, h], fun c x hx => ⟨x, by rw [coreAt, h]; exact hx, rfl, rfl⟩⟩

theorem TasksStay.refl (s : State) : TasksStay s s := .of_cores rfl

theorem TasksStay.trans (h : TasksStay s t) (k : TasksStay t u) : TasksStay s u := by
  refine ⟨fun pid tid => (k.core pid tid).trans (h.core pid tid), fun c x hx => ?_⟩
  obtain ⟨y, hy, hyp, hya⟩ := h.regs c x hx
  obtain ⟨z, hz, hzp, hza⟩ := k.regs c y hy
  exact ⟨z, hz, hzp.trans hyp, hza.trans hya⟩

/-- What a change keeps of a task that stays. -/
structure KeepsTask (f : Task → Task) : Prop where
  pid : ∀ t, (f t).pid = t.pid
  taskId : ∀ t, (f t).taskId = t.taskId
  pendReg : ∀ t, (f t).pendReg = t.pendReg
  a : ∀ t, (f t).a = t.a

theorem coreOfTask_modTask {f : Task → Task} (hp : ∀ t, (f t).pid = t.pid) (ht : ∀ t, (f t).taskId = t.taskId) (s : State) (d : CoreId)
    (pid : BitVec 32) (tid : W64) : coreOfTask (modTask s d f) pid tid = coreOfTask s pid tid := by
  rw [coreOfTask_eq, coreOfTask_eq]
  refine find?_ins (d := ({} : Core)) ?_ rfl
  show (Option.map f (coreAt s d).task).any _ = (coreAt s d).task.any _
  rw [Option.any_map]
  exact congrArg (Option.any · _) (funext fun x => by simp only [hp, ht])

theorem task_modTask (s : State) (d : CoreId) (f : Task → Task) (c : CoreId) :
    (coreAt (modTask s d f) c).task = if c = d then (coreAt s c).task.map f else (coreAt s c).task := by
  split
  case isTrue h => rw [h, modTask, modCore, coreAt_setCore_same]
  case isFalse h => rw [modTask, modCore, coreAt_setCore_ne _ _ h]

theorem tasksStay_modTask {f : Task → Task} (hf : KeepsTask f) (s : State) (d : CoreId) : TasksStay s (modTask s d f) := by
  refine ⟨coreOfTask_modTask hf.pid hf.taskId s d, fun c x hx => ?_⟩
  rw [task_modTask]
  split
  · exact ⟨f x, by rw [hx]; rfl, hf.pendReg x, hf.a x⟩
  · exact ⟨x, hx, rfl, rfl⟩

theorem tasksStay_landEntry (s : State) (e : Entry) : TasksStay s (landEntry s e) := by
  unfold landEntry
  split
  · exact .refl s
  · unfold landWins
    extract_lets win
    refine rel_foldl TasksStay.refl TasksStay.trans (fun a k => ?_) (List.range 4) s
    split
    · exact .refl a
    · refine tasksStay_modTask ?_ a _
      exact ⟨fun _ => rfl, fun _ => rfl, fun _ => rfl, fun _ => rfl⟩

/-- Changing what cores hold, task by task. -/
theorem tasksStay_mapCores {g : CoreId → Core → Core} (hg : ∀ c k, ∃ f, KeepsTask f ∧ (g c k).task = k.task.map f) (s : State) :
    TasksStay s { s with cores := s.cores.map fun x => (x.1, g x.1 x.2) } := by
  have hpred : ∀ pid tid, (holdsTask pid tid ∘ fun x : CoreId × Core => (x.1, g x.1 x.2)) = holdsTask pid tid := fun pid tid => by
    funext x
    obtain ⟨f, hf, hx⟩ := hg x.1 x.2
    simp only [Function.comp, holdsTask, hx, Option.any_map, hf.pid, hf.taskId]
  refine ⟨fun pid tid => ?_, fun c x hx => ?_⟩
  · rw [coreOfTask_eq, coreOfTask_eq, List.find?_map, hpred, Option.map_map]
    rfl
  · obtain ⟨k, hk⟩ : ∃ k, lkp s.cores c = some k := by
      cases hc : lkp s.cores c with
      | none => simp [coreAt, lkpD, hc] at hx
      | some k => exact ⟨k, rfl⟩
    obtain ⟨f, hf, ht⟩ := hg c k
    have hkx : k.task = some x := by simpa [coreAt, lkpD, hk] using hx
    refine ⟨f x, ?_, hf.pendReg x, hf.a x⟩
    rw [coreAt, lkpD, lkp_map_key, hk]
    exact ht.trans (by rw [hkx]; rfl)

end Cores
end Sys2Proof.Proofs

/-! Completion of an engine entry (R122, R276, R325). -/

namespace Sys2Proof.Proofs
open Sys2Proof.Machine Sys2Proof.Claims

section Signals
variable {s : State} {c : ClusterId} {n : Nat}

theorem tasksStay_mapHit {f : Task → Task} (hf : KeepsTask f) (hit : CoreId × Core → Bool) (s : State) :
    TasksStay s { s with cores := s.cores.map fun x => if hit x then (x.1, { x.2 with task := x.2.task.map f }) else x } := by
  have hmap : (fun x : CoreId × Core => if hit x then (x.1, { x.2 with task := x.2.task.map f }) else x) =
      fun x => (x.1, if hit x then { x.2 with task := x.2.task.map f } else x.2) := by
    funext x
    split <;> rfl
  rw [hmap]
  refine tasksStay_mapCores (g := fun c k => if hit (c, k) then { k with task := k.task.map f } else k) (fun c k => ?_) s
  split
  · exact ⟨f, hf, rfl⟩
  · exact ⟨id, ⟨fun _ => rfl, fun _ => rfl, fun _ => rfl, fun _ => rfl⟩, (Option.map_id_apply ..).symm⟩

theorem tasksStay_wakeIdle (s : State) (c : ClusterId) (n : Nat) : TasksStay s (wakeIdle s c n) := by
  unfold wakeIdle
  extract_lets idles hit f
  have hf : KeepsTask f := by
    constructor
    all_goals
      intro t
      unfold f
      split <;> rfl
  split
  · exact tasksStay_mapHit hf hit s
  · exact .refl s

/-- A semaphore changes after the IDLEs that wait on it are woken (R319). -/
def woken (s : State) (c : ClusterId) (n : Nat) (v : BitVec 32) : State := if v = semAt s c n then s else wakeIdle s c n

/-- A semaphore takes its value before the armed sends that it meets fire (R289). -/
def semPut (s : State) (c : ClusterId) (n : Nat) (v : BitVec 32) : State := modCluster s c fun k => { k with sems := ins k.sems n v }

theorem setSem_eq (s : State) (c : ClusterId) (n : Nat) (v : BitVec 32) : setSem s c n v = fireArmed (semPut (woken s c n v) c n v) c n := rfl

theorem quiet_woken (s : State) (c : ClusterId) (n : Nat) (v : BitVec 32) : Quiet s (woken s c n v) := by
  unfold woken
  split
  · exact .refl s
  · exact quiet_wakeIdle ..

theorem frame_semPut (s : State) (c : ClusterId) (n : Nat) (v : BitVec 32) : Frame s (semPut s c n v) := by
  refine ⟨rfl, rfl, rfl, rfl, fun x => ?_, fun _ => rfl⟩
  rw [semPut, clusterAt_modCluster]
  split <;> rfl

theorem frame_setSem (s : State) (c : ClusterId) (n : Nat) (v : BitVec 32) : Frame s (setSem s c n v) :=
  ((quiet_woken s c n v).toFrame.trans (frame_semPut _ c n v)).trans (quiet_fireArmed _ c n).toFrame

theorem setSem_l2 (s : State) (c : ClusterId) (n : Nat) (v : BitVec 32) : (setSem s c n v).l2 = s.l2 :=
  (quiet_fireArmed _ c n).l2.trans (quiet_woken s c n v).l2

theorem semAt_setSem (s : State) (c : ClusterId) (n : Nat) (v : BitVec 32) : semAt (setSem s c n v) c n = v := by
  rw [setSem_eq, (quiet_fireArmed _ c n).semAt, semAt, semPut, clusterAt_modCluster, if_pos rfl]
  exact lkpD_ins_same ..

theorem tasksStay_setSem (s : State) (c : ClusterId) (n : Nat) (v : BitVec 32) : TasksStay s (setSem s c n v) := by
  have hwoken : TasksStay s (woken s c n v) := by
    unfold woken
    split
    · exact .refl s
    · exact tasksStay_wakeIdle s c n
  exact hwoken.trans (.of_cores (fireArmed_cores ..))

variable {e : Entry}

theorem frame_signalEntry (s : State) (e : Entry) : Frame s (signalEntry s e) := by
  unfold signalEntry
  split
  · exact frame_setSem ..
  · exact .refl s

theorem signalEntry_l2 (s : State) (e : Entry) : (signalEntry s e).l2 = s.l2 := by
  unfold signalEntry
  split
  · exact setSem_l2 ..
  · rfl

/-- A completion counts the entry's signal semaphore once (R122). -/
theorem semAt_signalEntry (s : State) (e : Entry) :
    semAt (signalEntry s e) (entClus e) e.ssem = semAt s (entClus e) e.ssem + (if e.sv = true then 1 else 0) := by
  unfold signalEntry
  split
  · exact semAt_setSem ..
  · exact (BitVec.add_zero _).symm

theorem tasksStay_signalEntry (s : State) (e : Entry) : TasksStay s (signalEntry s e) := by
  unfold signalEntry
  split
  · exact tasksStay_setSem ..
  · exact .refl s

end Signals

section Leaving
variable {s : State} {q : QueueId} {e : Entry}

theorem frame_dropMarks (s : State) (q : QueueId) (n : Nat) : Frame s (dropMarks s q n) :=
  ⟨rfl, rfl, rfl, rfl, fun _ => rfl, fun _ => rfl⟩

/-- No line keeps a mark of the entry (R112). -/
theorem dropMarks_clears (s : State) (q : QueueId) (n : Nat) :
    ∀ kl ∈ (dropMarks s q n).l2, ∀ m ∈ kl.2.marks, ¬ (m.q = q ∧ m.serial = n) := by
  intro kl hkl m hm
  obtain ⟨x, -, rfl⟩ := List.mem_map.1 hkl
  obtain ⟨-, hkeep⟩ := List.mem_filter.1 hm
  simpa [imp_iff_not_or] using hkeep

/-- The result ends the interlock of its register and stands there (R276). -/
theorem landResult_waiting {n : Nat} {tag : BitVec 32} {t : Task} (h : (n, tag) ∈ t.pendReg) (v : W64) :
    (n, tag) ∉ (landResult n tag v t).pendReg ∧ (n ≠ 0 → lkpD (landResult n tag v t).a n 0 = v) := by
  rw [landResult, if_pos (List.contains_iff_mem.2 h)]
  refine ⟨fun hin => ?_, fun hn => ?_⟩
  · simpa using (List.mem_filter.1 hin).2
  · simp [hn]

/-- What `setQueue` leaves: it writes an engine queue and nothing else. -/
theorem setQueue_keeps (s : State) (q : QueueId) (l : List Entry) :
    (setQueue s q l).l2 = s.l2 ∧ (setQueue s q l).mem = s.mem ∧ (setQueue s q l).hostMem = s.hostMem ∧ (setQueue s q l).cores = s.cores ∧
      ∀ c, (clusterAt (setQueue s q l) c).sems = (clusterAt s c).sems := by
  unfold setQueue
  split
  · exact ⟨rfl, rfl, rfl, rfl, fun _ => rfl⟩
  · refine ⟨rfl, rfl, rfl, rfl, fun c => ?_⟩
    rw [clusterAt_modCluster]
    split <;> rfl

theorem popQueue_keeps (s : State) (q : QueueId) (n : Nat) :
    (popQueue s q n).l2 = s.l2 ∧ (popQueue s q n).mem = s.mem ∧ (popQueue s q n).hostMem = s.hostMem ∧ (popQueue s q n).cores = s.cores ∧
      ∀ c, (clusterAt (popQueue s q n) c).sems = (clusterAt s c).sems := by
  unfold popQueue
  split
  · exact ⟨rfl, rfl, rfl, rfl, fun _ => rfl⟩
  · split
    · exact ⟨rfl, rfl, rfl, rfl, fun _ => rfl⟩
    · split
      · exact setQueue_keeps ..
      · exact setQueue_keeps ..

/-- The entry leaves the fired sends of its slab (R289). -/
def unfired (s : State) (q : QueueId) (n : Nat) : State :=
  if q.q = .le then modSlab s ⟨q.die, q.unit⟩ fun b => { b with fired := b.fired.filter fun x => x.serial != n } else s

theorem quiet_unfired (s : State) (q : QueueId) (n : Nat) : Quiet s (unfired s q n) := by
  unfold unfired
  split
  · refine quiet_modSlab ?_ s _
    exact fun _ => rfl
  · exact .refl s

theorem unfired_cores (s : State) (q : QueueId) (n : Nat) : (unfired s q n).cores = s.cores := by
  unfold unfired
  split <;> rfl

/-- The turn of a shared engine passes to the die's other queue (R22). -/
def turned (s : State) (q : QueueId) : State :=
  match q.q with
  | .he => modDie s q.die fun d => { d with heTurn := 1 - q.unit }
  | .le => modDie s q.die fun d => { d with leTurn := 1 - q.unit }
  | _ => s

theorem turned_dies (s : State) (q : QueueId) : ∃ m, turned s q = { s with dies := m } := by
  unfold turned
  split
  · exact ⟨_, rfl⟩
  · exact ⟨_, rfl⟩
  · exact ⟨_, rfl⟩

theorem turned_he (h : q.q = .he) (s : State) : (dieAt (turned s q) q.die).heTurn = 1 - q.unit := by
  rw [turned, h]
  simp [modDie]

theorem turned_le (h : q.q = .le) (s : State) : (dieAt (turned s q) q.die).leTurn = 1 - q.unit := by
  rw [turned, h]
  simp [modDie]

/-- The state in which the entry's marks are gone and its semaphore has counted. -/
def signalled (s : State) (q : QueueId) (e : Entry) : State := signalEntry (dropMarks (landEntry s e) q e.serial) e
/-- The state in which its result has landed too. -/
def landedResult (s : State) (q : QueueId) (e : Entry) : State :=
  modTaskId (signalled s q e) e.pid e.taskId (landResult e.dst e.tag e.result)
/-- The state in which it has left its queue too. -/
def departed (s : State) (q : QueueId) (e : Entry) : State := turned (unfired (popQueue (landedResult s q e) q e.serial) q e.serial) q

theorem completeEntry_eq (s : State) (q : QueueId) (e : Entry) : completeEntry s q e = reapCrews (departed s q e) (entClus e) := rfl

theorem frame_landedResult (s : State) (q : QueueId) (e : Entry) : Frame s (landedResult s q e) :=
  (((quiet_landEntry s e).toFrame.trans (frame_dropMarks ..)).trans (frame_signalEntry ..)).trans (quiet_modTaskId ..).toFrame

theorem landedResult_l2 (s : State) (q : QueueId) (e : Entry) : (landedResult s q e).l2 = (dropMarks (landEntry s e) q e.serial).l2 :=
  (quiet_modTaskId ..).l2.trans (signalEntry_l2 ..)

theorem semAt_landedResult (s : State) (q : QueueId) (e : Entry) :
    semAt (landedResult s q e) (entClus e) e.ssem = semAt s (entClus e) e.ssem + (if e.sv = true then 1 else 0) := by
  rw [landedResult, (quiet_modTaskId ..).semAt, signalled, semAt_signalEntry]
  exact congrArg (· + _) ((quiet_landEntry s e).semAt ..)

/-- Leaving the queue leaves lines, memory, tasks and semaphores. -/
theorem completeEntry_keeps (s : State) (q : QueueId) (e : Entry) :
    (completeEntry s q e).l2 = (landedResult s q e).l2 ∧ (completeEntry s q e).mem = (landedResult s q e).mem ∧
      (completeEntry s q e).hostMem = (landedResult s q e).hostMem ∧ (completeEntry s q e).cores = (landedResult s q e).cores ∧
      ∀ c, (clusterAt (completeEntry s q e) c).sems = (clusterAt (landedResult s q e) c).sems := by
  obtain ⟨hl2, hmem, hhost, hcores, hsems⟩ := popQueue_keeps (landedResult s q e) q e.serial
  have hfired := quiet_unfired (popQueue (landedResult s q e) q e.serial) q e.serial
  have hreap := quiet_reapCrews (departed s q e) (entClus e)
  obtain ⟨m, hturn⟩ := turned_dies (unfired (popQueue (landedResult s q e) q e.serial) q e.serial) q
  have hdep : departed s q e = _ := hturn
  rw [completeEntry_eq]
  refine ⟨hreap.l2.trans ?_, hreap.mem.trans ?_, hreap.hostMem.trans ?_, (reapCrews_cores ..).trans ?_, fun c => (hreap.sems c).trans ?_⟩
  · rw [hdep]; exact hfired.l2.trans hl2
  · rw [hdep]; exact hfired.mem.trans hmem
  · rw [hdep]; exact hfired.hostMem.trans hhost
  · rw [hdep]; exact (unfired_cores ..).trans hcores
  · rw [hdep]; exact (hfired.sems c).trans (hsems c)

theorem queueAt_turned (s : State) (q p : QueueId) : queueAt (turned s q) p = queueAt s p := by
  obtain ⟨m, hm⟩ := turned_dies s q
  rw [hm]
  rfl

theorem queueAt_completeEntry (s : State) (q : QueueId) (e : Entry) :
    queueAt (completeEntry s q e) q = queueAt (popQueue (landedResult s q e) q e.serial) q :=
  ((quiet_reapCrews ..).toFrame.queueAt q).trans ((queueAt_turned ..).trans ((quiet_unfired ..).toFrame.queueAt q))

/-- The entry's task waits where it was while the completion signals. -/
theorem tasksStay_signalled (s : State) (q : QueueId) (e : Entry) : TasksStay s (signalled s q e) := by
  have hdrop : TasksStay (landEntry s e) (dropMarks (landEntry s e) q e.serial) := .of_cores rfl
  exact ((tasksStay_landEntry s e).trans hdrop).trans (tasksStay_signalEntry _ e)

/-- The result reaches the register that waits for its tag (R276). -/
theorem landedResult_task {c : CoreId} {tk : Task} (hc : coreOfTask s e.pid e.taskId = some c) (ht : (coreAt s c).task = some tk)
    (hw : (e.dst, e.tag) ∈ tk.pendReg) :
    ∃ y, (coreAt (landedResult s q e) c).task = some y ∧ (e.dst, e.tag) ∉ y.pendReg ∧ (e.dst ≠ 0 → lkpD y.a e.dst 0 = e.result) := by
  have hstay := tasksStay_signalled s q e
  obtain ⟨x, hx, hpend, -⟩ := hstay.regs c tk ht
  have hmod : landedResult s q e = modTask (signalled s q e) c (landResult e.dst e.tag e.result) := by
    rw [landedResult, modTaskId, hstay.core, hc]
  refine ⟨landResult e.dst e.tag e.result x, ?_, landResult_waiting (hpend ▸ hw) _⟩
  rw [hmod, task_modTask, if_pos rfl, hx]
  rfl

end Leaving

theorem completionEffect : CompletionEffect := by
  intro s q e t
  obtain ⟨hl2, hmem, hhost, hcores, hsems⟩ := completeEntry_keeps s q e
  have hframe := frame_landedResult s q e
  have hdies : t.dies = (departed s q e).dies := (quiet_reapCrews (departed s q e) (entClus e)).dies
  refine ⟨?_, ?_, fun r hq => ?_, fun c tk hc ht hw => ?_, fun hhe => ?_, fun hle => ?_, hmem.trans hframe.mem, hhost.trans hframe.hostMem⟩
  · rw [show t.l2 = _ from hl2.trans (landedResult_l2 s q e)]
    exact dropMarks_clears (landEntry s e) q e.serial
  · rw [show semAt t (entClus e) e.ssem = semAt (landedResult s q e) (entClus e) e.ssem from by rw [semAt, hsems, semAt]]
    exact semAt_landedResult s q e
  · rw [show queueAt t q = _ from queueAt_completeEntry s q e, ← hframe.ck]
    exact queueAt_popQueue ((hframe.queueAt q).trans hq)
  · rw [show coreAt t c = coreAt (landedResult s q e) c from by rw [coreAt, hcores, coreAt]]
    exact landedResult_task hc ht hw
  · rw [dieAt, hdies]
    exact turned_he hhe _
  · rw [dieAt, hdies]
    exact turned_le hle _

end Sys2Proof.Proofs

/-! Engine entries: the statement settled (R122, R277 to R289). -/

namespace Sys2Proof.Proofs
open Sys2Proof.Machine Sys2Proof.Claims

/-- Settles O44: a completion and the entry's bytes, units and copies each by their own theorem; the events by the case of the queue's head. -/
theorem engineEntryEvents : Obligations.EngineEntryEvents := by
  refine ⟨completionEffect, entryUnits, entryBytes, copyUnits, sendUnits, fun s q e => ?_⟩
  intro start work met left
  refine ⟨fun r hq => ⟨fun hst hf hs hw hfree ho => ?_, fun hst hs hmiss => ?_, fun hst hd => runsWork (start_running hq hst hd),
    fun hst hf hs hroom => ?_, fun f dir s1 hc hst hdir hbit hl => face_lands hq hc hst hdir hbit hl,
    fun hst hd ha => ⟨complete_next (nextEntry_head hq hst) hst hd ha, popQueue_leaves hq⟩,
    fun hst h => complete_waits (nextEntry_head hq hst) h⟩, fun sl l hsl hf hq => ?_⟩
  · obtain ⟨hrun, hstop⟩ := start_queued hq hst hf hs (waitMet_iff.2 hw) hfree ho
    exact ⟨fun hl => runsWork (hrun hl), hstop⟩
  · refine start_waits hq hst hs (hmiss.imp_left fun ⟨hv, hm⟩ => ?_)
    exact Bool.eq_false_iff.2 fun hw => hm (waitMet_iff.1 hw hv)
  · exact (start_sendt hq hst hf hs).trans (congrArg Host.Outcome.next (armSend_room hroom))
  · subst hsl
    refine ⟨fun hst hd hfree => ?_, fun hst hd => runsWork (fire_running hf hq hst hd), fun hst hd ha => ?_⟩
    · obtain ⟨hrun, hstop⟩ := fire_queued hf hq hst hd hfree
      exact ⟨fun hl => runsWork (hrun hl), hstop⟩
    · exact complete_next (nextEntry_fired ((firedAt_slab s sl).trans hf) hq) hst hd ha

end Sys2Proof.Proofs
